-- ==== Sys2Proof/Word.lean ====
section
/-! DEFINITION. The words of the part (scope, Conventions: a word is 32 data bits; on a link every unit is a byte). -/

namespace Sys2Proof

/-- A word of the array, of the aperture or of a response: 32 bits. -/
abbrev Word := BitVec 32

/-- A byte of a link frame. -/
abbrev Byte := BitVec 8

end Sys2Proof
end

