-- ==== Sys2Proof/Config.lean ====
section
/-! DEFINITION. The sizes and limits that the data book fixes for every G730. The part has no implementation-defined
constant; what the book leaves open reaches the model as an operand of a command (notes/assumptions 1, 7 and 9). -/

namespace Sys2Proof

/-- The signature modulus p (scope, Numbers). -/
def Config.p : Nat := 2147483647

/-- Words of the array (scope, Words, blocks and addresses; R39). -/
def Config.words : Nat := 1048576

/-- Blocks of the array. -/
def Config.blocks : Nat := 65536

/-- Words of a block. -/
def Config.blockWords : Nat := 16

/-- Entries of the region table (R1). -/
def Config.regions : Nat := 32

/-- Signature slots (R54). -/
def Config.sigSlots : Nat := 16

/-- Entries the posted-write queue holds (R24). -/
def Config.pwqMax : Nat := 32

/-- Entries the journal holds (R81). -/
def Config.journalMax : Nat := 512

/-- Blocks the repair list holds (R88). -/
def Config.repairMax : Nat := 32

/-- Records the event queue holds (R177). -/
def Config.eventMax : Nat := 64

/-- Where a 16-bit count stops (R13, R108, R177). -/
def Config.count16Max : Nat := 65535

/-- Where a 32-bit count of blocks stops (R140, R151). -/
def Config.count32Max : Nat := 4294967295

/-- Credits a server may hold, and block buffers of a requester (R153, R140). -/
def Config.creditMax : Nat := 8

/-- Words of the request area (R18); the submit word follows them. -/
def Config.requestWords : Nat := 255

/-- First byte address of the aperture (R18). -/
def Config.aperture : Nat := 0x400000

/-- First byte address above the aperture (R18). -/
def Config.apertureEnd : Nat := 0x400800

end Sys2Proof
end

