-- ==== Sys2Proof/Syntax.lean ====
section
/-! DEFINITION. The commands of the part: one constructor of `Instr` for each row of spec/opcode_table.json, and the
kinds of value their operands are made of (12.1 for the enumerated fields, 12.5 for the frames). -/

namespace Sys2Proof

/-- Initiator kind of a bus transfer (R17). -/
inductive Initiator where
  | data | fetch | dma
deriving DecidableEq, Repr

/-- The two links (R106): link 1 leads to position own + 1, link 2 to own + 2, modulo 3. -/
inductive Link where
  | one | two
deriving DecidableEq, Repr

/-- Device state (R160). -/
inductive DeviceState where
  | configuring | signing | running
deriving DecidableEq, Repr

/-- Channel cycle state (R69). -/
inductive ChannelState where
  | ready | opened | closing | voting | rollingBack | catchup | excluded | restoring
deriving DecidableEq, Repr

/-- Outcome of a vote decision (R127). -/
inductive VoteOutcome where
  | member3 | member2 | collectiveAbandon | outvoted | excluded | noQuorum
deriving DecidableEq, Repr

/-- Kind of a vote frame (R113). -/
inductive VoteKind where
  | closed | abandoned
deriving DecidableEq, Repr

/-- Kind of a restore (R113). -/
inductive PullKind where
  | delta | full
deriving DecidableEq, Repr

/-- Result of a PULL_END frame (R113). -/
inductive PullResult where
  | done | stale | busy | notMember | badRequest | serverLost | aborted
deriving DecidableEq, Repr

/-- Flag of a signature entry (R64, 12.1). `reserved` is the flag code 3, which a received frame may carry and which its
consumer takes as no agreement (R182); the part forms none. -/
inductive EntryFlag where
  | absent | valid | suspect | reserved
deriving DecidableEq, Repr

/-- One signature entry (R64): a flag and a value. -/
structure SigEntry where
  flag  : EntryFlag
  value : Nat
deriving DecidableEq, Repr

/-- The six fields of a HELLO (R112). -/
structure HelloFields where
  dev         : DeviceState
  chan        : Option ChannelState
  cycle       : BitVec 32
  agreedBase  : Bool
  serviceBusy : Bool
  lastOutcome : Option VoteOutcome
deriving DecidableEq, Repr

/-- A VOTE frame's fields (R113). -/
structure VoteFrame where
  cycle   : BitVec 32
  kind    : VoteKind
  entries : List SigEntry
deriving DecidableEq, Repr

/-- A PULL frame's fields (R113). -/
structure PullFrame where
  kind      : PullKind
  credits   : Byte
  target    : BitVec 32
  regionSet : BitVec 16
  repair    : List (BitVec 16)
deriving DecidableEq, Repr

/-- A BLOCK frame's fields (R113). -/
structure BlockFrame where
  block : BitVec 16
  tag   : BitVec 32
  words : List Word
deriving DecidableEq, Repr

/-- A PULL_END frame's fields (R113): the entries are present exactly when the result is DONE (R108). -/
structure PullEndFrame where
  result  : PullResult
  tag     : BitVec 32
  sent    : BitVec 32
  entries : Option (List SigEntry)
deriving DecidableEq, Repr

/-- What the check code reports for an error pattern of three or more bits, which R40 leaves open: GOOD with the data bits
as they stand, CORRECTABLE with one of the 40 bits inverted again, or UNCORRECTABLE. -/
inductive Verdict where
  | good | correctable (bit : Fin 40) | uncorrectable
deriving DecidableEq, Repr

/-- One stored word of the array (R39, R40, R57). `written` is the data value last stored with its check bits, `flips` the
bits disturbed since (0 to 31 data, 32 to 39 check bits), `verdict` what the check code reports when three or more are
disturbed, and `stored` the word's stored value in the sense of R57, which a disturbance leaves alone. -/
structure StoredWord where
  written : Word
  flips   : BitVec 40
  verdict : Verdict
  stored  : Word
deriving DecidableEq, Repr

/-- What a pin reset leaves of the grant in progress (R52, R53): the work on the first `done` words of it is finished, and
the word whose access was in progress holds `torn`, if anything was. -/
structure Cut where
  done : Nat
  torn : Option StoredWord
deriving DecidableEq, Repr

/-- The commands of the part, one for each row of spec/opcode_table.json, in the table's order. -/
inductive Instr where
  /-- POWER_ON: the CH_POS lines, and the arbitrary content the array then holds (R41). -/
  | powerOn (chPos : BitVec 2) (content : List (Nat × StoredWord))
  /-- PIN_RESET_ASSERT: RESET_N falls; what a grant in progress leaves behind, if one was. -/
  | pinResetAssert (cut : Option Cut)
  /-- PIN_RESET_RELEASE: RESET_N rises; the CH_POS lines. -/
  | pinResetRelease (chPos : BitVec 2)
  /-- MEMORY_READ: a read transfer, its initiator, byte address and byte enables. -/
  | memoryRead (ini : Initiator) (addr : BitVec 26) (be : BitVec 4)
  /-- MEMORY_WRITE: a write transfer, with its data. -/
  | memoryWrite (ini : Initiator) (addr : BitVec 26) (be : BitVec 4) (data : Word)
  /-- ADDRESS_REFUSED: a transfer to an address, by an initiator or in a direction that R18 refuses. -/
  | addressRefused (ini : Initiator) (write : Bool) (addr : BitVec 26) (be : BitVec 4) (data : Word)
  /-- REQUEST_AREA_WRITE: a DATA write to the request area. -/
  | requestAreaWrite (addr : BitVec 26) (be : BitVec 4) (data : Word)
  /-- COMMAND_OVERRUN: a write of the submit word while the header shows PENDING. -/
  | commandOverrun (be : BitVec 4)
  /-- UNKNOWN_COMMAND: a write of the submit word over a frame with a bad check word or no command. -/
  | unknownCommand (be : BitVec 4)
  /-- PROC_READ_GRANT: the memory port's grant to a processor-port read. -/
  | procReadGrant
  /-- CORRECTION_WRITE_BACK: the grant to a pending correction write-back. -/
  | correctionWriteBack
  /-- PWQ_HEAD_WRITE: the grant to the head of the posted-write queue. -/
  | pwqHeadWrite
  /-- CAPTURE: the JOURNAL grant that captures the head's block. -/
  | capture
  /-- ROLLBACK_GRANT: the JOURNAL grant that puts the newest journal entry back. -/
  | rollbackGrant
  /-- PATROL_READ: the PATROL grant. -/
  | patrolRead
  /-- SERVER_READ: the LINK grant of a service. -/
  | serverRead
  /-- REQUESTER_WRITE: the LINK grant of a pull. -/
  | requesterWrite
  /-- INIT_BLOCK_WRITE: the SETUP grant of INIT_MEMORY. -/
  | initBlockWrite
  /-- SIGNING_READ: the SETUP grant of the signing pass. -/
  | signingRead
  /-- RE_SIGNING_READ: the SETUP grant of the re-signing pass. -/
  | reSigningRead
  /-- CLEAR_TABLE: the frame, written to the request area and submitted (as every software command below). -/
  | clearTable (tag : Byte) (params : List Word)
  /-- CLEAR_TABLE_DRAINED: the queue has drained under a CLEAR_TABLE. -/
  | clearTableDrained
  /-- LOAD_REGION. -/
  | loadRegion (tag : Byte) (params : List Word)
  /-- LOAD_REGION_DRAINED: the queue has drained under a LOAD_REGION. -/
  | loadRegionDrained
  /-- LOAD_SLOTS. -/
  | loadSlots (tag : Byte) (params : List Word)
  /-- SET_TIMING. -/
  | setTiming (tag : Byte) (params : List Word)
  /-- SET_QUEUE. -/
  | setQueue (tag : Byte) (params : List Word)
  /-- INIT_MEMORY. -/
  | initMemory (tag : Byte) (params : List Word)
  /-- INIT_MEMORY_BEGIN: the queue has drained under an INIT_MEMORY. -/
  | initMemoryBegin
  /-- END_CONFIG. -/
  | endConfig (tag : Byte) (params : List Word)
  /-- END_CONFIG_CHECKS: the queue has drained under an END_CONFIG. -/
  | endConfigChecks
  /-- OPEN_CYCLE. -/
  | openCycle (tag : Byte) (params : List Word)
  /-- CLOSE_CYCLE. -/
  | closeCycle (tag : Byte) (params : List Word)
  /-- CLOSE_DRAIN_END: no signed entry remains queued in CLOSING. -/
  | closeDrainEnd
  /-- ABANDON_CYCLE. -/
  | abandonCycle (tag : Byte) (params : List Word)
  /-- RESTORE. -/
  | restore (tag : Byte) (params : List Word)
  /-- SET_PATROL. -/
  | setPatrol (tag : Byte) (params : List Word)
  /-- SET_ALERT_MASK. -/
  | setAlertMask (tag : Byte) (params : List Word)
  /-- READ_STATE. -/
  | readState (tag : Byte) (params : List Word)
  /-- READ_REGION. -/
  | readRegion (tag : Byte) (params : List Word)
  /-- READ_PEERS. -/
  | readPeers (tag : Byte) (params : List Word)
  /-- READ_EVENTS. -/
  | readEvents (tag : Byte) (params : List Word)
  /-- RESET. -/
  | reset (tag : Byte) (params : List Word)
  /-- COMMAND_RESET: the queue has drained under a RESET. -/
  | commandReset
  /-- CYCLE_LIMIT: the cycle-limit timer expires. -/
  | cycleLimit
  /-- VOTE_TIMER_EXPIRY: the vote timer expires. -/
  | voteTimerExpiry
  /-- PEER_SILENCE_EXPIRY: the peer silence time of the link's peer has passed. -/
  | peerSilenceExpiry (link : Link)
  /-- HELLO_TIMER: the HELLO timer expires. -/
  | helloTimer
  /-- PATROL_INTERVAL: the patrol interval timer expires. -/
  | patrolInterval
  /-- PULL_SILENCE_EXPIRY: the pull silence timer expires. -/
  | pullSilenceExpiry
  /-- CREDIT_SILENCE_EXPIRY: the credit silence timer expires. -/
  | creditSilenceExpiry
  /-- PERMIT_TOGGLE: a half-period of PERMIT ends. -/
  | permitToggle
  /-- INVALID_FRAME: a frame arrives on a link, byte by byte as the line carried it. -/
  | invalidFrame (link : Link) (bytes : List Byte)
  /-- HELLO_RECEIVED: a valid HELLO with its fingerprint. -/
  | helloReceived (link : Link) (fp : BitVec 16) (frame : HelloFields)
  /-- VOTE_RECEIVED: a valid VOTE with its fingerprint. -/
  | voteReceived (link : Link) (fp : BitVec 16) (frame : VoteFrame)
  /-- PULL_RECEIVED: a valid PULL with its fingerprint. -/
  | pullReceived (link : Link) (fp : BitVec 16) (frame : PullFrame)
  /-- BLOCK_RECEIVED: a valid BLOCK with its fingerprint. -/
  | blockReceived (link : Link) (fp : BitVec 16) (frame : BlockFrame)
  /-- CREDIT_RECEIVED: a valid CREDIT with its fingerprint and count. -/
  | creditReceived (link : Link) (fp : BitVec 16) (count : Byte)
  /-- PULL_END_RECEIVED: a valid PULL_END with its fingerprint. -/
  | pullEndReceived (link : Link) (fp : BitVec 16) (frame : PullEndFrame)
  /-- FRAME_TRANSMIT_END: the transmission on a link ends. -/
  | frameTransmitEnd (link : Link)
  /-- ARRAY_DISTURBANCE: the bits `flips` of a stored word are disturbed; `verdict` is what the check code then reports
  where three or more bits of the word are in error. -/
  | arrayDisturbance (word : BitVec 20) (flips : BitVec 40) (verdict : Verdict)
deriving DecidableEq, Repr

end Sys2Proof
end

