-- ==== Sys2Proof/Machine/State.lean ====
section
/-! DEFINITION. The state of the part, one structure for each block of the data book's block table (scope, Block diagram),
and its value after power-on. The lists keyed by a number are in one canonical form: keys strictly rising. -/

namespace Sys2Proof.Machine

open Sys2Proof

/-- One thing for each link. -/
structure PerLink (α : Type) where
  one : α
  two : α
deriving DecidableEq, Repr

/-- One thing for each initiator kind. -/
structure PerInitiator (α : Type) where
  data  : α
  fetch : α
  dma   : α
deriving DecidableEq, Repr

/-- Kind of a region (R1). -/
inductive RegionKind where
  | vital | code | plain
deriving DecidableEq, Repr

/-- A loaded descriptor (R1). The rights are bits in the order of 12.1. A PLAIN descriptor holds slot, base and multiplier
0, as absent fields are carried. The index is the key of the entry. -/
structure Descriptor where
  kind   : RegionKind
  first  : Nat
  count  : Nat
  rights : BitVec 6
  slot   : Nat
  base   : Nat
  mult   : Nat
  patrol : Bool
deriving DecidableEq, Repr

/-- Run state of a region (R12). -/
inductive RegionState where
  | normal | suspectLocated | suspectUnlocated
deriving DecidableEq, Repr

/-- A loaded entry of the region table: descriptor, run state and counts (R1, R12, R13). -/
structure Region where
  desc          : Descriptor
  state         : RegionState
  corrected     : Nat
  uncorrectable : Nat
deriving DecidableEq, Repr

/-- RGT: the loaded entries by index, and the stored fingerprint. -/
structure Rgt where
  entries     : List (Nat × Region)
  fingerprint : BitVec 16
deriving DecidableEq, Repr

/-- Response of a transfer (R17). -/
inductive Resp where
  | okay | wait | error
deriving DecidableEq, Repr

/-- PB_RESP and PB_DATA as an initiator last saw them. -/
structure Answer where
  resp : Resp
  data : Word
deriving DecidableEq, Repr

/-- A memory transfer at the port (R17), its word address in place of the byte address. -/
structure Transfer where
  ini   : Initiator
  write : Bool
  word  : Nat
  be    : BitVec 4
  data  : Word
deriving DecidableEq, Repr

/-- Why a transfer is held (chapter 2, first table). `hazard n`: n queued entries for the word have still to leave (R30).
`access`: the read is requested of the MPU (R32). -/
inductive Hold where
  | port | backpressure | hazard (left : Nat) | rollback | access
deriving DecidableEq, Repr

/-- A held transfer. -/
structure Held where
  transfer : Transfer
  hold     : Hold
deriving DecidableEq, Repr

/-- PPT: held transfers in order of arrival, and the answers last given. -/
structure Ppt where
  held    : List Held
  answers : PerInitiator (Option Answer)
deriving DecidableEq, Repr

/-- An entry of the posted-write queue (R24). -/
structure PwqEntry where
  word   : Nat
  data   : Word
  be     : BitVec 4
  ini    : Initiator
  region : Nat
  signed : Bool
deriving DecidableEq, Repr

/-- PWQ: entries oldest first, hold flag and thresholds (R24, R28, R29). -/
structure Pwq where
  entries : List PwqEntry
  hold    : Bool
  upper   : Nat
  lower   : Nat
deriving DecidableEq, Repr

/-- Requester class of the memory port (R42). -/
inductive PortClass where
  | proc | journal | patrol | link | setup
deriving DecidableEq, Repr

/-- An INIT_MEMORY in progress (R51): its first block, the next block to write and the block after its last. -/
structure InitOp where
  first : Nat
  next  : Nat
  stop  : Nat
deriving DecidableEq, Repr

/-- MPU: the array (words not listed read as `StoredWord.unlisted`), slot table, pointer, pending correction write-back and
INIT_MEMORY in progress. -/
structure Mpu where
  mem       : List (Nat × StoredWord)
  slots     : List PortClass
  pointer   : Nat
  writeBack : Option Nat
  initOp    : Option InitOp
deriving DecidableEq, Repr

/-- A signing or re-signing pass (R62, R63): the slots still to be signed, that of the region being signed first, the next
block of that region, the signing sum, and the uncorrectable words met so far. -/
structure SigningPass where
  slots : List Nat
  block : Nat
  sum   : Nat
  bad   : Nat
deriving DecidableEq, Repr

/-- SGU: the 16 running signatures and the pass in progress. -/
structure Sgu where
  sigs : List Nat
  pass : Option SigningPass
deriving DecidableEq, Repr

/-- A journal entry (R81). -/
structure JournalEntry where
  block : Nat
  words : List Word
  known : List Bool
deriving DecidableEq, Repr

/-- CJU. The marks are the blocks that carry them, in rising order. `v` is computed from `cycle`. -/
structure Cju where
  chan           : Option ChannelState
  cycle          : BitVec 32
  wCur           : List Nat
  wPrev          : List Nat
  resend         : List Nat
  wPrevValid     : Bool
  journal        : List JournalEntry
  unrevertible   : Bool
  repair         : List Nat
  repairOverflow : Bool
  timer          : Option Nat
deriving DecidableEq, Repr

/-- PTU (R92). The region walked is the region of the position. A timer holds the length it was started with. `turned` is
the model's own: the region walked has become SUSPECT in the course of its own walk (R101; notes/assumptions/43). -/
structure Ptu where
  enable     : Bool
  interval   : Nat
  position   : Option Nat
  acc        : Nat
  comparable : Bool
  timer      : Option Nat
  request    : Bool
  turned     : Bool
deriving DecidableEq, Repr

/-- The peer's place at the last own decision (R117). -/
inductive View where
  | member | dissent | absent | abandoned
deriving DecidableEq, Repr

/-- A HELLO as last received: its fields and its fingerprint (R117). -/
structure LastHello where
  fields      : HelloFields
  fingerprint : BitVec 16
deriving DecidableEq, Repr

/-- A peer record (R117). The position is computed from the link and the own position. -/
structure Peer where
  heard     : Bool
  matched   : Bool
  hello     : Option LastHello
  lastFrame : Option (BitVec 32)
  view      : View
  errors    : Nat
  window    : Option Nat
deriving DecidableEq, Repr

/-- A frame waiting in the control part of a transmit queue (R115). A HELLO has no fields until it leaves (R112). -/
inductive CtrlFrame where
  | hello
  | vote (f : VoteFrame)
  | pull (f : PullFrame)
  | credit (count : Nat)
  | pullEnd (f : PullEndFrame)
deriving DecidableEq, Repr

/-- The fields of a frame of each kind, as sent and as received (R113). -/
inductive FrameBody where
  | hello (f : HelloFields)
  | vote (f : VoteFrame)
  | pull (f : PullFrame)
  | block (f : BlockFrame)
  | credit (count : Byte)
  | pullEnd (f : PullEndFrame)
deriving DecidableEq, Repr

/-- A frame on the line: the sender's fingerprint and the fields of its kind. -/
structure SentFrame where
  fingerprint : BitVec 16
  body        : FrameBody
deriving DecidableEq, Repr

/-- A link's transmitter and its queue (R115, R116). `stale`: the BLOCK in transmission is of a service that has ended. -/
structure Transmitter where
  ctrl    : List CtrlFrame
  blocks  : List BlockFrame
  sending : Option SentFrame
  stale   : Bool
deriving DecidableEq, Repr

/-- LKC: peer table, transmitters and the HELLO timer. -/
structure Lkc where
  peers      : PerLink Peer
  tx         : PerLink Transmitter
  helloTimer : Bool
deriving DecidableEq, Repr

/-- The last decision (R134). The agreeing set has bit k for position k. -/
structure Decision where
  outcome  : VoteOutcome
  cycle    : BitVec 32
  agreeing : BitVec 3
  time     : BitVec 32
deriving DecidableEq, Repr

/-- A decision being completed at a rollback (R130): the CURRENT frames it was taken on and the kept majority frame. -/
structure Deciding where
  frames   : PerLink (Option VoteFrame)
  majority : VoteFrame
deriving DecidableEq, Repr

/-- VTU (R121). The vote table keeps each peer's frames in order of arrival; a slot is the frame of its cycle. -/
structure Vtu where
  own        : Option VoteFrame
  table      : PerLink (List VoteFrame)
  timer      : Option Nat
  last       : Option Decision
  agreedBase : Bool
  permitted  : Bool
  level      : Bool
  closedSet  : List SigEntry
  deciding   : Option Deciding
deriving DecidableEq, Repr

/-- Phase of a pull (R140). -/
inductive PullPhase where
  | idle | receiving | completing
deriving DecidableEq, Repr

/-- A full block buffer (R140): its number, 0 to 7, and the block it holds. -/
structure Buffer where
  slot  : Nat
  block : Nat
  words : List Word
deriving DecidableEq, Repr

/-- The pull record (R140). The kind and the server stand until the next pull starts (R158). Buffers are in the order their
blocks were taken. `ending` is the PULL_END taken. -/
structure Pull where
  phase     : PullPhase
  kind      : Option PullKind
  server    : Option Link
  target    : BitVec 32
  regionSet : BitVec 16
  buffers   : List Buffer
  received  : Nat
  timer     : Option Nat
  clean     : BitVec 16
  attempts  : Nat
  ending    : Option PullEndFrame
deriving DecidableEq, Repr

/-- Phase of a service (R151). -/
inductive ServicePhase where
  | idle | sending | walking | resending | finishing
deriving DecidableEq, Repr

/-- A block number, or the end of the walk (R151). -/
inductive WalkPos where
  | block (b : Nat) | finished
deriving DecidableEq, Repr

/-- The service record (R151). Kind, requester and walk position stand until the next service starts (R158). `repair` holds
the repair blocks of the PULL; `tried` and `waiting` are the RESENDING server's findings of unavailable blocks (R156). -/
structure Service where
  phase     : ServicePhase
  requester : Option Link
  kind      : Option PullKind
  regionSet : BitVec 16
  repair    : List Nat
  sendPos   : Nat
  walkPos   : Option WalkPos
  credits   : Nat
  sent      : Nat
  timer     : Option Nat
  tried     : List Nat
  waiting   : Bool
deriving DecidableEq, Repr

/-- RSE: its two roles. -/
structure Rse where
  pull    : Pull
  service : Service
deriving DecidableEq, Repr

/-- Reason of an access refusal (R20, R26, 12.1). -/
inductive AccessReason where
  | notMapped | rights | phase | initBusy | restoring | mergeUnknown
deriving DecidableEq, Repr

/-- Reason of a LINK_ERROR (R108, R145, 12.1). -/
inductive LinkReason where
  | badCheck | badFrame | unexpectedBlock | noBuffer
deriving DecidableEq, Repr

/-- Cause of an ABANDONED event (R76); UNCORRECTABLE carries the region and the byte address. -/
inductive AbandonCause where
  | cycleLimit | uncorrectable (region addr : Nat) | repairPending | command
deriving DecidableEq, Repr

/-- Cause of a PERMIT_DROPPED event (R137); SUSPECT carries the region, OUTCOME the outcome where it is known. -/
inductive PermitCause where
  | suspect (region : Nat) | abandon | outcome (o : Option VoteOutcome) | state | reset
deriving DecidableEq, Repr

/-- Cause of a failed pull (R150). -/
inductive PullCause where
  | pullTimeout | serverResult | mismatch | count
deriving DecidableEq, Repr

/-- Result of an OPERATION_DONE event (12.1). -/
inductive DoneResult where
  | done | ready | excluded
deriving DecidableEq, Repr

/-- The 19 kinds of event (11.6), each with the optional fields its records carry. -/
inductive EventBody where
  | accessRefused (reason : AccessReason) (ini : Initiator) (addr : Nat) (region : Option Nat) (repeats : Nat)
  | uncorrectable (region : Option Nat) (addr : Nat) (ini : Option Initiator)
  | signatureFault (region sig acc : Nat)
  | rollbackCheckFault (region sig closedValue : Nat)
  | journalOverflow (addr : Nat)
  | repairOverflow (region addr : Nat)
  | abandoned (cause : AbandonCause)
  | decision (outcome : VoteOutcome) (agreeing : BitVec 3) (cycle : BitVec 32)
  | permitDropped (cause : PermitCause)
  | peerState (peer : Nat) (heard matched : Bool)
  | late (peer : Nat) (cycle : BitVec 32)
  | linkError (peer : Nat) (reason : LinkReason) (addr : Option Nat)
  | pullStarted (peer : Nat) (kind : PullKind)
  | pullEnded (peer : Nat) (result : Option PullResult) (cause : Option PullCause) (received : Nat)
  | serviceStarted (peer : Nat) (kind : PullKind)
  | serviceEnded (peer : Nat) (result : PullResult)
  | operationDone (result : DoneResult) (addr : Option Nat)
  | commandOverrun
  | reset
deriving DecidableEq, Repr

/-- An event record (R178). -/
structure Record where
  seq   : BitVec 16
  time  : BitVec 32
  cycle : BitVec 32
  body  : EventBody
deriving DecidableEq, Repr

/-- The commands of the part (12.1), in the order of their codes. -/
inductive Command where
  | clearTable | loadRegion | loadSlots | setTiming | setQueue | initMemory | endConfig | openCycle | closeCycle
  | abandonCycle | restore | setPatrol | setAlertMask | readState | readRegion | readPeers | readEvents | reset
deriving DecidableEq, Repr

/-- Value of the response header's code (R170). -/
inductive Status where
  | idle | pending | done | accepted | refusedState | refusedBusy | badCheck | badLength | badField | unknownCommand
deriving DecidableEq, Repr

/-- The response header (R170, 12.2). -/
structure Header where
  status : Status
  detail : Nat
  tag    : Byte
  count  : Nat
deriving DecidableEq, Repr

/-- A taken command frame: the command buffer's copy (R168). -/
structure CmdFrame where
  cmd    : Command
  tag    : Byte
  params : List Word
deriving DecidableEq, Repr

/-- CMU. Request and response words not listed are 0; the response's word 0 is the header. -/
structure Cmu where
  request  : List (Nat × Word)
  header   : Header
  response : List (Nat × Word)
  buffer   : Option CmdFrame
  events   : List Record
  nextSeq  : BitVec 16
  dropped  : Nat
  mask     : BitVec 19
  alert    : Bool
  ms       : BitVec 32
deriving DecidableEq, Repr

/-- The four times of SET_TIMING, in ms (R162). -/
structure Times where
  cycleLimit  : Nat
  voteTimeout : Nat
  peerSilence : Nat
  pullSilence : Nat
deriving DecidableEq, Repr

/-- The start record (R165). Sets are bit masks. -/
structure StartRecord where
  fingerprint   : BitVec 16
  uncorrectable : Nat
  suspects      : List Nat
  peersHeard    : BitVec 3
  joinExcluded  : Bool
  time          : BitVec 32
deriving DecidableEq, Repr

/-- The whole part, with the queue of the commands that wait. -/
structure State where
  pending  : List Instr
  resetLow : Bool
  position : BitVec 2
  dev      : DeviceState
  times    : Times
  start    : Option StartRecord
  rgt      : Rgt
  ppt      : Ppt
  pwq      : Pwq
  mpu      : Mpu
  sgu      : Sgu
  cju      : Cju
  ptu      : Ptu
  lkc      : Lkc
  vtu      : Vtu
  rse      : Rse
  cmu      : Cmu
deriving DecidableEq, Repr

/-- The part stops with no fault: the book gives every event of its table an effect, so no meaning raises one. -/
inductive Fault where
deriving DecidableEq, Repr

/-- Why a command has no meaning. -/
inductive Refusal where
  /-- Raised by `exec` for a command whose meaning has not been written; safe: the model stops. -/
  | notModelled (mnemonic : String)
deriving DecidableEq, Repr

/-- What a word of the array reads as when nothing lists it: zero, GOOD (R41 gives no content after power-on; DESIGN
CHOICE, notes/assumptions/1). -/
def StoredWord.unlisted : StoredWord := ⟨0, 0, .good, 0⟩

/-- Slot table after power-on (R48). -/
def Mpu.defaultSlots : List PortClass :=
  [.proc, .journal, .proc, .link, .proc, .patrol, .proc, .journal,
   .proc, .link, .proc, .setup, .proc, .journal, .proc, .patrol]

/-- The closed signature set after every reset (R68). -/
def Vtu.emptySet : List SigEntry := List.replicate Config.sigSlots ⟨.absent, 0⟩

/-- A peer record after every reset (R120). -/
def Peer.initial : Peer := ⟨false, false, none, none, .absent, 0, none⟩

/-- A transmitter after power-on (R120). -/
def Transmitter.initial : Transmitter := ⟨[], [], none, false⟩

/-- The pull record after power-on (R159). -/
def Pull.initial : Pull := ⟨.idle, none, none, 0, 0, [], 0, none, 0, 0, none⟩

/-- The service record after power-on (R159). -/
def Service.initial : Service := ⟨.idle, none, none, 0, [], 0, none, 0, 0, none, [], false⟩

/-- CJU after every reset (R91). -/
def Cju.initial : Cju := ⟨none, 0, [], [], [], false, [], false, [], false, none⟩

/-- VTU after every reset (R138, R68). -/
def Vtu.initial : Vtu := ⟨none, ⟨[], []⟩, none, none, false, false, false, Vtu.emptySet, none⟩

/-- SGU after every reset (R68). -/
def Sgu.initial : Sgu := ⟨List.replicate Config.sigSlots 0, none⟩

/-- CMU after power-on and pin reset (R181). -/
def Cmu.initial : Cmu := ⟨[], ⟨.idle, 0, 0, 0⟩, [], none, [], 0, 0, BitVec.allOnes 19, false, 0⟩

/-- The part after power-on, with the latched position and the content of the array (R167 and the tables of R15, R38, R53,
R68, R91, R105, R120, R138, R159, R181). -/
def State.afterPower (position : BitVec 2) (mem : List (Nat × StoredWord)) : State where
  pending  := []
  resetLow := false
  position := position
  dev      := .configuring
  times    := ⟨1000, 20, 50, 20⟩
  start    := none
  rgt      := ⟨[], 0⟩
  ppt      := ⟨[], ⟨none, none, none⟩⟩
  pwq      := ⟨[], false, 24, 8⟩
  mpu      := ⟨mem, Mpu.defaultSlots, 0, none, none⟩
  sgu      := Sgu.initial
  cju      := Cju.initial
  ptu      := ⟨true, 64, none, 0, false, none, false, false⟩
  lkc      := ⟨⟨Peer.initial, Peer.initial⟩, ⟨Transmitter.initial, Transmitter.initial⟩, true⟩
  vtu      := Vtu.initial
  rse      := ⟨Pull.initial, Service.initial⟩
  cmu      := Cmu.initial

/-- The part right after power-on. CH_POS and the array's content are not the part's own: position 0 and nothing listed
(DESIGN CHOICE, notes/assumptions/1 and 2). -/
def State.reset : State := State.afterPower 0 []

end Sys2Proof.Machine
end

