-- ==== Sys2Proof/Machine/Assoc.lean ====
section
/-! DEFINITION. Lists keyed by a number, keys strictly rising: the array, the region table, the aperture's words, and the sets
of blocks that carry a mark. -/

namespace Sys2Proof.Machine

open Sys2Proof

/-- The value listed under a key. -/
def assocFind {α : Type} : List (Nat × α) → Nat → Option α
  | [], _ => none
  | (k, v) :: rest, a => if k = a then some v else assocFind rest a

/-- List a value under a key, in place of the one listed there. -/
def assocInsert {α : Type} : List (Nat × α) → Nat → α → List (Nat × α)
  | [], a, v => [(a, v)]
  | (k, w) :: rest, a, v =>
    if a < k then (a, v) :: (k, w) :: rest
    else if a = k then (a, v) :: rest
    else (k, w) :: assocInsert rest a v

/-- List nothing under a key. -/
def assocErase {α : Type} : List (Nat × α) → Nat → List (Nat × α)
  | [], _ => []
  | (k, v) :: rest, a => if k = a then assocErase rest a else (k, v) :: assocErase rest a

/-- Change the value listed under a key. -/
def assocModify {α : Type} (l : List (Nat × α)) (a : Nat) (f : α → α) : List (Nat × α) :=
  l.map (fun e => if e.1 = a then (e.1, f e.2) else e)

/-- Every key is at or above `low`, and each key above the one before it. -/
def assocRising {α : Type} : Nat → List (Nat × α) → Bool
  | _, [] => true
  | low, (k, _) :: rest => low ≤ k && assocRising (k + 1) rest

/-- The value under a key of a list in which a key not listed stands for `d`. -/
def assocGet {α : Type} (d : α) (l : List (Nat × α)) (a : Nat) : α := (assocFind l a).getD d

/-- Put a value under a key of such a list: a value equal to `d` is not listed. -/
def assocPut {α : Type} [DecidableEq α] (d : α) (l : List (Nat × α)) (a : Nat) (v : α) : List (Nat × α) :=
  if v = d then assocErase l a else assocInsert l a v

/-- Add a number to a rising list of numbers. -/
def setInsert : List Nat → Nat → List Nat
  | [], a => [a]
  | k :: rest, a => if a < k then a :: k :: rest else if a = k then k :: rest else k :: setInsert rest a

/-- Take a number out of a rising list of numbers. -/
def setErase (l : List Nat) (a : Nat) : List Nat := l.filter (fun k => k != a)

/-- Add every number of the second list to the first. -/
def setUnion (l add : List Nat) : List Nat := add.foldl setInsert l

/-- The lowest number of a list that is at or above `low`. -/
def lowestFrom (low : Nat) : List Nat → Option Nat
  | [] => none
  | k :: rest =>
    match lowestFrom low rest with
    | none => if low ≤ k then some k else none
    | some m => if low ≤ k ∧ k < m then some k else some m

/-- Get one of the two. -/
def PerLink.get {α : Type} (p : PerLink α) : Link → α
  | .one => p.one
  | .two => p.two

/-- Put one of the two. -/
def PerLink.put {α : Type} (p : PerLink α) (l : Link) (a : α) : PerLink α :=
  match l with
  | .one => { p with one := a }
  | .two => { p with two := a }

/-- Get one of the three. -/
def PerInitiator.get {α : Type} (p : PerInitiator α) : Initiator → α
  | .data => p.data
  | .fetch => p.fetch
  | .dma => p.dma

/-- Put one of the three. -/
def PerInitiator.put {α : Type} (p : PerInitiator α) (i : Initiator) (a : α) : PerInitiator α :=
  match i with
  | .data => { p with data := a }
  | .fetch => { p with fetch := a }
  | .dma => { p with dma := a }

end Sys2Proof.Machine
end

