-- ==== Sys2Proof/Machine/Bits.lean ====
section
/-! DEFINITION. Bytes of a word, byte enables, fields of a word, and the CRC-16 (R183). -/

namespace Sys2Proof.Machine

open Sys2Proof

/-- One bit of the CRC-16: polynomial x^16 + x^12 + x^5 + 1. -/
def crcBit (c : BitVec 16) (bit : Bool) : BitVec 16 :=
  if c.getLsbD 15 != bit then (c <<< 1) ^^^ 0x1021 else c <<< 1

/-- One byte, most significant bit first. -/
def crcByte (c : BitVec 16) (b : Byte) : BitVec 16 :=
  [7, 6, 5, 4, 3, 2, 1, 0].foldl (fun c i => crcBit c (b.getLsbD i)) c

/-- The CRC-16 of R183: the register starts at FFFFh and is taken without inversion. -/
def crc16 (bytes : List Byte) : BitVec 16 := bytes.foldl crcByte 0xFFFF

/-- A word as four bytes, most significant first. -/
def wordBytes (w : Word) : List Byte :=
  [w.extractLsb' 24 8, w.extractLsb' 16 8, w.extractLsb' 8 8, w.extractLsb' 0 8]

/-- A half word as two bytes, most significant first. -/
def halfBytes (h : BitVec 16) : List Byte := [h.extractLsb' 8 8, h.extractLsb' 0 8]

/-- Words as bytes. -/
def wordsBytes : List Word → List Byte
  | [] => []
  | w :: ws => wordBytes w ++ wordsBytes ws

/-- Four bytes as a word, most significant first. -/
def wordOf (a b c d : Byte) : Word := a ++ b ++ c ++ d

/-- Two bytes as a half word, most significant first. -/
def halfOf (a b : Byte) : BitVec 16 := a ++ b

/-- Byte lane k of a word: bits 8k to 8k + 7 (notes/assumptions/33). -/
def laneMask (be : BitVec 4) (k : Nat) : Word :=
  if be.getLsbD k then (0xFF : Word) <<< (8 * k) else 0

/-- The bits of a word that the byte enables select. -/
def enableMask (be : BitVec 4) : Word := laneMask be 0 ||| laneMask be 1 ||| laneMask be 2 ||| laneMask be 3

/-- The bytes of `new` whose enables are set, the other bytes of `old` (R19, R26). -/
def mergeBytes (be : BitVec 4) (old new : Word) : Word :=
  (new &&& enableMask be) ||| (old &&& ~~~ enableMask be)

/-- How many bits of an error pattern are set. -/
def countBits (f : BitVec 40) : Nat := (List.range 40).countP (fun i => f.getLsbD i)

/-- A word put together from numbers at bit positions; the fields do not overlap. -/
def packWord : List (Nat × Nat) → Word
  | [] => 0
  | (value, shift) :: rest => (BitVec.ofNat 32 value <<< shift) ||| packWord rest

/-- A flag as a number. -/
def bit (b : Bool) : Nat := if b then 1 else 0

/-- The bits of a word from `low`, `width` of them, as a number. -/
def fieldOf (w : Word) (low width : Nat) : Nat := (w.toNat / 2 ^ low) % 2 ^ width

/-- A bit mask with bit k set for each k of the list (R182). -/
def maskOf (ks : List Nat) : Word := ks.foldl (fun m k => m ||| ((1 : Word) <<< k)) 0

/-- Add one, stopping at a maximum (scope, Counters). -/
def satInc (max n : Nat) : Nat := if n < max then n + 1 else n

end Sys2Proof.Machine
end

