-- ==== Sys2Proof/Machine/CheckCode.lean ====
section
/-! DEFINITION. The stored word, its check code and the array (R39 to R41). -/

namespace Sys2Proof.Machine

open Sys2Proof

/-- What the check code sees of a word (R40). -/
inductive Condition where
  | good | correctable | uncorrectable
deriving DecidableEq, Repr

/-- A condition and the data value that goes to the requester with it (R40). -/
structure Checked where
  cond  : Condition
  value : Word
deriving DecidableEq, Repr

/-- A word as the MPU stores it, with fresh check bits (R39); the value becomes its stored value (R58). -/
def freshWord (v : Word) : StoredWord := ⟨v, 0, .good, v⟩

/-- The data bits as they stand in the array. -/
def storedRaw (w : StoredWord) : Word := w.written ^^^ w.flips.extractLsb' 0 32

/-- A 40-bit pattern with one bit set, its data part. -/
def oneDataBit (b : Fin 40) : Word := ((1 : BitVec 40) <<< b.val).extractLsb' 0 32

/-- The check of R40: no bit in error GOOD, one bit CORRECTABLE with the data as written, two bits UNCORRECTABLE with the raw
data bits; three or more as the pattern's verdict says. -/
def checkWord (w : StoredWord) : Checked :=
  match countBits w.flips with
  | 0 => ⟨.good, w.written⟩
  | 1 => ⟨.correctable, w.written⟩
  | 2 => ⟨.uncorrectable, storedRaw w⟩
  | _ =>
    match w.verdict with
    | .good => ⟨.good, storedRaw w⟩
    | .correctable b => ⟨.correctable, storedRaw w ^^^ oneDataBit b⟩
    | .uncorrectable => ⟨.uncorrectable, storedRaw w⟩

/-- The verdict stands only where three or more bits are in error. -/
def normalWord (w : StoredWord) : StoredWord :=
  if countBits w.flips < 3 then { w with verdict := .good } else w

/-- Disturb bits of a word: its stored value stays (R57). -/
def disturb (w : StoredWord) (flips : BitVec 40) (verdict : Verdict) : StoredWord :=
  if flips = 0 then w else normalWord { w with flips := w.flips ^^^ flips, verdict := verdict }

/-- The stored word at a word address. -/
def memGet (m : List (Nat × StoredWord)) (a : Nat) : StoredWord := assocGet StoredWord.unlisted m a

/-- Put a stored word at a word address. The array has 1,048,576 words (R39): there is no other to write. -/
def memPut (m : List (Nat × StoredWord)) (a : Nat) (w : StoredWord) : List (Nat × StoredWord) :=
  if a < Config.words then assocPut StoredWord.unlisted m a (normalWord w) else m

/-- The canonical form of the array: word addresses strictly rising and inside the array, no entry equal to what an unlisted
word holds, every verdict in its place. -/
def Memory.wf (m : List (Nat × StoredWord)) : Bool :=
  assocRising 0 m &&
    m.all (fun e => e.1 < Config.words && e.2 != StoredWord.unlisted && normalWord e.2 == e.2)

/-- Any content, brought into canonical form. -/
def memOf (content : List (Nat × StoredWord)) : List (Nat × StoredWord) :=
  content.foldl (fun m e => memPut m e.1 e.2) []

/-- The word addresses of a block, in ascending order. -/
def blockWords (b : Nat) : List Nat := (List.range Config.blockWords).map (fun i => Config.blockWords * b + i)

end Sys2Proof.Machine
end

