-- ==== Sys2Proof/Machine/Codes.lean ====
section
/-! DEFINITION. The codes of the enumerated fields (12.1): a value's code is its position in its list, counting from 1, and
code 0 means the field is absent (R182). -/

namespace Sys2Proof.Machine

open Sys2Proof

/-- Code of a RegionKind (12.1). -/
def regionKindCode : RegionKind → Nat
  | .vital => 1
  | .code => 2
  | .plain => 3

/-- The RegionKind that a code names (12.1). -/
def regionKindOf : Nat → Option RegionKind
  | 1 => some .vital
  | 2 => some .code
  | 3 => some .plain
  | _ => none

/-- Code of a PortClass (12.1). -/
def portClassCode : PortClass → Nat
  | .proc => 1
  | .journal => 2
  | .patrol => 3
  | .link => 4
  | .setup => 5

/-- The PortClass that a code names (12.1). -/
def portClassOf : Nat → Option PortClass
  | 1 => some .proc
  | 2 => some .journal
  | 3 => some .patrol
  | 4 => some .link
  | 5 => some .setup
  | _ => none

/-- Code of a DeviceState (12.1). -/
def deviceStateCode : DeviceState → Nat
  | .configuring => 1
  | .signing => 2
  | .running => 3

/-- The DeviceState that a code names (12.1). -/
def deviceStateOf : Nat → Option DeviceState
  | 1 => some .configuring
  | 2 => some .signing
  | 3 => some .running
  | _ => none

/-- Code of a ChannelState (12.1). -/
def channelStateCode : ChannelState → Nat
  | .ready => 1
  | .opened => 2
  | .closing => 3
  | .voting => 4
  | .rollingBack => 5
  | .catchup => 6
  | .excluded => 7
  | .restoring => 8

/-- The ChannelState that a code names (12.1). -/
def channelStateOf : Nat → Option ChannelState
  | 1 => some .ready
  | 2 => some .opened
  | 3 => some .closing
  | 4 => some .voting
  | 5 => some .rollingBack
  | 6 => some .catchup
  | 7 => some .excluded
  | 8 => some .restoring
  | _ => none

/-- Code of a RegionState (12.1). -/
def regionStateCode : RegionState → Nat
  | .normal => 1
  | .suspectLocated => 2
  | .suspectUnlocated => 3

/-- Code of a Initiator (12.1). -/
def initiatorCode : Initiator → Nat
  | .data => 1
  | .fetch => 2
  | .dma => 3

/-- Code of a VoteOutcome (12.1). -/
def voteOutcomeCode : VoteOutcome → Nat
  | .member3 => 1
  | .member2 => 2
  | .collectiveAbandon => 3
  | .outvoted => 4
  | .excluded => 5
  | .noQuorum => 6

/-- The VoteOutcome that a code names (12.1). -/
def voteOutcomeOf : Nat → Option VoteOutcome
  | 1 => some .member3
  | 2 => some .member2
  | 3 => some .collectiveAbandon
  | 4 => some .outvoted
  | 5 => some .excluded
  | 6 => some .noQuorum
  | _ => none

/-- Code of a VoteKind (12.1). -/
def voteKindCode : VoteKind → Nat
  | .closed => 1
  | .abandoned => 2

/-- The VoteKind that a code names (12.1). -/
def voteKindOf : Nat → Option VoteKind
  | 1 => some .closed
  | 2 => some .abandoned
  | _ => none

/-- Code of a PullKind (12.1). -/
def pullKindCode : PullKind → Nat
  | .delta => 1
  | .full => 2

/-- The PullKind that a code names (12.1). -/
def pullKindOf : Nat → Option PullKind
  | 1 => some .delta
  | 2 => some .full
  | _ => none

/-- Code of a View (12.1). -/
def viewCode : View → Nat
  | .member => 1
  | .dissent => 2
  | .absent => 3
  | .abandoned => 4

/-- Code of a PullPhase (12.1). -/
def pullPhaseCode : PullPhase → Nat
  | .idle => 1
  | .receiving => 2
  | .completing => 3

/-- Code of a ServicePhase (12.1). -/
def servicePhaseCode : ServicePhase → Nat
  | .idle => 1
  | .sending => 2
  | .walking => 3
  | .resending => 4
  | .finishing => 5

/-- Code of a PullResult (12.1). -/
def pullResultCode : PullResult → Nat
  | .done => 1
  | .stale => 2
  | .busy => 3
  | .notMember => 4
  | .badRequest => 5
  | .serverLost => 6
  | .aborted => 7

/-- The PullResult that a code names (12.1). -/
def pullResultOf : Nat → Option PullResult
  | 1 => some .done
  | 2 => some .stale
  | 3 => some .busy
  | 4 => some .notMember
  | 5 => some .badRequest
  | 6 => some .serverLost
  | 7 => some .aborted
  | _ => none

/-- Code of a AccessReason (12.1). -/
def accessReasonCode : AccessReason → Nat
  | .notMapped => 1
  | .rights => 2
  | .phase => 3
  | .initBusy => 4
  | .restoring => 5
  | .mergeUnknown => 6

/-- Code of a DoneResult (12.1). -/
def doneResultCode : DoneResult → Nat
  | .done => 1
  | .ready => 2
  | .excluded => 3

/-- Code of a PullCause (12.1). -/
def pullCauseCode : PullCause → Nat
  | .pullTimeout => 1
  | .serverResult => 2
  | .mismatch => 3
  | .count => 4

/-- Code of a Command (12.1). -/
def commandCode : Command → Nat
  | .clearTable => 1
  | .loadRegion => 2
  | .loadSlots => 3
  | .setTiming => 4
  | .setQueue => 5
  | .initMemory => 6
  | .endConfig => 7
  | .openCycle => 8
  | .closeCycle => 9
  | .abandonCycle => 10
  | .restore => 11
  | .setPatrol => 12
  | .setAlertMask => 13
  | .readState => 14
  | .readRegion => 15
  | .readPeers => 16
  | .readEvents => 17
  | .reset => 18

/-- The Command that a code names (12.1). -/
def commandOf : Nat → Option Command
  | 1 => some .clearTable
  | 2 => some .loadRegion
  | 3 => some .loadSlots
  | 4 => some .setTiming
  | 5 => some .setQueue
  | 6 => some .initMemory
  | 7 => some .endConfig
  | 8 => some .openCycle
  | 9 => some .closeCycle
  | 10 => some .abandonCycle
  | 11 => some .restore
  | 12 => some .setPatrol
  | 13 => some .setAlertMask
  | 14 => some .readState
  | 15 => some .readRegion
  | 16 => some .readPeers
  | 17 => some .readEvents
  | 18 => some .reset
  | _ => none

/-- Code of a field that may be absent: 0 when it is (R182). -/
def optCode {α : Type} (code : α → Nat) : Option α → Nat
  | some a => code a
  | none => 0

/-- Code of a link error reason; it follows the access reasons in the list of reasons (12.1). -/
def linkReasonCode : LinkReason → Nat
  | .badCheck => 7
  | .badFrame => 8
  | .unexpectedBlock => 9
  | .noBuffer => 10

/-- Code of the cause of an ABANDONED event (12.1). -/
def abandonCauseCode : AbandonCause → Nat
  | .cycleLimit => 1
  | .uncorrectable _ _ => 2
  | .repairPending => 3
  | .command => 4

/-- Code of the cause of a PERMIT_DROPPED event (12.1). -/
def permitCauseCode : PermitCause → Nat
  | .suspect _ => 1
  | .abandon => 2
  | .outcome _ => 3
  | .state => 4
  | .reset => 5

/-- Code of a response header (12.1; IDLE is 0). -/
def statusCode : Status → Nat
  | .idle => 0
  | .pending => 1
  | .done => 2
  | .accepted => 3
  | .refusedState => 4
  | .refusedBusy => 5
  | .badCheck => 6
  | .badLength => 7
  | .badField => 8
  | .unknownCommand => 9

/-- The subcodes of REFUSED_STATE (11.2), in the order of their table. -/
inductive Subcode where
  | tableFrozen | notConfiguring | notRunning | notDecided | notOpen | needsRestore | restoreActive | noServer
  | notNeeded | badPosition | noVitalRegion
deriving DecidableEq, Repr

/-- Code of a subcode (12.1). -/
def subcodeCode : Subcode → Nat
  | .tableFrozen => 1
  | .notConfiguring => 2
  | .notRunning => 3
  | .notDecided => 4
  | .notOpen => 5
  | .needsRestore => 6
  | .restoreActive => 7
  | .noServer => 8
  | .notNeeded => 9
  | .badPosition => 10
  | .noVitalRegion => 11

/-- Flag code of a signature entry in the flag word of an entry set (12.1). -/
def entryFlagCode : EntryFlag → Nat
  | .absent => 0
  | .valid => 1
  | .suspect => 2
  | .reserved => 3

/-- The flag that a two-bit code names (12.1, R182). -/
def entryFlagOf (n : Nat) : EntryFlag :=
  match n % 4 with
  | 0 => .absent
  | 1 => .valid
  | 2 => .suspect
  | _ => .reserved

/-- Kind code of an event (11.6, 12.1): ACCESS_REFUSED 1 to RESET 19. -/
def eventKind : EventBody → Nat
  | .accessRefused _ _ _ _ _ => 1
  | .uncorrectable _ _ _ => 2
  | .signatureFault _ _ _ => 3
  | .rollbackCheckFault _ _ _ => 4
  | .journalOverflow _ => 5
  | .repairOverflow _ _ => 6
  | .abandoned _ => 7
  | .decision _ _ _ => 8
  | .permitDropped _ => 9
  | .peerState _ _ _ => 10
  | .late _ _ => 11
  | .linkError _ _ _ => 12
  | .pullStarted _ _ => 13
  | .pullEnded _ _ _ _ => 14
  | .serviceStarted _ _ => 15
  | .serviceEnded _ _ => 16
  | .operationDone _ _ => 17
  | .commandOverrun => 18
  | .reset => 19

end Sys2Proof.Machine
end

