-- ==== Sys2Proof/Machine/Flags.lean ====
section
/-! DEFINITION. The flags and lines that other operations set: the event queue with ALERT, PERMIT, and the states whose
change queues a HELLO. -/

namespace Sys2Proof.Machine

open Sys2Proof

/-- The vote cycle v, one above the last closed cycle c (R70). -/
def voteCycle (s : State) : BitVec 32 := s.cju.cycle + 1

/-! ### Events and ALERT -/

/-- ALERT looks at an event of this kind: its mask flag is set, or it is a PERMIT_DROPPED (R180). -/
def alerts (mask : BitVec 19) (b : EventBody) : Bool := eventKind b == 9 || mask.getLsbD (eventKind b - 1)

/-- The level of ALERT (R180). -/
def alertLevel (events : List Record) (mask : BitVec 19) : Bool :=
  events.length == Config.eventMax || events.any (fun r => alerts mask r.body)

/-- Test the condition of ALERT again (R180). -/
def Cmu.retest (c : Cmu) : Cmu := { c with alert := alertLevel c.events c.mask }

/-- Record an event: the next sequence number is used, and the record is appended or, in a full queue, dropped and
counted (R177, R178). -/
def Cmu.record (c : Cmu) (cycle : BitVec 32) (body : EventBody) : Cmu :=
  if c.events.length < Config.eventMax then
    Cmu.retest { c with events := c.events ++ [⟨c.nextSeq, c.ms, cycle, body⟩], nextSeq := c.nextSeq + 1 }
  else { c with nextSeq := c.nextSeq + 1, dropped := satInc Config.count16Max c.dropped }

/-- Record an event (R177). -/
def recordEvent (body : EventBody) (s : State) : State := { s with cmu := s.cmu.record (voteCycle s) body }

/-- The event with its repeat count one higher, where it is an ACCESS_REFUSED with this reason, initiator and region
(R23). -/
def repeated (reason : AccessReason) (ini : Initiator) (region : Option Nat) (b : EventBody) : Option EventBody :=
  match b with
  | .accessRefused reason' ini' addr region' n =>
    if reason' = reason ∧ ini' = ini ∧ region' = region then some (.accessRefused reason ini addr region (satInc 255 n))
    else none
  | _ => none

/-- Record an ACCESS_REFUSED event, or extend the newest record of the queue (R23). An event that a full queue has dropped in
between is no record, and the newest one is extended (notes/assumptions/38). -/
def recordRefusal (reason : AccessReason) (ini : Initiator) (addr : Nat) (region : Option Nat) (s : State) : State :=
  match s.cmu.events.getLast? with
  | some r =>
    match repeated reason ini region r.body with
    | some b => { s with cmu.events := s.cmu.events.dropLast ++ [{ r with body := b }] }
    | none => recordEvent (.accessRefused reason ini addr region 0) s
  | none => recordEvent (.accessRefused reason ini addr region 0) s

/-! ### PERMIT -/

/-- The channel states in which PERMIT may toggle (R136). -/
def permitState (c : Option ChannelState) : Bool :=
  match c with
  | some .ready => true
  | some .opened => true
  | some .closing => true
  | some .voting => true
  | _ => false

/-- A cause of R137 arises: permitted becomes off and PERMIT low, with an event if permitted was on. -/
def dropPermit (cause : PermitCause) (s : State) : State :=
  if s.vtu.permitted then
    recordEvent (.permitDropped cause) { s with vtu := { s.vtu with permitted := false, level := false } }
  else s

/-- permitted becomes on: PERMIT goes high at once if it was off (R136). -/
def raisePermit (s : State) : State :=
  if s.vtu.permitted then s else { s with vtu := { s.vtu with permitted := true, level := true } }

/-! ### Transmit queues -/

/-- Kind of a waiting control frame, as its kind byte (12.5). -/
def ctrlKind : CtrlFrame → Nat
  | .hello => 1
  | .vote _ => 2
  | .pull _ => 3
  | .credit _ => 5
  | .pullEnd _ => 6

/-- What a waiting frame becomes when a frame of its kind is queued (R115). -/
def mergeCtrl (waiting new : CtrlFrame) : CtrlFrame :=
  match waiting, new with
  | .credit a, .credit b => .credit (min Config.creditMax (a + b))
  | _, n => n

/-- Queue a control frame: at most one of each kind waits, and a frame changed in place keeps its place (R115). -/
def queueCtrl (f : CtrlFrame) : List CtrlFrame → List CtrlFrame
  | [] => [f]
  | g :: rest => if ctrlKind g = ctrlKind f then mergeCtrl g f :: rest else g :: queueCtrl f rest

/-- Change the transmitter of a link. -/
def modifyTx (l : Link) (f : Transmitter → Transmitter) (s : State) : State :=
  { s with lkc.tx := s.lkc.tx.put l (f (s.lkc.tx.get l)) }

/-- Queue a control frame on a link; a part at position 3 sends none (R106). -/
def sendCtrl (f : CtrlFrame) (l : Link) (s : State) : State :=
  if s.position = 3 then s else modifyTx l (fun t => { t with ctrl := queueCtrl f t.ctrl }) s

/-- Queue a control frame on both links, whatever the match of their peers (R111, R119; notes/assumptions/41). -/
def sendBoth (f : CtrlFrame) (s : State) : State := sendCtrl f .two (sendCtrl f .one s)

/-- The HELLO trigger (R114). -/
def helloTrigger (s : State) : State := sendBoth .hello s

/-! ### States that every peer hears of -/

/-- The device state takes a value (R160). -/
def setDev (d : DeviceState) (s : State) : State :=
  if s.dev = d then s else helloTrigger { s with dev := d }

/-- The channel state takes a value (R69). Leaving the states of R136 drops PERMIT with cause STATE, unless a cause named
before it in R137 has done so. -/
def setChan (c : Option ChannelState) (s : State) : State :=
  if s.cju.chan = c then s
  else
    let t := helloTrigger { s with cju.chan := c }
    if permitState c then t else dropPermit .state t

/-- The agreed-base flag takes a value (R135). -/
def setAgreed (b : Bool) (s : State) : State :=
  if s.vtu.agreedBase = b then s else helloTrigger { s with vtu.agreedBase := b }

/-- On each entry into READY the journal is emptied, the W_CUR marks and UNREVERTIBLE cleared (R87). -/
def emptyJournal (s : State) : State :=
  { s with cju := { s.cju with wCur := [], journal := [], unrevertible := false } }

/-- The channel enters READY (R87). -/
def enterReady (s : State) : State := setChan (some .ready) (emptyJournal s)

/-! ### Positions -/

/-- The channel position a link leads to (R106). -/
def peerPosition (position : BitVec 2) (l : Link) : Nat :=
  match l with
  | .one => (position.toNat + 1) % 3
  | .two => (position.toNat + 2) % 3

/-- The fingerprint that the part's frames carry (R11). -/
def sentFingerprint (s : State) : BitVec 16 := if s.dev = .configuring then 0 else s.rgt.fingerprint

/-- A service is active (R151). -/
def serving (s : State) : Bool := s.rse.service.phase != .idle

/-- A pull is active (R140). -/
def pulling (s : State) : Bool := s.rse.pull.phase != .idle

end Sys2Proof.Machine
end

