-- ==== Sys2Proof/Machine/Operands.lean ====
section
/-! DEFINITION. The formats of chapter 12: entry sets, command and response frames, descriptor words, event records, the
answers of the read commands, and link frames byte by byte. -/

namespace Sys2Proof.Machine

open Sys2Proof

/-! ### Signature entry sets (12.1) -/

/-- The flag word: entry k's flag in bits 2k + 1 and 2k. -/
def flagWord (es : List SigEntry) : Word := packWord (es.zipIdx.map (fun e => (entryFlagCode e.1.flag, 2 * e.2)))

/-- The 17 words of an entry set. -/
def entrySetWords (es : List SigEntry) : List Word := flagWord es :: es.map (fun e => BitVec.ofNat 32 e.value)

/-- Entries of a set, from entry k on, whose flag word is `flags`. -/
def entriesOf (flags : Word) : Nat → List Word → List SigEntry
  | _, [] => []
  | k, w :: ws => ⟨entryFlagOf (fieldOf flags (2 * k) 2), w.toNat⟩ :: entriesOf flags (k + 1) ws

/-- An entry set from its 17 words. -/
def entrySetOf : List Word → List SigEntry
  | [] => []
  | flags :: ws => entriesOf flags 0 ws

/-! ### Command and response frames (12.2) -/

/-- The check word: the CRC-16 in the low half, zero in the high half (R183). -/
def frameCheck (ws : List Word) : Word := (crc16 (wordsBytes ws)).setWidth 32

/-- Word 0 of a command frame. -/
def commandHeader (cmd : Command) (tag : Byte) (l : Nat) : Word :=
  packWord [(commandCode cmd, 24), (tag.toNat, 16), (l, 8)]

/-- A command frame: word 0, the parameter words, the check word. -/
def commandFrame (cmd : Command) (tag : Byte) (params : List Word) : List Word :=
  let body := commandHeader cmd tag params.length :: params
  body ++ [frameCheck body]

/-- Write words at consecutive places of an area whose words not listed are 0. -/
def putWords (area : List (Nat × Word)) (at_ : Nat) : List Word → List (Nat × Word)
  | [] => area
  | w :: ws => putWords (assocPut 0 area at_ w) (at_ + 1) ws

/-- A word of such an area. -/
def areaWord (area : List (Nat × Word)) (i : Nat) : Word := assocGet 0 area i

/-- What the checks of a submitted frame find (R169, steps 1 and 2; R182 for bits 7:0 of word 0). -/
inductive Parsed where
  | badCheck
  | unknown (tag : Byte)
  | command (cmd : Command) (tag : Byte) (params : List Word)
deriving DecidableEq, Repr

/-- Read a frame from the request area. -/
def parseCommand (area : List (Nat × Word)) : Parsed :=
  let w := areaWord area 0
  let l := fieldOf w 8 8
  let body := (List.range (l + 1)).map (areaWord area)
  let tag : Byte := BitVec.ofNat 8 (fieldOf w 16 8)
  if l ≤ 253 ∧ areaWord area (l + 1) = frameCheck body then
    if fieldOf w 0 8 = 0 then
      match commandOf (fieldOf w 24 8) with
      | some cmd => .command cmd tag body.tail
      | none => .unknown tag
    else .unknown tag
  else .badCheck

/-- Word 0 of a response (12.2). -/
def headerWord (h : Header) : Word :=
  packWord [(statusCode h.status, 24), (h.detail, 16), (h.tag.toNat, 8), (h.count, 0)]

/-! ### Descriptors (R1, R2, R5, R6) -/

/-- A signed kind (R1). -/
def RegionKind.signed : RegionKind → Bool
  | .plain => false
  | _ => true

/-- A descriptor of a signed kind. -/
def Descriptor.signed (d : Descriptor) : Bool := d.kind.signed

/-- The block lies in the region (R1). -/
def Descriptor.covers (d : Descriptor) (block : Nat) : Bool := d.first ≤ block && block < d.first + d.count

/-- Two regions overlap (R6). -/
def Descriptor.overlaps (d e : Descriptor) : Bool := d.first < e.first + e.count && e.first < d.first + d.count

/-- The rights flags required and forbidden by a kind (R2), in the order of 12.1. -/
def rightsFit (k : RegionKind) (r : BitVec 6) : Bool :=
  match k with
  | .vital => r.getLsbD 0 && r.getLsbD 1 && !r.getLsbD 2 && !r.getLsbD 3 && !r.getLsbD 5
  | .code => !r.getLsbD 3 && !r.getLsbD 5
  | .plain => true

/-- Parameter word k of a command, counting from 1. -/
def param (ps : List Word) (k : Nat) : Nat := (ps.getD (k - 1) 0).toNat

/-- The descriptor that nine parameter words spell (R5). -/
def descriptorOf (ps : List Word) : Descriptor where
  kind := (regionKindOf (param ps 2)).getD .plain
  first := param ps 3
  count := param ps 4
  rights := BitVec.ofNat 6 (param ps 5)
  slot := param ps 6
  base := param ps 7
  mult := param ps 8
  patrol := param ps 9 == 1

/-- The nine parameter words of a descriptor (R5, R10). -/
def descriptorWords (index : Nat) (d : Descriptor) : List Word :=
  [index, regionKindCode d.kind, d.first, d.count, d.rights.toNat, d.slot, d.base, d.mult, bit d.patrol].map
    (BitVec.ofNat 32)

/-- A base term or multiplier (R1). -/
def factorFits (signed : Bool) (v : Nat) : Bool := if signed then 1 ≤ v && v ≤ Config.p - 1 else v == 0

/-- The first check of R6 that a LOAD_REGION fails, as the word it is reported at. -/
def regionFault (entries : List (Nat × Region)) (ps : List Word) : Option Nat :=
  let d := descriptorOf ps
  let others := entries.filter (fun e => e.1 != param ps 1)
  let slotFits := if d.signed then d.slot < Config.sigSlots && others.all (fun e => !e.2.desc.signed || e.2.desc.slot != d.slot)
    else d.slot == 0
  if ¬ param ps 1 < Config.regions then some 1
  else if regionKindOf (param ps 2) = none then some 2
  else if ¬ d.first < Config.blocks then some 3
  else if ¬ (1 ≤ d.count ∧ d.count ≤ Config.blocks ∧ d.first + d.count ≤ Config.blocks) then some 4
  else if others.any (fun e => e.2.desc.overlaps d) then some 3
  else if ¬ (param ps 5 < 64 ∧ rightsFit d.kind d.rights = true) then some 5
  else if slotFits = false then some 6
  else if factorFits d.signed d.base = false then some 7
  else if factorFits d.signed d.mult = false then some 8
  else if ¬ param ps 9 ≤ 1 then some 9
  else none

/-- The fingerprint over the loaded descriptors in ascending order of index (R10). -/
def fingerprintOf (entries : List (Nat × Region)) : BitVec 16 :=
  let c := crc16 (wordsBytes (entries.flatMap (fun e => descriptorWords e.1 e.2.desc)))
  if c = 0 then 1 else c

/-! ### Event records (12.4) -/

/-- The optional fields of an event record, in the order of their presence bits. -/
structure EventFields where
  region    : Option Nat := none
  addr      : Option Nat := none
  initiator : Option Nat := none
  reason    : Option Nat := none
  repeats   : Option Nat := none
  peer      : Option Nat := none
  outcome   : Option Nat := none
  agreeing  : Option Nat := none
  result    : Option Nat := none
  cause     : Option Nat := none
  first     : Option Nat := none
  second    : Option Nat := none
deriving DecidableEq, Repr

/-- The optional fields that each kind carries (11.6). -/
def eventFields : EventBody → EventFields
  | .accessRefused reason ini addr region n =>
    { region := region, addr := some addr, initiator := some (initiatorCode ini),
      reason := some (accessReasonCode reason), repeats := some n }
  | .uncorrectable region addr ini => { region := region, addr := some addr, initiator := ini.map initiatorCode }
  | .signatureFault region sig acc => { region := some region, first := some sig, second := some acc }
  | .rollbackCheckFault region sig v => { region := some region, first := some sig, second := some v }
  | .journalOverflow addr => { addr := some addr }
  | .repairOverflow region addr => { region := some region, addr := some addr }
  | .abandoned cause =>
    match cause with
    | .uncorrectable region addr =>
      { region := some region, addr := some addr, cause := some (abandonCauseCode cause) }
    | _ => { cause := some (abandonCauseCode cause) }
  | .decision outcome agreeing cycle =>
    { outcome := some (voteOutcomeCode outcome), agreeing := some agreeing.toNat, first := some cycle.toNat }
  | .permitDropped cause =>
    match cause with
    | .suspect region => { region := some region, cause := some (permitCauseCode cause) }
    | .outcome o => { outcome := o.map voteOutcomeCode, cause := some (permitCauseCode cause) }
    | _ => { cause := some (permitCauseCode cause) }
  | .peerState peer heard matched => { peer := some peer, result := some (bit heard + 2 * bit matched) }
  | .late peer cycle => { peer := some peer, first := some cycle.toNat }
  | .linkError peer reason addr => { peer := some peer, reason := some (linkReasonCode reason), addr := addr }
  | .pullStarted peer kind => { peer := some peer, reason := some (pullKindCode kind) }
  | .pullEnded peer result cause received =>
    { peer := some peer, result := result.map pullResultCode, cause := cause.map pullCauseCode, first := some received }
  | .serviceStarted peer kind => { peer := some peer, reason := some (pullKindCode kind) }
  | .serviceEnded peer result => { peer := some peer, result := some (pullResultCode result) }
  | .operationDone result addr => { result := some (doneResultCode result), addr := addr }
  | .commandOverrun => {}
  | .reset => {}

/-- The presence bits of word 3. -/
def EventFields.presence (f : EventFields) : Nat :=
  bit f.region.isSome + 2 * bit f.addr.isSome + 4 * bit f.initiator.isSome + 8 * bit f.reason.isSome +
  16 * bit f.repeats.isSome + 32 * bit f.peer.isSome + 64 * bit f.outcome.isSome + 128 * bit f.agreeing.isSome +
  256 * bit f.result.isSome + 512 * bit f.cause.isSome + 1024 * bit f.first.isSome + 2048 * bit f.second.isSome

/-- A field that is absent is written as 0 (R182). -/
def orZero (o : Option Nat) : Nat := o.getD 0

/-- The nine words of an event record. -/
def recordWords (r : Record) : List Word :=
  let f := eventFields r.body
  [packWord [(r.seq.toNat, 0), (eventKind r.body, 16), (orZero f.repeats, 24)],
   r.time,
   r.cycle,
   BitVec.ofNat 32 f.presence,
   packWord [(orZero f.region, 0), (orZero f.initiator, 8), (orZero f.peer, 16), (orZero f.reason, 24)],
   BitVec.ofNat 32 (orZero f.addr),
   packWord [(orZero f.outcome, 0), (orZero f.agreeing, 8), (orZero f.result, 16), (orZero f.cause, 24)],
   BitVec.ofNat 32 (orZero f.first),
   BitVec.ofNat 32 (orZero f.second)]

/-! ### Answers of the read commands (12.2, 12.3) -/

/-- The walk position as READ_STATE carries it: end as 65,536 (12.3). -/
def walkNumber : WalkPos → Nat
  | .block b => b
  | .finished => Config.blocks

/-- The channel position of a link's peer, where there is a link. -/
def optPosition (position : BitVec 2) (l : Option Link) : Nat := (l.map (peerPosition position)).getD 0

/-- The 25 words of the state record (12.3, R172). -/
def stateWords (s : State) : List Word :=
  let last : Decision := s.vtu.last.getD ⟨.member3, 0, 0, 0⟩
  let start : StartRecord := s.start.getD ⟨0, 0, [], 0, false, 0⟩
  let pull := s.rse.pull
  let service := s.rse.service
  [BitVec.ofNat 32 (bit s.cju.chan.isSome + 2 * bit s.vtu.last.isSome + 4 * bit s.ptu.position.isSome +
     8 * bit s.start.isSome + 16 * bit pull.kind.isSome + 32 * bit service.kind.isSome),
   packWord [(deviceStateCode s.dev, 0), (optCode channelStateCode s.cju.chan, 8), (s.position.toNat, 16),
     (bit s.vtu.permitted, 24), (bit s.vtu.agreedBase, 25)],
   s.rgt.fingerprint.setWidth 32,
   s.cju.cycle,
   voteCycle s,
   packWord [(optCode voteOutcomeCode (s.vtu.last.map Decision.outcome), 0), (last.agreeing.toNat, 8)],
   last.cycle,
   last.time,
   packWord [(s.cju.journal.length, 0), (s.cju.repair.length, 16), (bit s.cju.unrevertible, 24),
     (bit s.cju.repairOverflow, 25), (bit s.cju.wPrevValid, 26)],
   BitVec.ofNat 32 s.cju.wCur.length,
   packWord [(s.pwq.entries.length, 0), (s.pwq.upper, 8), (s.pwq.lower, 16), (bit s.pwq.hold, 24)],
   packWord [(s.ptu.interval, 0), (bit s.ptu.enable, 16)],
   BitVec.ofNat 32 (orZero s.ptu.position),
   packWord [(pullPhaseCode pull.phase, 0), (optCode pullKindCode pull.kind, 8), (optPosition s.position pull.server, 16),
     (pull.attempts, 24)],
   BitVec.ofNat 32 pull.received,
   packWord [(servicePhaseCode service.phase, 0), (optCode pullKindCode service.kind, 8),
     (optPosition s.position service.requester, 16), (service.credits, 24)],
   BitVec.ofNat 32 service.sent,
   BitVec.ofNat 32 (orZero (service.walkPos.map walkNumber)),
   BitVec.ofNat 32 s.cmu.events.length,
   packWord [(s.cmu.dropped, 0), (s.cmu.nextSeq.toNat, 16)],
   packWord [(start.fingerprint.toNat, 0), (start.uncorrectable, 16)],
   maskOf start.suspects,
   packWord [(start.peersHeard.toNat, 0), (if s.start.isSome then (if start.joinExcluded then 3 else 2) else 0, 8)],
   start.time,
   s.cmu.ms]

/-- The 14 words of READ_REGION (12.2, R16, R173). -/
def regionWords (s : State) (index : Nat) : List Word :=
  match assocFind s.rgt.entries index with
  | none => List.replicate 9 0 ++ [packWord [(regionStateCode .normal, 8)], 0, 0, 0, 0]
  | some r =>
    let signed := r.desc.signed
    let entry : SigEntry := if signed then s.vtu.closedSet.getD r.desc.slot ⟨.absent, 0⟩ else ⟨.absent, 0⟩
    descriptorWords index r.desc ++
      [packWord [(1, 0), (bit signed, 1), (regionStateCode r.state, 8)],
       packWord [(r.corrected, 0), (r.uncorrectable, 16)],
       BitVec.ofNat 32 (if signed then s.sgu.sigs.getD r.desc.slot 0 else 0),
       BitVec.ofNat 32 (entryFlagCode entry.flag),
       BitVec.ofNat 32 entry.value]

/-- The seven words of one peer record (12.2, R174). -/
def peerWords (position : BitVec 2) (l : Link) (p : Peer) : List Word :=
  let hello : HelloFields :=
    match p.hello with
    | some h => h.fields
    | none => ⟨.configuring, none, 0, false, false, none⟩
  [packWord [(peerPosition position l, 0), (bit p.heard, 8), (bit p.matched, 9), (viewCode p.view, 16),
     (bit p.hello.isSome, 24), (bit p.lastFrame.isSome, 25), (bit p.window.isSome, 26)],
   BitVec.ofNat 32 p.errors,
   p.lastFrame.getD 0,
   BitVec.ofNat 32 (orZero p.window),
   packWord [(if p.hello.isSome then deviceStateCode hello.dev else 0, 0), (optCode channelStateCode hello.chan, 8),
     (bit hello.agreedBase, 16), (bit hello.serviceBusy, 17), (optCode voteOutcomeCode hello.lastOutcome, 24)],
   hello.cycle,
   match p.hello with
   | some h => h.fingerprint.setWidth 32
   | none => 0]

/-- The 14 words of READ_PEERS. -/
def peersWords (s : State) : List Word :=
  peerWords s.position .one s.lkc.peers.one ++ peerWords s.position .two s.lkc.peers.two

/-- The words of READ_EVENTS that return these records (12.2, R175). -/
def eventsWords (rs : List Record) (dropped : Nat) : List Word :=
  BitVec.ofNat 32 rs.length :: BitVec.ofNat 32 dropped :: rs.flatMap recordWords

/-! ### Link frames (12.5) -/

/-- Kind byte of a frame. -/
def frameKind : FrameBody → Nat
  | .hello _ => 1
  | .vote _ => 2
  | .pull _ => 3
  | .block _ => 4
  | .credit _ => 5
  | .pullEnd _ => 6

/-- A number as a byte. -/
def byteOf (n : Nat) : Byte := BitVec.ofNat 8 n

/-- The body between the header bytes and the check. -/
def bodyBytes : FrameBody → List Byte
  | .hello f =>
    [byteOf (deviceStateCode f.dev), byteOf (optCode channelStateCode f.chan)] ++ wordBytes f.cycle ++
      [byteOf (bit f.agreedBase + 2 * bit f.serviceBusy), byteOf (optCode voteOutcomeCode f.lastOutcome)]
  | .vote f => wordBytes f.cycle ++ byteOf (voteKindCode f.kind) :: wordsBytes (entrySetWords f.entries)
  | .pull f =>
    [byteOf (pullKindCode f.kind), f.credits] ++ wordBytes f.target ++ halfBytes f.regionSet ++
      byteOf f.repair.length :: f.repair.flatMap halfBytes
  | .block f => halfBytes f.block ++ wordBytes f.tag ++ wordsBytes f.words
  | .credit n => [n]
  | .pullEnd f =>
    byteOf (pullResultCode f.result) :: wordBytes f.tag ++ wordBytes f.sent ++
      match f.entries with
      | some es => wordsBytes (entrySetWords es)
      | none => []

/-- A frame on the line, from its kind byte to its check (12.5, R107). -/
def frameBytes (sender : Nat) (f : SentFrame) : List Byte :=
  let b := [byteOf (frameKind f.body), byteOf sender] ++ halfBytes f.fingerprint ++ bodyBytes f.body
  b ++ halfBytes (crc16 b)

/-- Bytes as words, most significant first. -/
def wordsOf : List Byte → List Word
  | a :: b :: c :: d :: rest => wordOf a b c d :: wordsOf rest
  | _ => []

/-- Bytes as half words. -/
def halvesOf : List Byte → List (BitVec 16)
  | a :: b :: rest => halfOf a b :: halvesOf rest
  | _ => []

/-- The value of an enumerated field that may be absent: code 0 is absence, an unnamed code no value (R182). -/
def optField {α : Type} (named : Nat → Option α) (b : Byte) : Option (Option α) :=
  if b = 0 then some none else (named b.toNat).map some

/-- The body of a frame of a kind, where its length and its codes are those of 12.5 (R108, step 2). -/
def parseBody (kind : Byte) (b : List Byte) : Option FrameBody :=
  match kind.toNat, b with
  | 1, [dev, chan, c3, c2, c1, c0, flags, outcome] =>
    match deviceStateOf dev.toNat, optField channelStateOf chan, optField voteOutcomeOf outcome with
    | some d, some ch, some o => some (.hello ⟨d, ch, wordOf c3 c2 c1 c0, flags.getLsbD 0, flags.getLsbD 1, o⟩)
    | _, _, _ => none
  | 2, c3 :: c2 :: c1 :: c0 :: k :: set =>
    if set.length = 68 then
      (voteKindOf k.toNat).map (fun k => .vote ⟨wordOf c3 c2 c1 c0, k, entrySetOf (wordsOf set)⟩)
    else none
  | 3, k :: credits :: t3 :: t2 :: t1 :: t0 :: r1 :: r0 :: n :: rest =>
    if n.toNat ≤ 32 ∧ rest.length = 2 * n.toNat then
      (pullKindOf k.toNat).map (fun k => .pull ⟨k, credits, wordOf t3 t2 t1 t0, halfOf r1 r0, halvesOf rest⟩)
    else none
  | 4, b1 :: b0 :: t3 :: t2 :: t1 :: t0 :: rest =>
    if rest.length = 64 then some (.block ⟨halfOf b1 b0, wordOf t3 t2 t1 t0, wordsOf rest⟩) else none
  | 5, [n] => some (.credit n)
  | 6, r :: t3 :: t2 :: t1 :: t0 :: s3 :: s2 :: s1 :: s0 :: rest =>
    match pullResultOf r.toNat with
    | some .done =>
      if rest.length = 68 then
        some (.pullEnd ⟨.done, wordOf t3 t2 t1 t0, wordOf s3 s2 s1 s0, some (entrySetOf (wordsOf rest))⟩)
      else none
    | some result =>
      if rest.length = 0 then some (.pullEnd ⟨result, wordOf t3 t2 t1 t0, wordOf s3 s2 s1 s0, none⟩) else none
    | none => none
  | _, _ => none

/-- What the checks of R108 make of the bytes of a frame. -/
inductive Judged where
  | valid (f : SentFrame)
  | failed (reason : LinkReason)
deriving DecidableEq, Repr

/-- The checks of R108, in order: the frame check, kind with length and codes, and the sender position. -/
def judgeFrame (sender : Nat) (bytes : List Byte) : Judged :=
  let b := bytes.take (bytes.length - 2)
  if 2 ≤ bytes.length ∧ bytes.drop (bytes.length - 2) = halfBytes (crc16 b) then
    match b with
    | kind :: pos :: f1 :: f0 :: rest =>
      match parseBody kind rest with
      | some body => if pos.toNat = sender then .valid ⟨halfOf f1 f0, body⟩ else .failed .badFrame
      | none => .failed .badFrame
    | _ => .failed .badFrame
  else .failed .badCheck

end Sys2Proof.Machine
end

