-- ==== Sys2Proof/Machine/Ops.lean ====
section
/-! DEFINITION. The operations that the commands share over the region table, the signatures, the array, the posted-write
queue and the held transfers, and the arbitration of the memory port. -/

namespace Sys2Proof.Machine

open Sys2Proof

/-! ### Regions (R3) -/

/-- Block number of a word. -/
def blockOf (a : Nat) : Nat := a / Config.blockWords

/-- Byte address of a word, as events carry it. -/
def byteAddr (a : Nat) : Nat := 4 * a

/-- The loaded region that contains a block, with its index, or not mapped (R3). -/
def regionOf (s : State) (block : Nat) : Option (Nat × Region) := s.rgt.entries.find? (fun e => e.2.desc.covers block)

/-- The block lies in a VITAL region. -/
def vitalBlock (s : State) (block : Nat) : Bool :=
  match regionOf s block with
  | some e => e.2.desc.kind == .vital
  | none => false

/-- The block lies in a VITAL or CODE region. -/
def signedBlock (s : State) (block : Nat) : Bool :=
  match regionOf s block with
  | some e => e.2.desc.signed
  | none => false

/-- The region that owns a signature slot, if a loaded signed descriptor names it (R54). -/
def slotRegion (s : State) (slot : Nat) : Option (Nat × Region) :=
  s.rgt.entries.find? (fun e => e.2.desc.signed && e.2.desc.slot == slot)

/-- A region is SUSPECT. -/
def Region.suspect (r : Region) : Bool := r.state != .normal

/-- Some signed region is SUSPECT. -/
def anySuspect (s : State) : Bool := s.rgt.entries.any (fun e => e.2.desc.signed && e.2.suspect)

/-- Change the region at an index. -/
def modifyRegion (index : Nat) (f : Region → Region) (s : State) : State :=
  { s with rgt.entries := assocModify s.rgt.entries index f }

/-- The lowest block at or above `low` that lies in one of the regions. -/
def nextBlock (ds : List Descriptor) (low : Nat) : Option Nat :=
  lowestFrom low (ds.filterMap (fun d => if max d.first low < d.first + d.count then some (max d.first low) else none))

/-! ### Running signatures (chapter 4) -/

/-- The weight of the word at an offset of the region (R55). -/
def weight (d : Descriptor) (offset : Nat) : Nat :=
  let w := (d.base + d.mult * offset) % Config.p
  if w = 0 then 1 else w

/-- The residue of a word value (R56). -/
def residue (v : Word) : Nat := v.toNat % Config.p

/-- The term w(i) × d of an update (R58). -/
def updateTerm (d : Descriptor) (offset : Nat) (old new : Word) : Nat :=
  weight d offset * ((residue new + Config.p - residue old) % Config.p) % Config.p

/-- What a signing pass or the patrol adds for a word (R62, R99). -/
def wordTerm (d : Descriptor) (offset : Nat) (v : Word) : Nat := weight d offset * residue v % Config.p

/-- Offset of a word in its region (R3). -/
def offsetIn (d : Descriptor) (a : Nat) : Nat := a - Config.blockWords * d.first

/-- Put the running signature of a slot. -/
def setSig (slot v : Nat) (s : State) : State := { s with sgu.sigs := s.sgu.sigs.set slot v }

/-- The running signature of a slot, read between grants (R61). -/
def sigOf (s : State) (slot : Nat) : Nat := s.sgu.sigs.getD slot 0

/-- The patrol walks (R94). -/
def walking (s : State) : Bool := s.dev == .running && s.ptu.enable

/-- A block lies behind the patrol position in the region being walked (R60). -/
def behindPatrol (s : State) (index block : Nat) : Bool :=
  match s.ptu.position with
  | some p =>
    match regionOf s p with
    | some e => walking s && e.1 == index && block < p
    | none => false
  | none => false

/-- The SGU is handed the old and the new value of a word write (R58, R60). -/
def accountWrite (a : Nat) (old new : Word) (s : State) : State :=
  match regionOf s (blockOf a) with
  | some (index, r) =>
    if r.desc.signed then
      let t := updateTerm r.desc (offsetIn r.desc a) old new
      let acc := if behindPatrol s index (blockOf a) then (s.ptu.acc + t) % Config.p else s.ptu.acc
      setSig r.desc.slot ((sigOf s r.desc.slot + t) % Config.p) { s with ptu.acc := acc }
    else s
  | none => s

/-- The 16 signature entries of the moment, slot by slot (R64). -/
def slotEntry (s : State) (slot : Nat) : SigEntry :=
  match slotRegion s slot with
  | some e => ⟨if e.2.suspect then .suspect else .valid, sigOf s slot⟩
  | none => ⟨.absent, 0⟩

/-- The 16 signature entries of the moment (R64). -/
def ownEntries (s : State) : List SigEntry := (List.range Config.sigSlots).map (slotEntry s)

/-! ### The array (R39, R40) -/

/-- The check of a word as it stands in the array. -/
def readWord (s : State) (a : Nat) : Checked := checkWord (memGet s.mpu.mem a)

/-- Store a word with fresh check bits. -/
def storeWord (a : Nat) (v : Word) (s : State) : State := { s with mpu.mem := memPut s.mpu.mem a (freshWord v) }

/-- Perform a word write: the array and the SGU (R39, R58). -/
def writeWord (a : Nat) (old new : Word) (s : State) : State := accountWrite a old new (storeWord a new s)

/-! ### Findings (R12, R13, R34, R88, R89) -/

/-- A word of the region was found CORRECTABLE (R13). -/
def countCorrected (index : Nat) (s : State) : State :=
  modifyRegion index (fun r => { r with corrected := satInc Config.count16Max r.corrected }) s

/-- A word of the region was found UNCORRECTABLE (R13). -/
def countUncorrectable (index : Nat) (s : State) : State :=
  modifyRegion index (fun r => { r with uncorrectable := satInc Config.count16Max r.uncorrectable }) s

/-- The state a region takes when a finding calls for a SUSPECT state (R12). -/
def calledState (located : Bool) (r : RegionState) : RegionState :=
  match r, located with
  | .suspectUnlocated, _ => .suspectUnlocated
  | _, false => .suspectUnlocated
  | _, true => .suspectLocated

/-- The patrol position lies in the region at this index. -/
def walkedNow (s : State) (index : Nat) : Bool :=
  match s.ptu.position with
  | some p => (regionOf s p).map Prod.fst == some index
  | none => false

/-- A finding calls for a SUSPECT state in a signed region: the state moves, the clean flag of its slot is cleared, and of the
region walked it is kept that it became SUSPECT in this walk (R12, R101, R149; notes/assumptions/43). In CONFIGURING, and in a
PLAIN region, the state stays. -/
def markSuspect (index : Nat) (located : Bool) (s : State) : State :=
  if s.dev = .configuring then s
  else
    match assocFind s.rgt.entries index with
    | some r =>
      if r.desc.signed then
        { modifyRegion index (fun r => { r with state := calledState located r.state }) s with
          rse.pull.clean := s.rse.pull.clean &&& ~~~((1 : BitVec 16) <<< r.desc.slot)
          ptu.turned := s.ptu.turned || walkedNow s index }
      else s
    | none => s

/-- A region whose state has moved holds PERMIT off (R137). -/
def suspectPermit (index : Nat) (s : State) : State :=
  match assocFind s.rgt.entries index with
  | some r => if r.desc.signed && r.suspect then dropPermit (.suspect index) s else s
  | none => s

/-- A VITAL block with an UNCORRECTABLE word is offered to the repair list (R88, R89). -/
def offerRepair (index a : Nat) (s : State) : State :=
  if blockOf a ∈ s.cju.repair then suspectPermit index (markSuspect index true s)
  else if s.cju.repair.length < Config.repairMax then
    suspectPermit index (markSuspect index true { s with cju.repair := s.cju.repair ++ [blockOf a] })
  else
    let t := markSuspect index false { s with cju.repairOverflow := true }
    suspectPermit index
      (if s.cju.repairOverflow then t else recordEvent (.repairOverflow index (byteAddr a)) t)

/-- The further effect of an UNCORRECTABLE word found by a reader that offers blocks (R34, R98). -/
def damaged (index : Nat) (kind : RegionKind) (a : Nat) (s : State) : State :=
  if s.dev = .configuring then s
  else
    match kind with
    | .vital => offerRepair index a s
    | .code => suspectPermit index (markSuspect index false s)
    | .plain => s

/-- A finding of an UNCORRECTABLE word by a processor read, a head write, a capture, the patrol or a server read: count,
event, repair list and region state (R34, R80, R98, R153). A block that no region holds any more has no count
(notes/assumptions/28). -/
def findUncorrectable (ini : Option Initiator) (a : Nat) (s : State) : State :=
  match regionOf s (blockOf a) with
  | some (index, r) =>
    damaged index r.desc.kind a
      (recordEvent (.uncorrectable (some index) (byteAddr a) ini) (countUncorrectable index s))
  | none => recordEvent (.uncorrectable none (byteAddr a) ini) s

/-- The finding of a signing or re-signing pass: no initiator, no repair list, SUSPECT_UNLOCATED (R62, R63). -/
def findInPass (a : Nat) (s : State) : State :=
  match regionOf s (blockOf a) with
  | some (index, _) =>
    suspectPermit index (markSuspect index false
      (recordEvent (.uncorrectable (some index) (byteAddr a) none) (countUncorrectable index s)))
  | none => s

/-- An UNCORRECTABLE old word of a rollback or requester write, in a signed region and outside CONFIGURING (R46). -/
def findOverwritten (a : Nat) (s : State) : State :=
  match regionOf s (blockOf a) with
  | some (index, r) =>
    if r.desc.signed = true ∧ s.dev ≠ .configuring then
      suspectPermit index (markSuspect index false (recordEvent (.uncorrectable (some index) (byteAddr a) none) s))
    else s
  | none => s

/-! ### Block grants (R42, R46) -/

/-- The 16 words of a block as a read grant finds them. -/
def readBlock (s : State) (b : Nat) : List Checked := (blockWords b).map (readWord s)

/-- A block-read grant's work on one word: correction and count, or the finding that the reader makes of it (R46). -/
def scrubWord (found : Nat → State → State) (a : Nat) (s : State) : State :=
  match (readWord s a).cond with
  | .good => s
  | .correctable =>
    let t := storeWord a (readWord s a).value s
    match regionOf s (blockOf a) with
    | some (index, _) => countCorrected index t
    | none => t
  | .uncorrectable => found a s

/-- A block-read grant's work on a block, word after word. -/
def scrubBlock (found : Nat → State → State) (b : Nat) (s : State) : State :=
  (blockWords b).foldl (fun s a => scrubWord found a s) s

/-- A block-write grant's write of one word: the old word gives the SGU its old value, and an UNCORRECTABLE one is
reported as R46 gives. -/
def overwriteWord (a : Nat) (v : Word) (s : State) : State :=
  let old := readWord s a
  let t := if old.cond = .uncorrectable then findOverwritten a s else s
  writeWord a old.value v t

/-- A block-write grant's writes, in ascending order. -/
def overwriteAll (ws : List (Nat × Word)) (s : State) : State :=
  ws.foldl (fun s w => overwriteWord w.1 w.2 s) s

/-- The words of a block with their new values. -/
def blockWrites (b : Nat) (ws : List Word) : List (Nat × Word) := (blockWords b).zip ws

/-! ### The access check (R4, R20) -/

/-- Bit of the rights word for an initiator and a direction (12.1). -/
def rightBit (ini : Initiator) (write : Bool) : Nat :=
  match ini with
  | .data => bit write
  | .fetch => 2 + bit write
  | .dma => 4 + bit write

/-- The phase check of R4, with check 4 of R20 before it, for a write into a region. -/
def phaseRefusal (s : State) (k : RegionKind) : Option AccessReason :=
  if k.signed then
    match s.cju.chan with
    | some .catchup => some .restoring
    | some .restoring => some .restoring
    | c =>
      match s.dev with
      | .configuring => none
      | .signing => some .phase
      | .running => if c = some .opened ∧ k = .vital then none else some .phase
  else none

/-- The access check: the refusal's reason and region, or none for a transfer that passes (R20, R22). -/
def accessCheck (s : State) (t : Transfer) : Option (AccessReason × Option Nat) :=
  let region := regionOf s (blockOf t.word)
  if s.mpu.initOp.isSome then some (.initBusy, region.map Prod.fst)
  else
    match region with
    | none => some (.notMapped, none)
    | some (index, r) =>
      if r.desc.rights.getLsbD (rightBit t.ini t.write) then
        if t.write then (phaseRefusal s r.desc.kind).map (fun reason => (reason, some index)) else none
      else some (.rights, some index)

/-! ### The posted-write queue and the held transfers (chapter 2) -/

/-- Give an initiator an answer. -/
def giveAnswer (ini : Initiator) (resp : Resp) (data : Word) (s : State) : State :=
  { s with ppt.answers := s.ppt.answers.put ini (some ⟨resp, data⟩) }

/-- The hold flag after an append or a change of U: set at or above U (R28, R29). -/
def raiseHold (s : State) : State :=
  if s.pwq.upper ≤ s.pwq.entries.length then { s with pwq.hold := true } else s

/-- The hold flag after a removal or a change of L: cleared at or below L (R28, R29). -/
def lowerHold (s : State) : State :=
  if s.pwq.entries.length ≤ s.pwq.lower then { s with pwq.hold := false } else s

/-- Accept a write: an entry at the tail, or none for a write with no byte enable (R24). -/
def acceptWrite (t : Transfer) (s : State) : State :=
  if t.be = 0 then s
  else
    match regionOf s (blockOf t.word) with
    | some (index, r) =>
      raiseHold { s with pwq.entries := s.pwq.entries ++ [⟨t.word, t.data, t.be, t.ini, index, r.desc.signed⟩] }
    | none => s

/-- How many queued entries name a word. -/
def queuedFor (s : State) (word : Nat) : Nat := s.pwq.entries.countP (fun e => e.word == word)

/-- Judge a transfer: it is answered, or held for a reason (R21, R22, R24, R28, R30 to R32). A read that has waited its hazard
out (`waited`) is not held by the entries for its word that were accepted later (R30). -/
def judge (waited : Bool) (t : Transfer) (s : State) : State × Option Hold :=
  match accessCheck s t with
  | some (reason, region) =>
    (giveAnswer t.ini .error 0 (recordRefusal reason t.ini (byteAddr t.word) region s), none)
  | none =>
    if t.write then
      if s.pwq.hold then (s, some .backpressure) else (giveAnswer t.ini .okay 0 (acceptWrite t s), none)
    else if waited = false ∧ 0 < queuedFor s t.word then (s, some (.hazard (queuedFor s t.word)))
    else if signedBlock s (blockOf t.word) = true ∧ s.cju.chan = some .rollingBack then (s, some .rollback)
    else (s, some .access)

/-- The commands that make a port hold (R8, R36). -/
def drains : Command → Bool
  | .clearTable => true
  | .loadRegion => true
  | .initMemory => true
  | .endConfig => true
  | .reset => true
  | _ => false

/-- A port hold is in force: a draining command is not yet answered (R8, R36). -/
def portHold (s : State) : Bool :=
  match s.cmu.buffer with
  | some f => drains f.cmd
  | none => false

/-- The held transfer of an initiator. -/
def heldOf (s : State) (ini : Initiator) : Option Held := s.ppt.held.find? (fun h => h.transfer.ini == ini)

/-- A memory transfer arrives (R17, R21, R36). A second transfer of a kind that has one held is not taken (R17). -/
def arrive (t : Transfer) (s : State) : State :=
  if (heldOf s t.ini).isSome then s
  else if portHold s then giveAnswer t.ini .wait 0 { s with ppt.held := s.ppt.held ++ [⟨t, .port⟩] }
  else
    match (judge false t s).2 with
    | none => (judge false t s).1
    | some h =>
      giveAnswer t.ini .wait 0 { (judge false t s).1 with ppt.held := (judge false t s).1.ppt.held ++ [⟨t, h⟩] }

/-- The hold of a held transfer has ended (the first table of chapter 2). -/
def holdEnded (s : State) (h : Hold) : Bool :=
  match h with
  | .port => true
  | .backpressure => !s.pwq.hold
  | .hazard n => n == 0
  | .rollback => s.cju.chan != some .rollingBack
  | .access => false

/-- The hold is that of a read behind queued entries for its word (R30). -/
def Hold.isHazard : Hold → Bool
  | .hazard _ => true
  | _ => false

/-- Take an initiator's transfer off the held ones. -/
def unhold (ini : Initiator) (s : State) : State :=
  { s with ppt.held := s.ppt.held.filter (fun h => h.transfer.ini != ini) }

/-- The transfer of an initiator is held for another reason, in its place. -/
def rehold (ini : Initiator) (k : Hold) (s : State) : State :=
  { s with ppt.held := s.ppt.held.map (fun g => if g.transfer.ini = ini then { g with hold := k } else g) }

/-- Judge a held transfer again when its hold has ended; one held for another reason keeps its place (R21). -/
def releaseOne (h : Held) (s : State) : State :=
  if holdEnded s h.hold then
    match (judge h.hold.isHazard h.transfer s).2 with
    | none => unhold h.transfer.ini (judge h.hold.isHazard h.transfer s).1
    | some k => rehold h.transfer.ini k (judge h.hold.isHazard h.transfer s).1
  else s

/-- Release the held transfers whose holds have ended, in order of arrival (R21, R28, R36; notes/assumptions/11). During a port
hold none is released, a read whose word hazard or rollback hold ends meanwhile among them (notes/assumptions/46). -/
def releaseHeld (s : State) : State :=
  if portHold s then s else s.ppt.held.foldl (fun s h => releaseOne h s) s

/-- One entry for a word leaves the queue: a read that waits for it waits for one fewer (R30). -/
def lessHazard (gone : List PwqEntry) (h : Held) : Held :=
  match h.hold with
  | .hazard n => { h with hold := .hazard (n - gone.countP (fun e => e.word == h.transfer.word)) }
  | _ => h

/-- Entries leave the queue and the others stay (R25, R28, R30, R35). -/
def leaveQueue (gone stay : List PwqEntry) (s : State) : State :=
  lowerHold { s with pwq.entries := stay, ppt.held := s.ppt.held.map (lessHazard gone) }

/-- An abandon removes every signed entry (R35). -/
def dropSigned (s : State) : State :=
  leaveQueue (s.pwq.entries.filter PwqEntry.signed) (s.pwq.entries.filter (fun e => !e.signed)) s

/-! ### Service targets (R153 to R156) -/

/-- The descriptors of the regions whose slots are in a set. -/
def setRegions (s : State) (slots : BitVec 16) : List Descriptor :=
  (s.rgt.entries.map (fun e => e.2.desc)).filter (fun d => d.signed && slots.getLsbD d.slot)

/-- The block that the service would read next, if it has one. -/
def serverTarget (s : State) : Option Nat :=
  let r := s.rse.service
  match r.phase with
  | .sending => lowestFrom r.sendPos (s.cju.wPrev ++ r.repair)
  | .walking =>
    match r.walkPos with
    | some (.block b) => some b
    | _ => none
  | .resending =>
    if r.waiting then none
    else
      match lowestFrom r.sendPos s.cju.resend with
      | some b => some b
      | none => lowestFrom 0 s.cju.resend
  | _ => none

/-! ### Arbitration of the memory port (R42 to R49) -/

/-- The work of one grant (R42). -/
inductive Grant where
  | procRead | writeBack | headWrite | capture | rollback | patrol | serverRead | requesterWrite | initBlock | signing
  | resigning
deriving DecidableEq, Repr

/-- The head write needs a capture that the journal has room for (R80). -/
def needsCapture (s : State) (e : PwqEntry) : Bool :=
  s.dev == .running && e.signed && vitalBlock s (blockOf e.word) && !(s.cju.wCur.contains (blockOf e.word)) &&
    s.cju.journal.length < Config.journalMax

/-- The earliest read that is requested of the MPU (R32). -/
def firstAccess (s : State) : Option Held := s.ppt.held.find? (fun h => h.hold == .access)

/-- The PROC request to grant, by the preference of R44. -/
def procRequest (s : State) : Option Grant :=
  if s.mpu.writeBack.isSome then some .writeBack
  else if (firstAccess s).isSome then some .procRead
  else
    match s.pwq.entries with
    | [] => none
    | e :: _ => if needsCapture s e then none else some .headWrite

/-- The JOURNAL request: the head's capture, or the newest entry of a rollback (R80, R84). -/
def journalRequest (s : State) : Option Grant :=
  let capture :=
    match s.pwq.entries with
    | [] => false
    | e :: _ => needsCapture s e
  if capture then some .capture
  else if s.cju.chan = some .rollingBack ∧ s.cju.journal ≠ [] then some .rollback
  else none

/-- Fewer than 8 BLOCK frames wait on the requester's link (R115; notes/assumptions/40). -/
def blockRoom (s : State) : Bool :=
  match s.rse.service.requester with
  | some l => (s.lkc.tx.get l).blocks.length < Config.creditMax
  | none => true

/-- The LINK request: a full buffer to write, or a block to send with a credit in hand (R146, R153) and room for its frame in
the transmit queue (R115). -/
def linkRequest (s : State) : Option Grant :=
  if s.rse.pull.buffers ≠ [] then some .requesterWrite
  else if 1 ≤ s.rse.service.credits ∧ (serverTarget s).isSome = true ∧ blockRoom s = true then some .serverRead
  else none

/-- A RESET has been taken and has not yet had its effect. -/
def resetPending (s : State) : Bool :=
  match s.cmu.buffer with
  | some f => f.cmd == .reset
  | none => false

/-- The SETUP request (R51, R62, R63). Under a RESET no further block of INIT_MEMORY is requested (R52). -/
def setupRequest (s : State) : Option Grant :=
  if s.mpu.initOp.isSome then (if resetPending s then none else some .initBlock)
  else if s.sgu.pass.isSome then some (if s.dev = .signing then .signing else .resigning)
  else none

/-- The pending request of a class (R43). -/
def classRequest (s : State) : PortClass → Option Grant
  | .proc => procRequest s
  | .journal => journalRequest s
  | .patrol => if s.ptu.request then some .patrol else none
  | .link => linkRequest s
  | .setup => setupRequest s

/-- Scan `n` slots from slot `i` on; the grant and the slot after the chosen one (R47). -/
def scanSlots (s : State) : Nat → Nat → Option (Grant × Nat)
  | 0, _ => none
  | n + 1, i =>
    match classRequest s (s.mpu.slots.getD (i % 16) .proc) with
    | some g => some (g, (i + 1) % 16)
    | none => scanSlots s n (i + 1)

/-- The next grant of the port and the pointer after it, if a request is pending (R47). -/
def nextGrant (s : State) : Option (Grant × Nat) := scanSlots s 16 s.mpu.pointer

/-- The work of a grant runs when the arbiter's next grant is this one (R47; notes/assumptions/4). -/
def granted (g : Grant) (work : State → State) (s : State) : State :=
  match nextGrant s with
  | some (h, p) => if h = g then work { s with mpu.pointer := p } else s
  | none => s

/-- While RESET_N is low nothing but power, the pin and the array acts (R38, R167). -/
def whenReady (f : State → State) (s : State) : State := if s.resetLow then s else f s

end Sys2Proof.Machine
end

