-- ==== Sys2Proof/Machine/Services.lean ====
section
/-! DEFINITION. Transmission on the links (R112, R116) and the server role: how a service starts, goes on from phase to
phase and ends (R151 to R157). -/

namespace Sys2Proof.Machine

open Sys2Proof

/-! ### Transmission -/

/-- The fields of a HELLO that leaves now (R112). -/
def helloFields (s : State) : HelloFields :=
  ⟨s.dev, s.cju.chan, s.cju.cycle, s.vtu.agreedBase, serving s, s.vtu.last.map Decision.outcome⟩

/-- The frame that a waiting control frame becomes when its transmission begins (R112, R113). -/
def ctrlBody (s : State) : CtrlFrame → FrameBody
  | .hello => .hello (helloFields s)
  | .vote f => .vote f
  | .pull f => .pull f
  | .credit n => .credit (BitVec.ofNat 8 n)
  | .pullEnd f => .pullEnd f

/-- A free transmitter begins the first waiting control frame, else the first waiting BLOCK (R116). -/
def beginFrame (s : State) (t : Transmitter) : Transmitter :=
  if t.sending.isSome then t
  else
    match t.ctrl, t.blocks with
    | c :: rest, _ => { t with ctrl := rest, sending := some ⟨sentFingerprint s, ctrlBody s c⟩ }
    | [], b :: rest => { t with blocks := rest, sending := some ⟨sentFingerprint s, .block b⟩ }
    | [], [] => t

/-- Let the transmitter of a link begin a frame, where it can; a part at position 3 sends none (R106). -/
def startSend (l : Link) (s : State) : State :=
  if s.position = 3 then s else modifyTx l (beginFrame s) s

/-- Let both transmitters begin. -/
def kick (s : State) : State := startSend .two (startSend .one s)

/-! ### The service record -/

/-- The serving condition (R151). -/
def servingCondition (s : State) : Bool :=
  s.dev == .running && s.vtu.agreedBase &&
    match s.cju.chan with
    | some .ready => true
    | some .opened => true
    | some .closing => true
    | some .voting => true
    | some .rollingBack => true
    | _ => false

/-- A frame in transmission is a BLOCK. -/
def sendingBlock (t : Transmitter) : Bool :=
  match t.sending with
  | some f =>
    match f.body with
    | .block _ => true
    | _ => false
  | none => false

/-- No BLOCK of the active service waits or is in transmission (R154). -/
def blocksGone (t : Transmitter) : Bool := t.blocks.isEmpty && (!sendingBlock t || t.stale)

/-- An active service ends: its PULL_END is queued, the RESEND marks cleared, its waiting BLOCK frames withdrawn, the record
idle, the HELLO of service-busy queued and the event recorded (R154, R156, R157). -/
def endService (result : PullResult) (entries : Option (List SigEntry)) (s : State) : State :=
  match s.rse.service.requester with
  | some l =>
    if serving s then
      let frame : PullEndFrame := ⟨result, s.cju.cycle, BitVec.ofNat 32 s.rse.service.sent, entries⟩
      let t := modifyTx l (fun t => { t with blocks := [], stale := sendingBlock t }) (sendCtrl (.pullEnd frame) l s)
      recordEvent (.serviceEnded (peerPosition s.position l) result)
        (helloTrigger
          { t with
            cju.resend := []
            rse.service := { t.rse.service with phase := .idle, timer := none, tried := [], waiting := false } })
    else s
  | none => s

/-- The service ends when the part has left the serving condition (R157). -/
def endIfLost (s : State) : State := if servingCondition s then s else endService .serverLost none s

/-- The marked blocks are considered again after a rollback grant, a decision or an entry into READY (R156). -/
def reconsiderMarks (s : State) : State :=
  { s with rse.service := { s.rse.service with tried := [], waiting := false } }

/-- A capture or an overflow changes the journal or the W_CUR marks: findings before it no longer count, though a server
that waits goes on waiting (R156; notes/assumptions/23). -/
def forgetTried (s : State) : State :=
  if s.rse.service.waiting then s else { s with rse.service.tried := [] }

/-- A walk at its end goes on to RESENDING (R155); what the walk found unavailable does not count there, and is read once more
(notes/assumptions/45). -/
def walkEnds (s : State) : State :=
  if s.rse.service.phase = .walking ∧ s.rse.service.walkPos = some .finished then
    { s with rse.service := { s.rse.service with phase := .resending, sendPos := 0, tried := [], waiting := false } }
  else s

/-- A mark set in FINISHING returns the phase to RESENDING (R156). -/
def marksReturn (s : State) : State :=
  if s.rse.service.phase = .finishing ∧ s.cju.resend ≠ [] then
    { s with rse.service := { s.rse.service with phase := .resending, tried := [], waiting := false } }
  else s

/-- With no block left to send the phase becomes FINISHING (R154, R156). -/
def nothingLeft (s : State) : State :=
  if (s.rse.service.phase = .sending ∧ serverTarget s = none) ∨ (s.rse.service.phase = .resending ∧ s.cju.resend = []) then
    { s with rse.service.phase := .finishing }
  else s

/-- In FINISHING, once no BLOCK of the service remains on the link, DONE is queued and the service ends (R154, R156). -/
def finishService (s : State) : State :=
  match s.rse.service.requester with
  | some l =>
    if s.rse.service.phase = .finishing ∧ s.cju.resend = [] ∧ blocksGone (s.lkc.tx.get l) = true then
      endService .done (some s.vtu.closedSet) s
    else s
  | none => s

/-- The credit silence timer runs while a service has no credit and a block to send (R157). -/
def creditTimer (s : State) : State :=
  if s.rse.service.credits = 0 ∧ (serverTarget s).isSome = true then
    { s with rse.service.timer := some (s.rse.service.timer.getD s.times.pullSilence) }
  else { s with rse.service.timer := none }

/-- The service goes on as far as it can without the memory port or a frame. -/
def serviceTick (s : State) : State := creditTimer (finishService (nothingLeft (marksReturn (walkEnds s))))

/-- The end of a step: holds that have ended are released, the service goes on, and the transmitters begin. -/
def settle (s : State) : State := kick (serviceTick (releaseHeld s))

/-! ### Taking a PULL (R152) -/

/-- The set has bit k for every slot of a VITAL descriptor and only slots of signed descriptors. -/
def setFits (s : State) (slots : BitVec 16) : Bool :=
  (List.range Config.sigSlots).all (fun k =>
    match slotRegion s k with
    | some e => slots.getLsbD k || e.2.desc.kind != .vital
    | none => !slots.getLsbD k)

/-- The first check of R152 that a PULL fails, as the result it is answered with. -/
def pullRefusal (s : State) (f : PullFrame) : Option PullResult :=
  let fits :=
    match f.kind with
    | .full => setFits s f.regionSet
    | .delta => f.repair.all (fun b => vitalBlock s b.toNat)
  if serving s then some .busy
  else if servingCondition s = false then some .notMember
  else if ¬ (1 ≤ f.credits.toNat ∧ f.credits.toNat ≤ Config.creditMax ∧ fits = true) then some .badRequest
  else if f.kind = .delta ∧ ¬ (f.target = s.cju.cycle ∧ s.cju.wPrevValid = true) then some .stale
  else none

/-- The walk position at a block, or at the end of the set (R155). -/
def walkFrom (s : State) (slots : BitVec 16) (low : Nat) : WalkPos :=
  match nextBlock (setRegions s slots) low with
  | some b => .block b
  | none => .finished

/-- The record of a service that starts (R152). -/
def newService (s : State) (l : Link) (f : PullFrame) : Service :=
  match f.kind with
  | .delta => ⟨.sending, some l, some .delta, 0, f.repair.map BitVec.toNat, 0, none, f.credits.toNat, 0, none, [], false⟩
  | .full =>
    ⟨.walking, some l, some .full, f.regionSet, [], 0, some (walkFrom s f.regionSet 0), f.credits.toNat, 0, none, [], false⟩

/-- The server role is handed a PULL (R152). -/
def takePull (l : Link) (f : PullFrame) (s : State) : State :=
  match pullRefusal s f with
  | some result =>
    recordEvent (.serviceEnded (peerPosition s.position l) result)
      (sendCtrl (.pullEnd ⟨result, s.cju.cycle, 0, none⟩) l s)
  | none =>
    recordEvent (.serviceStarted (peerPosition s.position l) f.kind)
      (helloTrigger { s with rse.service := newService s l f })

/-- The server role is handed a CREDIT (R153, R157). -/
def takeCredit (l : Link) (count : Byte) (s : State) : State :=
  if serving s = true ∧ s.rse.service.requester = some l then
    { s with rse.service.credits := min Config.creditMax (s.rse.service.credits + count.toNat) }
  else s

/-! ### Reading a block for the peer (R85, R153 to R156) -/

/-- Where the content of a block at the end of cycle c is found (R85). -/
inductive Content where
  | fromJournal (ws : List Word)
  | fromMemory
  | unavailable
deriving DecidableEq, Repr

/-- The CJU's answer about a block (R85). -/
def blockContent (s : State) (b : Nat) : Content :=
  match s.cju.journal.find? (fun e => e.block == b) with
  | some e => if e.known.all id then .fromJournal e.words else .unavailable
  | none => if s.cju.wCur.contains b then .unavailable else .fromMemory

/-- The walk or send position after block `b` has been considered. -/
def afterBlock (b : Nat) (s : State) : State :=
  match s.rse.service.phase with
  | .walking => { s with rse.service.walkPos := some (walkFrom s s.rse.service.regionSet (b + 1)) }
  | _ => { s with rse.service.sendPos := b + 1 }

/-- The server waits once every remaining marked block has been found unavailable (R156). -/
def markWaiting (s : State) : State :=
  { s with
    rse.service.waiting :=
      s.rse.service.phase == .resending && !s.cju.resend.isEmpty &&
        s.cju.resend.all (fun k => s.rse.service.tried.contains k) }

/-- Queue a BLOCK frame and account for it (R153, R155, R156). -/
def sendBlock (b : Nat) (ws : List Word) (s : State) : State :=
  match s.rse.service.requester with
  | some l =>
    let t := modifyTx l (fun t => { t with blocks := t.blocks ++ [⟨BitVec.ofNat 16 b, s.cju.cycle, ws⟩] }) s
    markWaiting
      (afterBlock b
        { t with
          cju.resend := setErase t.cju.resend b
          rse.service :=
            { t.rse.service with
              credits := t.rse.service.credits - 1
              sent := satInc Config.count32Max t.rse.service.sent
              tried := setErase t.rse.service.tried b } })
  | none => s

/-- An unavailable block: STALE for DELTA, a RESEND mark for the walk, and for RESENDING the next mark (R154 to R156). -/
def blockUnavailable (b : Nat) (s : State) : State :=
  match s.rse.service.phase with
  | .sending => endService .stale none s
  | .walking => afterBlock b { s with cju.resend := setInsert s.cju.resend b }
  | _ => markWaiting (afterBlock b { s with rse.service.tried := setInsert s.rse.service.tried b })

/-- The LINK grant of a service (R153). -/
def serveBlock (s : State) : State :=
  match serverTarget s with
  | some b =>
    let found := readBlock s b
    let t := scrubBlock (findUncorrectable none) b s
    match blockContent s b with
    | .fromJournal ws => sendBlock b ws t
    | .fromMemory =>
      if found.any (fun c => c.cond == .uncorrectable) then endService .serverLost none t
      else sendBlock b (found.map Checked.value) t
    | .unavailable => blockUnavailable b t
  | none => s

end Sys2Proof.Machine
end

