-- ==== Sys2Proof/Machine/Pulls.lean ====
section
/-! DEFINITION. The requester role: how a pull starts, takes blocks, completes and fails (R140 to R150), the signing and
re-signing passes (R62, R63), and the vote table's sorting on an entry into READY (R123). -/

namespace Sys2Proof.Machine

open Sys2Proof

/-! ### The vote table (R122, R123) -/

/-- Put a frame in the slot of its cycle: the frame there is replaced, and the new one is the newest. -/
def placeFrame (f : VoteFrame) (table : List VoteFrame) : List VoteFrame :=
  table.filter (fun g => g.cycle != f.cycle) ++ [f]

/-- Keep the two most recent frames (R123). -/
def keepRecent (f : VoteFrame) (table : List VoteFrame) : List VoteFrame :=
  let all := table ++ [f]
  all.drop (all.length - 2)

/-- The frames for v and v + 1, the more recent of two for one slot (R123). -/
def sortFrames (v : BitVec 32) (table : List VoteFrame) : List VoteFrame :=
  (table.filter (fun f => f.cycle == v || f.cycle == v + 1)).foldl (fun t f => placeFrame f t) []

/-- Sort both peers' kept frames against v (R123). -/
def sortKept (s : State) : State :=
  let v := voteCycle s
  { s with vtu.table := ⟨sortFrames v s.vtu.table.one, sortFrames v s.vtu.table.two⟩ }

/-! ### Starting a pull (R141 to R144) -/

/-- A peer is an eligible server (R141). -/
def eligible (s : State) (l : Link) : Bool :=
  let p := s.lkc.peers.get l
  p.heard && p.matched &&
    match p.hello with
    | some h => h.fields.dev == .running && h.fields.agreedBase && !h.fields.serviceBusy
    | none => false

/-- The links in rising order of the positions they lead to. -/
def linksByPosition (s : State) : List Link :=
  if peerPosition s.position .one < peerPosition s.position .two then [.one, .two] else [.two, .one]

/-- The eligible server with the lower channel position (R141). -/
def chooseServer (s : State) : Option Link := (linksByPosition s).find? (eligible s)

/-- Bits of a 16-bit set. -/
def slotMask (ks : List Nat) : BitVec 16 := ks.foldl (fun m k => m ||| ((1 : BitVec 16) <<< k)) 0

/-- A slot is asked for in a FULL pull from this server (R143). -/
def slotAsked (s : State) (server : Link) (k : Nat) : Bool :=
  match slotRegion s k with
  | some e =>
    match e.2.desc.kind with
    | .vital => true
    | _ =>
      e.2.suspect ||
        match (s.vtu.table.get server).getLast? with
        | some f => f.entries.getD k ⟨.absent, 0⟩ != ⟨.valid, sigOf s k⟩
        | none => true
  | none => false

/-- The region set of a FULL pull (R143). -/
def fullSet (s : State) (server : Link) : BitVec 16 := slotMask ((List.range Config.sigSlots).filter (slotAsked s server))

/-- What the start of a pull does to the W_PREV marks (R142, R143). -/
def clearPrev (s : State) : State := { s with cju := { s.cju with wPrev := [], wPrevValid := false } }

/-- Record, queue and time a pull that starts (R142, R143). -/
def beginPull (kind : PullKind) (server : Link) (frame : PullFrame) (s : State) : State :=
  let pull : Pull :=
    { s.rse.pull with
      phase := .receiving, kind := some kind, server := some server, target := frame.target, regionSet := frame.regionSet,
      buffers := [], received := 0, timer := some s.times.pullSilence, clean := 0, ending := none }
  recordEvent (.pullStarted (peerPosition s.position server) kind)
    (sendCtrl (.pull frame) server { s with rse.pull := pull })

/-- Start the DELTA pull of an OUTVOTED decision (R142). -/
def startDelta (server : Link) (s : State) : State :=
  beginPull .delta server ⟨.delta, 8, voteCycle s, 0, s.cju.repair.map (BitVec.ofNat 16)⟩ (clearPrev s)

/-- Start a FULL pull: the channel enters RESTORING (R143). -/
def startFull (server : Link) (s : State) : State :=
  beginPull .full server ⟨.full, 8, 0, fullSet s server, []⟩ (setChan (some .restoring) (clearPrev s))

/-- The test of R143 for an eligible server. -/
def testFull (s : State) : State :=
  if s.cju.chan = some .excluded ∧ s.rse.pull.attempts < 3 ∧ pulling s = false then
    match chooseServer s with
    | some l => startFull l s
    | none => s
  else s

/-! ### The end of a pull (R149, R150) -/

/-- A pull fails (R150). -/
def failPull (cause : PullCause) (result : Option PullResult) (s : State) : State :=
  match s.rse.pull.server with
  | some l =>
    let t :=
      clearPrev
        { s with
          rse.pull :=
            { s.rse.pull with
              phase := .idle, buffers := [], timer := none, attempts := min 3 (s.rse.pull.attempts + 1), ending := none } }
    testFull
      (setChan (some .excluded)
        (recordEvent (.pullEnded (peerPosition s.position l) result (some cause) s.rse.pull.received) (setAgreed false t)))
  | none => s

/-- Every signed region becomes NORMAL (R14). -/
def mendRegions (s : State) : State :=
  { s with
    rgt.entries := s.rgt.entries.map (fun e => if e.2.desc.signed then (e.1, { e.2 with state := .normal }) else e) }

/-- A pull succeeds (R149). -/
def succeedPull (f : PullEndFrame) (entries : List SigEntry) (s : State) : State :=
  match s.rse.pull.server with
  | some l =>
    let delta := s.rse.pull.kind == some .delta
    let t :=
      { mendRegions s with
        cju :=
          { s.cju with
            cycle := f.tag, repair := [], repairOverflow := false, wPrevValid := delta,
            wPrev := if delta then s.cju.wPrev else [] }
        vtu.closedSet := entries
        rse.pull := { s.rse.pull with phase := .idle, timer := none, attempts := 0, ending := none } }
    recordEvent (.pullEnded (peerPosition s.position l) (some .done) none s.rse.pull.received)
      (sortKept (enterReady (setAgreed true t)))
  | none => s

/-- A slot passes the completion check (R149). -/
def slotPasses (s : State) (entries : List SigEntry) (k : Nat) : Bool :=
  let e := entries.getD k ⟨.reserved, 0⟩
  match e.flag with
  | .absent => (slotRegion s k).isNone
  | .valid => (slotRegion s k).isSome && sigOf s k == e.value && s.rse.pull.clean.getLsbD k
  | _ => false

/-- The completion check (R149). -/
def completionCheck (s : State) : State :=
  match s.rse.pull.ending with
  | some f =>
    match f.entries with
    | some entries =>
      if (List.range Config.sigSlots).all (slotPasses s entries) then succeedPull f entries s
      else failPull .mismatch (some f.result) s
    | none => s
  | none => s

/-! ### Signing and re-signing (R62, R63) -/

/-- The slots in use whose regions satisfy a test, in ascending order. -/
def slotsWith (s : State) (test : Region → Bool) : List Nat :=
  (List.range Config.sigSlots).filter (fun k =>
    match slotRegion s k with
    | some e => test e.2
    | none => false)

/-- The pass goes on to the first of these slots, or ends (R62). A re-signing pass sets the clean flag of the slot
(R149). -/
def beginRegion (slots : List Nat) (bad : Nat) (s : State) : State :=
  match slots with
  | [] => { s with sgu.pass := none }
  | k :: _ =>
    match slotRegion s k with
    | some e =>
      { s with
        sgu.pass := some ⟨slots, e.2.desc.first, 0, bad⟩
        rse.pull.clean := if s.dev = .signing then s.rse.pull.clean else s.rse.pull.clean ||| ((1 : BitVec 16) <<< k) }
    | none => { s with sgu.pass := none }

/-- The value that a pass takes for a word becomes its stored value (R62; notes/assumptions/8). -/
def takeStored (a : Nat) (v : Word) (s : State) : State :=
  { s with mpu.mem := memPut s.mpu.mem a { memGet s.mpu.mem a with stored := v } }

/-- A SETUP grant of a signing or re-signing pass (R62, R63). -/
def signBlock (s : State) : State :=
  match s.sgu.pass with
  | some p =>
    match p.slots with
    | k :: rest =>
      match slotRegion s k with
      | some e =>
        let d := e.2.desc
        let words := (blockWords p.block).zip (readBlock s p.block)
        let sum := (p.sum + (words.map (fun w => wordTerm d (offsetIn d w.1) w.2.value)).sum) % Config.p
        let bad := min Config.count16Max (p.bad + words.countP (fun w => w.2.cond == .uncorrectable))
        let t := words.foldl (fun s w => takeStored w.1 w.2.value s) (scrubBlock findInPass p.block s)
        if p.block + 1 < d.first + d.count then { t with sgu.pass := some ⟨p.slots, p.block + 1, sum, bad⟩ }
        else beginRegion rest bad (setSig k sum t)
      | none => s
    | [] => s
  | none => s

/-! ### Receiving (R145 to R148) -/

/-- An event of a link error, at most one for each link and 100 ms window (R109). -/
def linkErrorEvent (l : Link) (reason : LinkReason) (addr : Option Nat) (s : State) : State :=
  let p := s.lkc.peers.get l
  let window := s.cmu.ms.toNat / 100
  if p.window = some window then s
  else
    recordEvent (.linkError (peerPosition s.position l) reason addr)
      { s with lkc.peers := s.lkc.peers.put l { p with window := some window } }

/-- The block is part of the pull (R145). -/
def partOfPull (s : State) (f : BlockFrame) : Bool :=
  match s.rse.pull.kind with
  | some .delta => vitalBlock s f.block.toNat && f.tag == s.rse.pull.target
  | some .full =>
    match regionOf s f.block.toNat with
    | some e => e.2.desc.signed && s.rse.pull.regionSet.getLsbD e.2.desc.slot
    | none => false
  | none => false

/-- The lowest free buffer (R145). -/
def freeBuffer (bs : List Buffer) : Option Nat :=
  (List.range Config.creditMax).find? (fun k => bs.all (fun b => b.slot != k))

/-- The requester role is handed a BLOCK (R145, R147). -/
def takeBlock (l : Link) (f : BlockFrame) (s : State) : State :=
  if s.rse.pull.phase = .receiving ∧ s.rse.pull.server = some l then
    let t := { s with rse.pull.timer := some s.times.pullSilence }
    if partOfPull t f then
      match freeBuffer t.rse.pull.buffers with
      | some k =>
        { t with
          rse.pull :=
            { t.rse.pull with
              buffers := t.rse.pull.buffers ++ [⟨k, f.block.toNat, f.words⟩]
              received := satInc Config.count32Max t.rse.pull.received } }
      | none => linkErrorEvent l .noBuffer (some (64 * f.block.toNat)) t
    else linkErrorEvent l .unexpectedBlock (some (64 * f.block.toNat)) t
  else s

/-- Once every buffer is written, the checks of R148 and, if they hold, the re-signing pass or the completion check. The regions
to re-sign are those SUSPECT at this moment (R63; notes/assumptions/39). -/
def pullProgress (s : State) : State :=
  if s.rse.pull.phase = .completing ∧ s.rse.pull.buffers = [] ∧ s.sgu.pass = none then
    match s.rse.pull.ending with
    | some f =>
      if s.rse.pull.kind = some .delta ∧ f.tag ≠ s.rse.pull.target then failPull .mismatch (some f.result) s
      else if f.sent.toNat ≠ s.rse.pull.received then failPull .count (some f.result) s
      else
        match slotsWith s Region.suspect with
        | [] => completionCheck s
        | slots => beginRegion slots 0 s
    | none => s
  else s

/-- The requester role is handed a PULL_END (R148, R149). -/
def takePullEnd (l : Link) (f : PullEndFrame) (s : State) : State :=
  if s.rse.pull.phase = .receiving ∧ s.rse.pull.server = some l then
    if f.result = .done ∧ f.entries.isSome = true then
      pullProgress
        { s with
          rse.pull :=
            { s.rse.pull with
              phase := .completing, timer := none, ending := some f,
              clean := slotMask (slotsWith s (fun r => !r.suspect)) } }
    else failPull .serverResult (some f.result) s
  else s

/-- The LINK grant of a pull: the oldest buffer is written out and a credit returned (R146). -/
def writeBuffer (s : State) : State :=
  match s.rse.pull.buffers, s.rse.pull.server with
  | b :: rest, some l =>
    let t := overwriteAll (blockWrites b.block b.words) s
    let t := if s.rse.pull.kind = some .delta then { t with cju.wPrev := setInsert t.cju.wPrev b.block } else t
    pullProgress (sendCtrl (.credit 1) l { t with rse.pull.buffers := rest })
  | _, _ => s

end Sys2Proof.Machine
end

