-- ==== Sys2Proof/Machine/Votes.lean ====
section
/-! DEFINITION. The vote: agreement, the decision, its outcomes and their completion (R124 to R135), the rollback check and
the frames that the CJU hands over (R74, R78, R86). -/

namespace Sys2Proof.Machine

open Sys2Proof

/-! ### Agreement (R126) -/

/-- Two entries of a slot agree: both ABSENT, or both VALID with equal values. -/
def entryAgrees (a b : SigEntry) : Bool :=
  match a.flag, b.flag with
  | .absent, .absent => true
  | .valid, .valid => a.value == b.value
  | _, _ => false

/-- Two frames agree (R126). -/
def framesAgree (f g : VoteFrame) : Bool :=
  f.cycle == g.cycle && f.kind == g.kind &&
    (List.range Config.sigSlots).all (fun k =>
      entryAgrees (f.entries.getD k ⟨.reserved, 0⟩) (g.entries.getD k ⟨.reserved, 0⟩))

/-- The peer has a frame present and it agrees with the own one. -/
def peerAgrees (own : VoteFrame) (f : Option VoteFrame) : Bool :=
  match f with
  | some g => framesAgree own g
  | none => false

/-- The CURRENT frame of a peer (R122). -/
def currentFrame (s : State) (l : Link) : Option VoteFrame :=
  (s.vtu.table.get l).find? (fun f => f.cycle == voteCycle s)

/-! ### The outcome (R127) -/

/-- What R127 rules: an outcome, with the server that OUTVOTED names, or a rollback at the decision. -/
inductive Ruling where
  | outcome (o : VoteOutcome) (server : Option Link)
  | rollback (majority : VoteFrame)
deriving DecidableEq, Repr

/-- Some signed region is SUSPECT_UNLOCATED. -/
def anyUnlocated (s : State) : Bool := s.rgt.entries.any (fun e => e.2.desc.signed && e.2.state == .suspectUnlocated)

/-- A majority of the two peers' frames that agree with one another and not with the own frame (R126). -/
def peerMajority (own : VoteFrame) (frames : PerLink (Option VoteFrame)) : Option VoteFrame :=
  match frames.one, frames.two with
  | some p, some q => if framesAgree p q && !framesAgree own p then some p else none
  | _, _ => none

/-- The first line of the table of R127 that applies. -/
def rule (s : State) (own : VoteFrame) (frames : PerLink (Option VoteFrame)) : Ruling :=
  let one := peerAgrees own frames.one
  let two := peerAgrees own frames.two
  if one || two then
    match own.kind with
    | .closed => .outcome (if one && two then .member3 else .member2) none
    | .abandoned => .outcome .collectiveAbandon none
  else
    match peerMajority own frames with
    | some p =>
      if p.kind = .abandoned ∧ own.kind = .closed ∧ s.cju.unrevertible = false then .rollback p
      else if p.kind = .closed ∧ own.kind = .abandoned ∧ s.cju.unrevertible = false ∧ s.vtu.agreedBase = true ∧
          anyUnlocated s = false ∧ s.cju.repairOverflow = false then
        .outcome .outvoted (linksByPosition s).head?
      else .outcome .excluded none
    | none =>
      if own.kind = .abandoned ∧ s.cju.unrevertible = true then .outcome .excluded none else .outcome .noQuorum none

/-! ### Effects of the outcomes (R128 to R133) -/

/-- The blocks that carry W_CUR and lie behind the walk of the active FULL service get a RESEND mark (R156). -/
def markResend (s : State) : State :=
  if serving s = true ∧ s.rse.service.kind = some .full then
    let behind := s.cju.wCur.filter (fun b =>
      (setRegions s s.rse.service.regionSet).any (fun d => d.covers b) &&
        match s.rse.service.walkPos with
        | some (.block w) => b < w
        | some .finished => true
        | none => false)
    { s with cju.resend := setUnion s.cju.resend behind }
  else s

/-- The cycle closes: W_CUR moves into W_PREV, the journal is emptied, c advances, and the closed set is the own frame's
(R128, R133). -/
def advance (own : VoteFrame) (s : State) : State :=
  { s with
    cju :=
      { s.cju with
        wPrev := s.cju.wCur, wPrevValid := true, wCur := [], journal := [], unrevertible := false,
        cycle := s.cju.cycle + 1 }
    vtu.closedSet := own.entries }

/-- The change of c ends a DELTA service (R154). -/
def staleDelta (s : State) : State :=
  if s.rse.service.kind = some .delta then endService .stale none s else s

/-- MEMBER_3 and MEMBER_2 (R128). -/
def memberOutcome (own : VoteFrame) (s : State) : State :=
  let t := enterReady (setAgreed true (staleDelta (advance own (markResend s))))
  if anySuspect t then t else raisePermit t

/-- The NEXT slots are emptied: v is repeated (R124). -/
def emptyNext (s : State) : State :=
  let keep := fun (t : List VoteFrame) => t.filter (fun f => f.cycle != voteCycle s + 1)
  { s with vtu.table := ⟨keep s.vtu.table.one, keep s.vtu.table.two⟩ }

/-- COLLECTIVE_ABANDON (R129). -/
def abandonOutcome (s : State) : State := enterReady (emptyNext s)

/-- NO_QUORUM (R133); a DELTA service ended by the change of c ends with STALE (notes/assumptions/18). -/
def noQuorumOutcome (own : VoteFrame) (s : State) : State :=
  match own.kind with
  | .closed => enterReady (endIfLost (setAgreed false (staleDelta (advance own s))))
  | .abandoned => enterReady (endIfLost (setAgreed false (emptyNext s)))

/-- OUTVOTED, as far as the channel state (R131). -/
def outvotedOutcome (s : State) : State := setChan (some .catchup) (endService .serverLost none s)

/-- EXCLUDED, as far as the channel state (R132). -/
def excludedOutcome (s : State) : State :=
  setChan (some .excluded) (endIfLost (setAgreed false (clearPrev (emptyJournal s))))

/-- What an outcome does to the channel. -/
def applyOutcome (o : VoteOutcome) (own : VoteFrame) (s : State) : State :=
  match o with
  | .member3 => memberOutcome own s
  | .member2 => memberOutcome own s
  | .collectiveAbandon => abandonOutcome s
  | .outvoted => outvotedOutcome s
  | .excluded => excludedOutcome s
  | .noQuorum => noQuorumOutcome own s

/-! ### Completing a decision (R134) -/

/-- The peer's place at the decision (R134). -/
def viewAt (own : VoteFrame) (f : Option VoteFrame) : View :=
  match f with
  | some g =>
    if framesAgree own g then .member
    else
      match g.kind with
      | .abandoned => .abandoned
      | .closed => .dissent
  | none => .absent

/-- Bit of a channel position in a set of positions (12.1). -/
def positionBit (n : Nat) : BitVec 3 := (1 : BitVec 3) <<< n

/-- The agreeing set (R126). -/
def agreeingSet (position : BitVec 2) (own : VoteFrame) (frames : PerLink (Option VoteFrame)) : BitVec 3 :=
  positionBit position.toNat |||
    (if peerAgrees own frames.one then positionBit (peerPosition position .one) else 0) |||
    (if peerAgrees own frames.two then positionBit (peerPosition position .two) else 0)

/-- The peer views of a decision (R134). -/
def setViews (own : VoteFrame) (frames : PerLink (Option VoteFrame)) (s : State) : State :=
  { s with
    lkc.peers :=
      ⟨{ s.lkc.peers.one with view := viewAt own frames.one }, { s.lkc.peers.two with view := viewAt own frames.two }⟩ }

/-- Replace the last decision, with a DECISION event where outcome or agreeing set is new (R134). -/
def recordDecision (d : Decision) (s : State) : State :=
  let t := { s with vtu.last := some d }
  let same :=
    match s.vtu.last with
    | some old => old.outcome == d.outcome && old.agreeing == d.agreeing
    | none => false
  if same then t else recordEvent (.decision d.outcome d.agreeing d.cycle) t

/-- What follows a completed decision: the DELTA pull of OUTVOTED, or the test of R143 (R131, R132). -/
def afterDecision (o : VoteOutcome) (server : Option Link) (s : State) : State :=
  match o, server with
  | .outvoted, some l => startDelta l s
  | .excluded, _ => testFull s
  | _, _ => s

/-- Complete a decision with an outcome (R128 to R134; notes/assumptions/16). -/
def completeDecision (o : VoteOutcome) (server : Option Link) (own : VoteFrame) (frames : PerLink (Option VoteFrame))
    (s : State) : State :=
  let d : Decision := ⟨o, voteCycle s, agreeingSet s.position own frames, s.cmu.ms⟩
  afterDecision o server (recordDecision d (setViews own frames (reconsiderMarks (applyOutcome o own s))))

/-! ### The rollback check (R86, R130) -/

/-- The check of one region at the end of a rollback. -/
def checkRegion (s : State) (e : Nat × Region) : State :=
  if e.2.desc.signed && !e.2.suspect then
    let c := s.vtu.closedSet.getD e.2.desc.slot ⟨.absent, 0⟩
    if c.flag = .valid ∧ c.value ≠ sigOf s e.2.desc.slot then
      suspectPermit e.1
        (recordEvent (.rollbackCheckFault e.1 (sigOf s e.2.desc.slot) c.value) (markSuspect e.1 false s))
    else s
  else s

/-- The rollback check, region by region in ascending order of index (R86). -/
def rollbackCheck (s : State) : State := s.rgt.entries.foldl checkRegion s

/-- A decision being completed at a rollback is completed with the post-rollback frame (R130). -/
def finishDecisionRollback (d : Deciding) (s : State) : State :=
  let t := rollbackCheck s
  let post : VoteFrame := ⟨voteCycle t, .abandoned, ownEntries t⟩
  let u := { t with vtu := { t.vtu with own := some post, deciding := none } }
  completeDecision (if framesAgree post d.majority then .collectiveAbandon else .excluded) none post d.frames u

/-! ### Taking a decision (R124, R125) -/

/-- The CURRENT slots are emptied and the vote timer stops (R124, R125). -/
def takeFrames (s : State) : State :=
  let keep := fun (t : List VoteFrame) => t.filter (fun f => f.cycle != voteCycle s)
  { s with vtu := { s.vtu with timer := none, table := ⟨keep s.vtu.table.one, keep s.vtu.table.two⟩ } }

/-- An outcome that keeps PERMIT. -/
def memberRank (o : VoteOutcome) : Bool :=
  match o with
  | .member3 => true
  | .member2 => true
  | _ => false

/-- Take the decision (R125 to R130). One that begins a rollback counts for a waiting server only at the rollback's grants and
when it is completed (R156; notes/assumptions/47). -/
def takeDecision (s : State) : State :=
  match s.vtu.own with
  | some own =>
    let frames : PerLink (Option VoteFrame) := ⟨currentFrame s .one, currentFrame s .two⟩
    let t := takeFrames s
    match rule s own frames with
    | .outcome o server =>
      completeDecision o server own frames (if memberRank o then t else dropPermit (.outcome (some o)) t)
    | .rollback majority =>
      let d : Deciding := ⟨frames, majority⟩
      let u := setChan (some .rollingBack) { dropPermit (.outcome none) t with vtu.deciding := some d }
      if u.cju.journal = [] then finishDecisionRollback d u else u
  | none => s

/-- Every peer that is HEARD has a CURRENT frame (R125). -/
def allHeardPresent (s : State) : Bool :=
  (!s.lkc.peers.one.heard || (currentFrame s .one).isSome) && (!s.lkc.peers.two.heard || (currentFrame s .two).isSome)

/-- The condition of R125 is tested. -/
def testDecision (s : State) : State :=
  if s.cju.chan = some .voting ∧ allHeardPresent s = true then takeDecision s else s

/-- The link state of a peer has changed: the VTU and the RSE act on it (R118, R125, R143). -/
def linkChanged (s : State) : State := testFull (testDecision s)

/-! ### The own vote frame (R74, R78, R86) -/

/-- The CJU hands the own vote frame over: it is sent, the vote timer starts, the channel enters VOTING, and the condition
of R125 is tested. -/
def handOver (f : VoteFrame) (s : State) : State :=
  testDecision
    (setChan (some .voting)
      (sendBoth (.vote f) { s with vtu := { s.vtu with own := some f, timer := some s.times.voteTimeout } }))

/-- The frame of a close or of a rolled back cycle (R74, R86). -/
def ownFrame (kind : VoteKind) (s : State) : VoteFrame := ⟨voteCycle s, kind, ownEntries s⟩

/-- The frame of a cycle that could not be rolled back: every entry SUSPECT (R78). -/
def unrevertibleFrame (s : State) : VoteFrame :=
  ⟨voteCycle s, .abandoned, (List.range Config.sigSlots).map (fun k =>
    ⟨.suspect, if (slotRegion s k).isSome then sigOf s k else 0⟩)⟩

/-- The rollback has put every entry back (R86). -/
def finishRollback (s : State) : State :=
  match s.vtu.deciding with
  | some d => finishDecisionRollback d s
  | none =>
    let t := rollbackCheck s
    handOver (ownFrame .abandoned t) t

/-! ### Abandoning a cycle (R77, R78) -/

/-- The channel is OPEN or CLOSING. -/
def cycleOpen (s : State) : Bool := s.cju.chan == some .opened || s.cju.chan == some .closing

/-- The CJU takes an abandon (R77). -/
def abandon (cause : AbandonCause) (s : State) : State :=
  if cycleOpen s then
    let t := recordEvent (.abandoned cause) (dropPermit .abandon s)
    let u := dropSigned { t with cju.timer := none }
    if u.cju.unrevertible then handOver (unrevertibleFrame u) u
    else
      let w := setChan (some .rollingBack) u
      if w.cju.journal = [] then finishRollback w else w
  else s

/-- An UNCORRECTABLE word of a signed region, found on the transaction path or by a capture while the device is RUNNING,
abandons an OPEN or CLOSING cycle (R34, R76, R80). -/
def abandonFor (a : Nat) (s : State) : State :=
  match regionOf s (blockOf a) with
  | some (index, r) =>
    if r.desc.signed = true ∧ s.dev = .running then abandon (.uncorrectable index (byteAddr a)) s else s
  | none => s

/-- The drain of a close has ended (R74). -/
def endDrain (s : State) : State :=
  if s.cju.repair ≠ [] ∨ s.cju.repairOverflow = true then abandon .repairPending s
  else handOver (ownFrame .closed s) s

end Sys2Proof.Machine
end

