-- ==== Sys2Proof/Machine/Commands.lean ====
section
/-! DEFINITION. The command unit: how a command frame is taken, checked and answered (R168 to R171), what each command does
when it is taken, and what the draining ones do once the posted-write queue is empty (R8, R36). -/

namespace Sys2Proof.Machine

open Sys2Proof

/-! ### Answering (R170) -/

/-- Complete the response: data words and check word first, then the header. The command buffer is emptied
(notes/assumptions/14). -/
def respond (status : Status) (detail : Nat) (tag : Byte) (data : List Word) (s : State) : State :=
  let h : Header := ⟨status, detail, tag, data.length⟩
  { s with
    cmu :=
      { s.cmu with
        response := putWords s.cmu.response 1 (data ++ [frameCheck (headerWord h :: data)]), header := h, buffer := none } }

/-- Answer DONE with data words. -/
def done (tag : Byte) (data : List Word) (s : State) : State := respond .done 0 tag data s

/-- Answer ACCEPTED. -/
def accepted (tag : Byte) (s : State) : State := respond .accepted 0 tag [] s

/-- Answer REFUSED_STATE with a subcode. -/
def refusedState (c : Subcode) (tag : Byte) (s : State) : State := respond .refusedState (subcodeCode c) tag [] s

/-- Answer BAD_FIELD with the number of the parameter word. -/
def badField (word : Nat) (tag : Byte) (s : State) : State := respond .badField word tag [] s

/-! ### The checks of a command (R169, steps 3 to 5) -/

/-- The parameter lengths a command takes (11.3). -/
def lengthFits (cmd : Command) (n : Nat) : Bool :=
  match cmd with
  | .clearTable => n ≤ 1
  | .loadRegion => n == 9
  | .loadSlots => n == 16
  | .setTiming => n == 4
  | .setQueue => n == 2
  | .initMemory => n == 2
  | .restore => n ≤ 1
  | .setPatrol => n == 2
  | .setAlertMask => n == 1
  | .readRegion => n == 1
  | .readEvents => n == 1
  | _ => n == 0

/-- The commands taken while INIT_MEMORY runs (R51). -/
def takenInInit (cmd : Command) : Bool :=
  match cmd with
  | .readState => true
  | .readRegion => true
  | .readEvents => true
  | .reset => true
  | _ => false

/-- A subcode unless the device is CONFIGURING (R161). -/
def unlessConfiguring (c : Subcode) (s : State) : Option Subcode := if s.dev = .configuring then none else some c

/-- OPEN_CYCLE by channel state (R71). -/
def openRefusal (c : Option ChannelState) : Option Subcode :=
  match c with
  | some .ready => none
  | some .opened => none
  | some .closing => some .notDecided
  | some .voting => some .notDecided
  | some .rollingBack => some .notDecided
  | some .catchup => some .restoreActive
  | some .restoring => some .restoreActive
  | some .excluded => some .needsRestore
  | none => some .notRunning

/-- CLOSE_CYCLE by channel state (R73). -/
def closeRefusal (c : Option ChannelState) : Option Subcode :=
  match c with
  | some .opened => none
  | some .closing => none
  | some .voting => none
  | some .ready => some .notOpen
  | some .rollingBack => some .notOpen
  | some .excluded => some .notOpen
  | some .catchup => some .restoreActive
  | some .restoring => some .restoreActive
  | none => some .notRunning

/-- ABANDON_CYCLE by channel state (R75). -/
def abandonRefusal (c : Option ChannelState) : Option Subcode :=
  match c with
  | some .opened => none
  | some .closing => none
  | some .ready => some .notOpen
  | some .voting => some .notOpen
  | some .rollingBack => some .notOpen
  | some .excluded => some .notOpen
  | some .catchup => some .restoreActive
  | some .restoring => some .restoreActive
  | none => some .notRunning

/-- RESTORE by channel state (R144). -/
def restoreRefusal (c : Option ChannelState) (agreedBase : Bool) : Option Subcode :=
  match c with
  | some .excluded => none
  | some .ready => if agreedBase then some .notNeeded else none
  | some .opened => some .notDecided
  | some .closing => some .notDecided
  | some .voting => some .notDecided
  | some .rollingBack => some .notDecided
  | some .catchup => some .restoreActive
  | some .restoring => some .restoreActive
  | none => some .notRunning

/-- A cycle command's refusal: NOT_RUNNING outside RUNNING, else by channel state. -/
def whileRunning (s : State) (r : Option Subcode) : Option Subcode :=
  if s.dev = .running then r else some .notRunning

/-- Step 5 of R169: the device state and the channel state permit the command (11.3). -/
def stateRefusal (cmd : Command) (s : State) : Option Subcode :=
  match cmd with
  | .clearTable => unlessConfiguring .tableFrozen s
  | .loadRegion => unlessConfiguring .tableFrozen s
  | .loadSlots => unlessConfiguring .notConfiguring s
  | .setTiming => unlessConfiguring .notConfiguring s
  | .setQueue => unlessConfiguring .notConfiguring s
  | .initMemory => unlessConfiguring .notConfiguring s
  | .endConfig => unlessConfiguring .notConfiguring s
  | .openCycle => whileRunning s (openRefusal s.cju.chan)
  | .closeCycle => whileRunning s (closeRefusal s.cju.chan)
  | .abandonCycle => whileRunning s (abandonRefusal s.cju.chan)
  | .restore => whileRunning s (restoreRefusal s.cju.chan s.vtu.agreedBase)
  | _ => none

/-! ### What the commands do when they are taken -/

/-- CLEAR_TABLE waits for the queue to drain, its index checked (R7, R8). -/
def takeClearTable (tag : Byte) (ps : List Word) (s : State) : State :=
  if ps.length = 1 ∧ ¬ param ps 1 < Config.regions then badField 1 tag s else s

/-- The first word of LOAD_SLOTS that fails its checks (R49). -/
def slotsFault (ps : List Word) : Option Nat :=
  let classes := ps.map (fun w => portClassOf w.toNat)
  match classes.findIdx? Option.isNone with
  | some i => some (i + 1)
  | none =>
    if [PortClass.proc, .journal, .patrol, .link, .setup].all (fun c => classes.contains (some c)) then none else some 16

/-- LOAD_SLOTS (R49). -/
def takeLoadSlots (tag : Byte) (ps : List Word) (s : State) : State :=
  match slotsFault ps with
  | some word => badField word tag s
  | none =>
    done tag [] { s with mpu := { s.mpu with slots := ps.filterMap (fun w => portClassOf w.toNat), pointer := 0 } }

/-- A value clamped to a range. -/
def clamp (low high v : Nat) : Nat := max low (min high v)

/-- A HEARD record whose peer silence time has passed since its last frame (R118). -/
def silenceDue (l : Link) (s : State) : Bool :=
  let p := s.lkc.peers.get l
  p.heard && decide (s.times.peerSilence ≤ (s.cmu.ms - p.lastFrame.getD s.cmu.ms).toNat)

/-- A HEARD record whose peer silence time has passed becomes SILENT (R118). -/
def silenceCheck (l : Link) (s : State) : State :=
  let p := s.lkc.peers.get l
  if silenceDue l s then
    linkChanged
      (recordEvent (.peerState (peerPosition s.position l) false p.matched)
        { s with lkc.peers := s.lkc.peers.put l { p with heard := false } })
  else s

/-- The times that SET_TIMING stores (R162). -/
def clampedTimes (ps : List Word) : Times :=
  ⟨clamp 10 5000 (param ps 1), clamp 2 200 (param ps 2), clamp 20 250 (param ps 3), clamp 5 100 (param ps 4)⟩

/-- SET_TIMING (R118, R162). Where both peers become SILENT, link 1 is first (notes/assumptions/48). -/
def takeSetTiming (tag : Byte) (ps : List Word) (s : State) : State :=
  let t := clampedTimes ps
  settle
    (done tag ([t.cycleLimit, t.voteTimeout, t.peerSilence, t.pullSilence].map (BitVec.ofNat 32))
      (silenceCheck .two (silenceCheck .one { s with times := t })))

/-- The upper threshold that SET_QUEUE stores (R29). -/
def clampedUpper (ps : List Word) : Nat := clamp 4 32 (param ps 1)

/-- The lower threshold that SET_QUEUE stores (R29). -/
def clampedLower (ps : List Word) : Nat := min (clampedUpper ps - 1) (param ps 2)

/-- SET_QUEUE (R29). -/
def takeSetQueue (tag : Byte) (ps : List Word) (s : State) : State :=
  let u := { s with pwq := { s.pwq with upper := clampedUpper ps, lower := clampedLower ps } }
  settle (done tag ([clampedUpper ps, clampedLower ps].map (BitVec.ofNat 32)) (lowerHold (raiseHold u)))

/-- INIT_MEMORY waits for the queue to drain, its parameters checked (R50). -/
def takeInitMemory (tag : Byte) (ps : List Word) (s : State) : State :=
  if ¬ param ps 1 < Config.blocks then badField 1 tag s
  else if ¬ (1 ≤ param ps 2 ∧ param ps 2 ≤ Config.blocks ∧ param ps 1 + param ps 2 ≤ Config.blocks) then badField 2 tag s
  else s

/-- OPEN_CYCLE in READY or OPEN (R71, R72). -/
def takeOpenCycle (tag : Byte) (s : State) : State :=
  if s.cju.chan = some .ready then
    settle (done tag [] (setChan (some .opened) { s with cju.timer := some s.times.cycleLimit }))
  else done tag [] s

/-- CLOSE_CYCLE in OPEN, CLOSING or VOTING (R72, R73). -/
def takeCloseCycle (tag : Byte) (s : State) : State :=
  if s.cju.chan = some .opened then
    settle (accepted tag (setChan (some .closing) { s with cju.timer := none }))
  else done tag [] s

/-- ABANDON_CYCLE in OPEN or CLOSING (R75). -/
def takeAbandonCycle (tag : Byte) (s : State) : State := settle (accepted tag (abandon .command s))

/-- The server of a RESTORE: the named donor if it is eligible, else the choice of R141 (R144). -/
def restoreServer (s : State) (ps : List Word) : Option Link :=
  match ps with
  | [] => chooseServer s
  | w :: _ => (linksByPosition s).find? (fun l => peerPosition s.position l == w.toNat && eligible s l)

/-- RESTORE in EXCLUDED, or in READY with the agreed base false (R144): the donor word is checked before a server is looked for
(notes/assumptions/42). -/
def takeRestore (tag : Byte) (ps : List Word) (s : State) : State :=
  if ps.length = 1 ∧ (2 < param ps 1 ∨ param ps 1 = s.position.toNat) then badField 1 tag s
  else
    match restoreServer s ps with
    | some l => settle (accepted tag (startFull l { s with rse.pull.attempts := 0 }))
    | none => refusedState .noServer tag s

/-- The descriptors with the patrol flag set. -/
def patrolled (s : State) : List Descriptor := (s.rgt.entries.map (fun e => e.2.desc)).filter Descriptor.patrol

/-- The walk begins (R94). -/
def startWalk (s : State) : State :=
  { s with
    ptu :=
      { s.ptu with
        position := nextBlock (patrolled s) 0, acc := 0, comparable := false, turned := false, request := false,
        timer := some s.ptu.interval } }

/-- The walk stops, or rests: the position stands at the lowest patrolled block (R94, R104). -/
def stopWalk (s : State) : State :=
  { s with
    ptu :=
      { s.ptu with
        position := nextBlock (patrolled s) 0, acc := 0, comparable := false, turned := false, request := false,
        timer := none } }

/-- SET_PATROL (R93). -/
def takeSetPatrol (tag : Byte) (ps : List Word) (s : State) : State :=
  if 1 < param ps 1 then badField 1 tag s
  else
    let enable := param ps 1 == 1
    let interval := clamp 1 1023 (param ps 2)
    let t := { s with ptu := { s.ptu with enable := enable, interval := interval } }
    let u :=
      if s.dev = .running ∧ enable ≠ s.ptu.enable then (if enable then startWalk t else stopWalk t) else t
    done tag ([bit enable, interval].map (BitVec.ofNat 32)) u

/-- SET_ALERT_MASK (R179). -/
def takeSetAlertMask (tag : Byte) (ps : List Word) (s : State) : State :=
  if ¬ param ps 1 < 2 ^ 19 then badField 1 tag s
  else
    done tag [BitVec.ofNat 32 (param ps 1)] { s with cmu := Cmu.retest { s.cmu with mask := BitVec.ofNat 19 (param ps 1) } }

/-- READ_REGION (R173). -/
def takeReadRegion (tag : Byte) (ps : List Word) (s : State) : State :=
  if ¬ param ps 1 < Config.regions then badField 1 tag s else done tag (regionWords s (param ps 1)) s

/-- READ_EVENTS: the oldest records leave the queue (R175, R180). -/
def takeReadEvents (tag : Byte) (ps : List Word) (s : State) : State :=
  if param ps 1 = 0 ∨ 8 < param ps 1 then badField 1 tag s
  else
    let rs := s.cmu.events.take (param ps 1)
    done tag (eventsWords rs s.cmu.dropped)
      { s with cmu := Cmu.retest { s.cmu with events := s.cmu.events.drop (param ps 1) } }

/-- What a command does that has passed steps 1 to 5 of R169. A draining command stays PENDING. -/
def effectOf (cmd : Command) (tag : Byte) (ps : List Word) (s : State) : State :=
  match cmd with
  | .clearTable => takeClearTable tag ps s
  | .loadRegion => s
  | .loadSlots => takeLoadSlots tag ps s
  | .setTiming => takeSetTiming tag ps s
  | .setQueue => takeSetQueue tag ps s
  | .initMemory => takeInitMemory tag ps s
  | .endConfig => s
  | .openCycle => takeOpenCycle tag s
  | .closeCycle => takeCloseCycle tag s
  | .abandonCycle => takeAbandonCycle tag s
  | .restore => takeRestore tag ps s
  | .setPatrol => takeSetPatrol tag ps s
  | .setAlertMask => takeSetAlertMask tag ps s
  | .readState => done tag (stateWords s) s
  | .readRegion => takeReadRegion tag ps s
  | .readPeers => done tag (peersWords s) s
  | .readEvents => takeReadEvents tag ps s
  | .reset => s

/-- The header becomes PENDING with tag 0 and length 0 (R168). -/
def pend (s : State) : State := { s with cmu.header := ⟨.pending, 0, 0, 0⟩ }

/-- Take a command whose frame has passed steps 1 and 2 of R169: steps 3 to 5, then its effect. -/
def takeCommand (cmd : Command) (tag : Byte) (ps : List Word) (s : State) : State :=
  let t := { pend s with cmu.buffer := some ⟨cmd, tag, ps⟩ }
  if lengthFits cmd ps.length = false then respond .badLength 0 tag [] t
  else if s.mpu.initOp.isSome = true ∧ takenInInit cmd = false then respond .refusedBusy 0 tag [] t
  else
    match stateRefusal cmd s with
    | some c => refusedState c tag t
    | none => effectOf cmd tag ps t

/-- A submission (R168, R169, R171). -/
def submit (s : State) : State :=
  if s.cmu.header.status = .pending then recordEvent .commandOverrun s
  else
    match parseCommand s.cmu.request with
    | .badCheck => respond .badCheck 0 0 [] (pend s)
    | .unknown tag => respond .unknownCommand 0 tag [] (pend s)
    | .command cmd tag ps => takeCommand cmd tag ps s

/-! ### The draining commands once the queue is empty -/

/-- The drain of the command in the buffer has ended, and it is this command (R8, R36). -/
def drained (cmd : Command) (work : CmdFrame → State → State) (s : State) : State :=
  match s.cmu.buffer with
  | some f => if f.cmd = cmd ∧ s.pwq.entries = [] then work f s else s
  | none => s

/-- The running signature of a signed descriptor's slot becomes 0 (R54). -/
def zeroSlot (d : Descriptor) (s : State) : State := if d.signed then setSig d.slot 0 s else s

/-- An entry of the table is unloaded (R7, R54). -/
def unloadRegion (index : Nat) (s : State) : State :=
  match assocFind s.rgt.entries index with
  | some r => zeroSlot r.desc { s with rgt.entries := assocErase s.rgt.entries index }
  | none => s

/-- A descriptor is stored at its index (R5, R54). -/
def storeRegion (index : Nat) (d : Descriptor) (s : State) : State :=
  let t := unloadRegion index s
  zeroSlot d { t with rgt.entries := assocInsert t.rgt.entries index ⟨d, .normal, 0, 0⟩ }

/-- CLEAR_TABLE takes effect (R7, R94). -/
def clearTableNow (f : CmdFrame) (s : State) : State :=
  let t :=
    match f.params with
    | [] => (List.range Config.regions).foldl (fun s k => unloadRegion k s) s
    | w :: _ => unloadRegion w.toNat s
  settle (done f.tag [] (stopWalk t))

/-- LOAD_REGION makes the checks of R6 and takes effect (R5, R8, R94). -/
def loadRegionNow (f : CmdFrame) (s : State) : State :=
  match regionFault s.rgt.entries f.params with
  | some word => settle (badField word f.tag s)
  | none => settle (done f.tag [] (stopWalk (storeRegion (param f.params 1) (descriptorOf f.params) s)))

/-- INIT_MEMORY begins (R50). -/
def initMemoryNow (f : CmdFrame) (s : State) : State :=
  let first := param f.params 1
  settle (accepted f.tag { s with mpu.initOp := some ⟨first, first, first + param f.params 2⟩ })

/-- The part enters SIGNING (R10, R164). -/
def enterSigning (s : State) : State :=
  let t := setDev .signing { s with rgt.fingerprint := fingerprintOf s.rgt.entries }
  beginRegion (slotsWith t (fun _ => true)) 0 t

/-- Some loaded descriptor is of kind VITAL. -/
def vitalLoaded (s : State) : Bool := s.rgt.entries.any (fun e => e.2.desc.kind == .vital)

/-- END_CONFIG makes its checks (R163). -/
def endConfigNow (f : CmdFrame) (s : State) : State :=
  if s.position = 3 then settle (refusedState .badPosition f.tag s)
  else if vitalLoaded s = false then settle (refusedState .noVitalRegion f.tag s)
  else settle (accepted f.tag (enterSigning s))

/-- What a command reset leaves of the RGT (R15). -/
def resetRgt (r : Rgt) : Rgt :=
  { r with
    entries := r.entries.map (fun e => (e.1, { e.2 with state := .normal, corrected := 0, uncorrectable := 0 })) }

/-- What a command reset leaves of a transmitter: its queue is emptied, a frame in transmission goes on (R120). -/
def resetTx (t : Transmitter) : Transmitter := { t with ctrl := [], blocks := [], stale := sendingBlock t }

/-- What a command reset leaves of the pull record (R159). -/
def resetPull (p : Pull) : Pull :=
  { Pull.initial with kind := p.kind, server := p.server, received := p.received }

/-- What a command reset leaves of the service record (R159). -/
def resetService (r : Service) : Service :=
  { Service.initial with kind := r.kind, requester := r.requester, sent := r.sent, walkPos := r.walkPos }

/-- Every block takes the values its chapter gives for a command reset; the device and channel states and the HELLO they
trigger follow (R15, R37, R53, R68, R91, R105, R120, R138, R159). A peer's match is MISMATCH at once, by the table of R120, where
R119 lets it stand as judged until the next HELLO (notes/assumptions/49). -/
def resetBlocks (s : State) : State :=
  { s with
    rgt := resetRgt s.rgt
    pwq := { s.pwq with entries := [], hold := false }
    mpu := { s.mpu with pointer := 0, writeBack := none, initOp := none }
    sgu := Sgu.initial
    cju := { Cju.initial with chan := s.cju.chan }
    lkc :=
      { s.lkc with
        peers := ⟨Peer.initial, Peer.initial⟩
        tx := ⟨resetTx s.lkc.tx.one, resetTx s.lkc.tx.two⟩ }
    vtu := { Vtu.initial with agreedBase := s.vtu.agreedBase }
    rse := ⟨resetPull s.rse.pull, resetService s.rse.service⟩ }

/-- The command reset takes effect (R37, R167, R176). -/
def resetNow (f : CmdFrame) (s : State) : State :=
  let t := recordEvent .reset (dropPermit .reset (kick (endService .aborted none s)))
  settle (done f.tag [] (stopWalk (setAgreed false (setChan none (setDev .configuring (resetBlocks t))))))

end Sys2Proof.Machine
end

