-- ==== Sys2Proof/Machine/Drains.lean ====
section
/-! DEFINITION. The steps that a drained posted-write queue makes due: the draining commands take effect (R8, R36, R37), and
a close goes on to its vote (R74). -/

namespace Sys2Proof.Machine

open Sys2Proof

/-- CLEAR_TABLE_DRAINED (R7, R8). -/
def execClearTableDrained (s : State) : Host.Outcome State Fault Refusal :=
  .next (whenReady (drained .clearTable clearTableNow) s)

/-- LOAD_REGION_DRAINED (R5, R6, R8). -/
def execLoadRegionDrained (s : State) : Host.Outcome State Fault Refusal :=
  .next (whenReady (drained .loadRegion loadRegionNow) s)

/-- INIT_MEMORY_BEGIN (R50). -/
def execInitMemoryBegin (s : State) : Host.Outcome State Fault Refusal :=
  .next (whenReady (drained .initMemory initMemoryNow) s)

/-- END_CONFIG_CHECKS (R163, R164). -/
def execEndConfigChecks (s : State) : Host.Outcome State Fault Refusal :=
  .next (whenReady (drained .endConfig endConfigNow) s)

/-- COMMAND_RESET (R37, R167, R176). -/
def execCommandReset (s : State) : Host.Outcome State Fault Refusal :=
  .next (whenReady (drained .reset resetNow) s)

/-- The drain of a close ends: no signed entry remains queued (R74). -/
def closeDrained (s : State) : State :=
  if s.cju.chan = some .closing ∧ s.pwq.entries.all (fun e => !e.signed) = true then settle (endDrain s) else s

/-- CLOSE_DRAIN_END (R74; notes/assumptions/32). -/
def execCloseDrainEnd (s : State) : Host.Outcome State Fault Refusal :=
  .next (whenReady closeDrained s)

end Sys2Proof.Machine
end

