-- ==== Sys2Proof/Machine/LinkFrames.lean ====
section
/-! DEFINITION. Frames that arrive on the links (R106 to R110, R118, R119) and the end of a transmission (R116). -/

namespace Sys2Proof.Machine

open Sys2Proof

/-- Put a peer record. -/
def putPeer (l : Link) (p : Peer) (s : State) : State := { s with lkc.peers := s.lkc.peers.put l p }

/-- A valid frame other than a HELLO refreshes its peer's presence (R118). -/
def refresh (l : Link) (s : State) : State :=
  let p := s.lkc.peers.get l
  let t := putPeer l { p with heard := true, lastFrame := some s.cmu.ms } s
  if p.heard then t
  else linkChanged (recordEvent (.peerState (peerPosition s.position l) true p.matched) t)

/-- A HELLO of the pull's server that shows it serving restarts the pull silence timer (R147). -/
def restartSilence (l : Link) (f : HelloFields) (matched : Bool) (s : State) : State :=
  if s.rse.pull.phase = .receiving ∧ s.rse.pull.server = some l ∧ matched = true ∧ f.dev = .running ∧
      f.serviceBusy = true then
    { s with rse.pull.timer := some s.times.pullSilence }
  else s

/-- The channel state in which a requester receives a pull of this kind (R157). -/
def pullState : PullKind → ChannelState
  | .delta => .catchup
  | .full => .restoring

/-- A HELLO of the requester that shows it no longer pulling ends the service (R157). -/
def abortService (l : Link) (f : HelloFields) (s : State) : State :=
  match s.rse.service.kind with
  | some k =>
    if serving s = true ∧ s.rse.service.requester = some l ∧ (f.dev ≠ .running ∨ f.chan ≠ some (pullState k)) then
      endService .aborted none s
    else s
  | none => s

/-- A valid HELLO (R118, R119, R125, R143, R147, R157). One that makes a SILENT peer HEARD is stored, with its match, and has
restarted the pull silence timer and ended the service before the tests of the link-state change (notes/assumptions/44). -/
def receiveHello (l : Link) (fp : BitVec 16) (f : HelloFields) (s : State) : State :=
  let p := s.lkc.peers.get l
  let matched := fp == sentFingerprint s
  let t := putPeer l { p with heard := true, matched := matched, hello := some ⟨f, fp⟩, lastFrame := some s.cmu.ms } s
  let u :=
    if p.heard = true ∧ p.matched = matched then t
    else recordEvent (.peerState (peerPosition s.position l) true matched) t
  let w := abortService l f (restartSilence l f matched u)
  testFull (if p.heard then w else testDecision w)

/-- The distance of a frame's cycle from v (R122). -/
def distance (s : State) (f : VoteFrame) : BitVec 32 := f.cycle - voteCycle s

/-- Put a peer's frames. -/
def putTable (l : Link) (t : List VoteFrame) (s : State) : State := { s with vtu.table := s.vtu.table.put l t }

/-- The vote table is handed a frame of a channel that can vote (R122). -/
def placeVote (l : Link) (f : VoteFrame) (s : State) : State :=
  if distance s f = 0 then testDecision (putTable l (placeFrame f (s.vtu.table.get l)) s)
  else if distance s f = 1 then putTable l (placeFrame f (s.vtu.table.get l)) s
  else if (distance s f).toNat < 2 ^ 31 then s
  else if (s.lkc.peers.get l).view = .member then recordEvent (.late (peerPosition s.position l) f.cycle) s
  else s

/-- The channel keeps the two most recent frames of each peer, whatever their cycles (R123). -/
def keepsRecent (s : State) : Bool :=
  match s.cju.chan with
  | none => true
  | some .catchup => true
  | some .excluded => true
  | some .restoring => true
  | _ => false

/-- The vote table is handed a frame (R122, R123). -/
def takeVote (l : Link) (f : VoteFrame) (s : State) : State :=
  if keepsRecent s then putTable l (keepRecent f (s.vtu.table.get l)) s else placeVote l f s

/-- A valid frame other than a HELLO: it refreshes presence, and outside CONFIGURING with equal fingerprints its consumer is
handed it (R110, R119; notes/assumptions/27 and 41). -/
def receiveOther (l : Link) (fp : BitVec 16) (consumer : State → State) (s : State) : State :=
  let t := refresh l s
  if t.dev ≠ .configuring ∧ fp = sentFingerprint t then consumer t else t

/-- A valid frame on a link (R110). -/
def receiveFrame (l : Link) (f : SentFrame) (s : State) : State :=
  match f.body with
  | .hello h => receiveHello l f.fingerprint h s
  | .vote v => receiveOther l f.fingerprint (takeVote l v) s
  | .pull p => receiveOther l f.fingerprint (takePull l p) s
  | .block b => receiveOther l f.fingerprint (takeBlock l b) s
  | .credit n => receiveOther l f.fingerprint (takeCredit l n) s
  | .pullEnd e => receiveOther l f.fingerprint (takePullEnd l e) s

/-- A frame that fails R108: the link error count and the windowed event (R108, R109). -/
def badFrame (l : Link) (reason : LinkReason) (s : State) : State :=
  let p := s.lkc.peers.get l
  linkErrorEvent l reason none (putPeer l { p with errors := satInc Config.count16Max p.errors } s)

/-- With the latched position 3 every received frame is discarded (R106). -/
def listening (f : State → State) (s : State) : State := if s.position = 3 then s else f s

/-- Receive a valid frame and let the step end. -/
def receive (l : Link) (f : SentFrame) (s : State) : State := listening (fun s => settle (receiveFrame l f s)) s

/-- Bytes arrive as a frame (R107, R108): one that passes the checks is handled as valid. -/
def receiveBytes (l : Link) (bytes : List Byte) (s : State) : State :=
  match judgeFrame (peerPosition s.position l) bytes with
  | .valid f => receive l f s
  | .failed reason => listening (badFrame l reason) s

/-- INVALID_FRAME (R108, R109). -/
def execInvalidFrame (link : Link) (bytes : List Byte) (s : State) : Host.Outcome State Fault Refusal :=
  .next (whenReady (receiveBytes link bytes) s)

/-- HELLO_RECEIVED (R110, R119). -/
def execHelloReceived (link : Link) (fp : BitVec 16) (frame : HelloFields) (s : State) :
    Host.Outcome State Fault Refusal :=
  .next (whenReady (receive link ⟨fp, .hello frame⟩) s)

/-- VOTE_RECEIVED (R110, R122). -/
def execVoteReceived (link : Link) (fp : BitVec 16) (frame : VoteFrame) (s : State) :
    Host.Outcome State Fault Refusal :=
  .next (whenReady (receive link ⟨fp, .vote frame⟩) s)

/-- PULL_RECEIVED (R110, R152). -/
def execPullReceived (link : Link) (fp : BitVec 16) (frame : PullFrame) (s : State) :
    Host.Outcome State Fault Refusal :=
  .next (whenReady (receive link ⟨fp, .pull frame⟩) s)

/-- BLOCK_RECEIVED (R110, R145). -/
def execBlockReceived (link : Link) (fp : BitVec 16) (frame : BlockFrame) (s : State) :
    Host.Outcome State Fault Refusal :=
  .next (whenReady (receive link ⟨fp, .block frame⟩) s)

/-- CREDIT_RECEIVED (R110, R153). -/
def execCreditReceived (link : Link) (fp : BitVec 16) (count : Byte) (s : State) : Host.Outcome State Fault Refusal :=
  .next (whenReady (receive link ⟨fp, .credit count⟩) s)

/-- PULL_END_RECEIVED (R110, R148). -/
def execPullEndReceived (link : Link) (fp : BitVec 16) (frame : PullEndFrame) (s : State) :
    Host.Outcome State Fault Refusal :=
  .next (whenReady (receive link ⟨fp, .pullEnd frame⟩) s)

/-- The transmission on a link ends (R116). -/
def transmitEnd (l : Link) (s : State) : State :=
  if (s.lkc.tx.get l).sending.isSome then
    settle (modifyTx l (fun t => { t with sending := none, stale := false }) s)
  else s

/-- FRAME_TRANSMIT_END (R116). -/
def execFrameTransmitEnd (link : Link) (s : State) : Host.Outcome State Fault Refusal :=
  .next (whenReady (transmitEnd link) s)

end Sys2Proof.Machine
end

