-- ==== Sys2Proof/Machine/Grants.lean ====
section
/-! DEFINITION. The grants of the memory port (R42), each the work of one indivisible grant. -/

namespace Sys2Proof.Machine

open Sys2Proof

/-- The read of a processor-port read: answer, count or finding, write-back and abandon (R32 to R34). -/
def readForPort (t : Transfer) (s : State) : State :=
  let c := readWord s t.word
  let u := unhold t.ini s
  match c.cond with
  | .good => giveAnswer t.ini .okay c.value u
  | .correctable =>
    let w := { giveAnswer t.ini .okay c.value u with mpu.writeBack := some t.word }
    match regionOf s (blockOf t.word) with
    | some e => countCorrected e.1 w
    | none => w
  | .uncorrectable =>
    abandonFor t.word (findUncorrectable (some t.ini) t.word (giveAnswer t.ini .error c.value u))

/-- The PROC grant to the earliest read (R32, R44). -/
def procRead (s : State) : State :=
  match firstAccess s with
  | some h => settle (readForPort h.transfer s)
  | none => s

/-- PROC_READ_GRANT (R32). -/
def execProcReadGrant (s : State) : Host.Outcome State Fault Refusal :=
  .next (whenReady (granted .procRead procRead) s)

/-- The correction write-back (R45). -/
def writeBack (s : State) : State :=
  match s.mpu.writeBack with
  | some a =>
    let t := { s with mpu.writeBack := none }
    if (readWord s a).cond = .correctable then storeWord a (readWord s a).value t else t
  | none => s

/-- CORRECTION_WRITE_BACK (R45). -/
def execCorrectionWriteBack (s : State) : Host.Outcome State Fault Refusal :=
  .next (whenReady (granted .writeBack writeBack) s)

/-- The head would need a capture that the journal has no room for: the mark and UNREVERTIBLE are set (R83). -/
def overflow (e : PwqEntry) (s : State) : State :=
  if s.dev = .running ∧ e.signed = true ∧ vitalBlock s (blockOf e.word) = true ∧ blockOf e.word ∉ s.cju.wCur then
    let t :=
      forgetTried
        { s with cju := { s.cju with wCur := setInsert s.cju.wCur (blockOf e.word), unrevertible := true } }
    if s.cju.unrevertible then t else recordEvent (.journalOverflow (byteAddr e.word)) t
  else s

/-- A partial write over an UNCORRECTABLE word is refused (R26). -/
def mergeRefused (c : Condition) (e : PwqEntry) : Bool := c == .uncorrectable && e.be != 15

/-- The read-modify-write of a queue entry (R25, R26, R59). -/
def performEntry (e : PwqEntry) (s : State) : State :=
  let old := readWord s e.word
  let t :=
    match old.cond with
    | .good => s
    | .correctable => countCorrected e.region s
    | .uncorrectable => findUncorrectable (some e.ini) e.word s
  if mergeRefused old.cond e then recordRefusal .mergeUnknown e.ini (byteAddr e.word) (some e.region) t
  else writeWord e.word old.value (mergeBytes e.be old.value e.data) t

/-- The PROC grant to the head of the queue: performed or refused, the entry leaves, and a finding in a signed region then
abandons the cycle (R25, R26, R34). -/
def headWrite (s : State) : State :=
  match s.pwq.entries with
  | e :: rest =>
    let t := leaveQueue [e] rest (performEntry e (overflow e s))
    settle (if (readWord s e.word).cond = .uncorrectable then abandonFor e.word t else t)
  | [] => s

/-- PWQ_HEAD_WRITE (R25). -/
def execPwqHeadWrite (s : State) : Host.Outcome State Fault Refusal :=
  .next (whenReady (granted .headWrite headWrite) s)

/-- The journal entry that a capture forms (R81, R82). -/
def preImage (s : State) (b : Nat) : JournalEntry :=
  ⟨b, (readBlock s b).map Checked.value, (readBlock s b).map (fun c => c.cond != .uncorrectable)⟩

/-- The first word of a block found UNCORRECTABLE. -/
def firstBad (s : State) (b : Nat) : Option Nat :=
  (blockWords b).find? (fun a => (readWord s a).cond == .uncorrectable)

/-- The JOURNAL grant of a capture: findings, the entry and the mark, and then the abandon that a finding causes
(R77, R80). -/
def captureHead (s : State) : State :=
  match s.pwq.entries with
  | e :: _ =>
    let b := blockOf e.word
    let t := scrubBlock (findUncorrectable (some e.ini)) b s
    let u :=
      forgetTried
        { t with
          cju := { t.cju with journal := t.cju.journal ++ [preImage s b], wCur := setInsert t.cju.wCur b } }
    match firstBad s b with
    | some a => settle (abandonFor a u)
    | none => settle u
  | [] => s

/-- CAPTURE (R80). -/
def execCapture (s : State) : Host.Outcome State Fault Refusal :=
  .next (whenReady (granted .capture captureHead) s)

/-- The known words of a journal entry, with their places (R84). -/
def knownWrites (e : JournalEntry) : List (Nat × Word) :=
  (((blockWords e.block).zip (e.words.zip e.known)).filter (fun w => w.2.2)).map (fun w => (w.1, w.2.1))

/-- The JOURNAL grant of a rollback: the newest entry is put back, and leaves the journal with its mark (R84). -/
def rollbackNewest (s : State) : State :=
  match s.cju.journal.getLast? with
  | some e =>
    let t := overwriteAll (knownWrites e) s
    let u :=
      reconsiderMarks
        { t with cju := { t.cju with journal := t.cju.journal.dropLast, wCur := setErase t.cju.wCur e.block } }
    settle (if u.cju.journal = [] then finishRollback u else u)
  | none => s

/-- ROLLBACK_GRANT (R84). -/
def execRollbackGrant (s : State) : Host.Outcome State Fault Refusal :=
  .next (whenReady (granted .rollback rollbackNewest) s)

/-- At the first block of a region the accumulator becomes 0 and comparable is settled for the region's walk (R99). -/
def enterRegion (r : Region) (b : Nat) (s : State) : State :=
  if b = r.desc.first then
    { s with ptu := { s.ptu with acc := 0, comparable := r.desc.signed && !r.suspect, turned := false } }
  else s

/-- A block read while comparable adds the terms of its words, of an UNCORRECTABLE one those of its raw data bits (R97, R99). -/
def accumulate (d : Descriptor) (b : Nat) (found : List Checked) (s : State) : State :=
  if s.ptu.comparable then
    let terms := ((blockWords b).zip found).map (fun w => wordTerm d (offsetIn d w.1) w.2.value)
    { s with ptu.acc := (s.ptu.acc + terms.sum) % Config.p }
  else s

/-- The end-of-region work after the last block of a region: a region that became SUSPECT in its walk is not compared, mended
or not (R101; notes/assumptions/43). -/
def endOfRegion (index : Nat) (b : Nat) (s : State) : State :=
  match assocFind s.rgt.entries index with
  | some r =>
    if b + 1 = r.desc.first + r.desc.count ∧ r.desc.signed = true ∧ s.ptu.comparable = true ∧ s.ptu.turned = false ∧
        r.suspect = false ∧ s.ptu.acc ≠ sigOf s r.desc.slot then
      suspectPermit index
        (recordEvent (.signatureFault index (sigOf s r.desc.slot) s.ptu.acc) (markSuspect index false s))
    else s
  | none => s

/-- The position moves to the next patrolled block, or back to the lowest (R95). -/
def nextPosition (s : State) (b : Nat) : Option Nat :=
  match nextBlock (patrolled s) (b + 1) with
  | some n => some n
  | none => nextBlock (patrolled s) 0

/-- The PATROL grant (R97 to R101). -/
def patrolBlock (s : State) : State :=
  match s.ptu.position with
  | some b =>
    match regionOf s b with
    | some e =>
      let t := scrubBlock (findUncorrectable none) b (enterRegion e.2 b s)
      let u := endOfRegion e.1 b (accumulate e.2.desc b (readBlock s b) t)
      { u with ptu := { u.ptu with position := nextPosition s b, request := false } }
    | none => { s with ptu.request := false }
  | none => { s with ptu.request := false }

/-- PATROL_READ (R97). -/
def execPatrolRead (s : State) : Host.Outcome State Fault Refusal :=
  .next (whenReady (granted .patrol patrolBlock) s)

/-- SERVER_READ (R153). -/
def execServerRead (s : State) : Host.Outcome State Fault Refusal :=
  .next (whenReady (granted .serverRead (fun s => settle (serveBlock s))) s)

/-- REQUESTER_WRITE (R146, R148). -/
def execRequesterWrite (s : State) : Host.Outcome State Fault Refusal :=
  .next (whenReady (granted .requesterWrite (fun s => settle (writeBuffer s))) s)

/-- The SETUP grant of INIT_MEMORY (R51, R52). -/
def initBlock (s : State) : State :=
  match s.mpu.initOp with
  | some op =>
    let t := overwriteAll (blockWrites op.next (List.replicate Config.blockWords 0)) s
    if op.next + 1 < op.stop then { t with mpu.initOp := some { op with next := op.next + 1 } }
    else recordEvent (.operationDone .done (some (64 * op.first))) { t with mpu.initOp := none }
  | none => s

/-- INIT_BLOCK_WRITE (R51). -/
def execInitBlockWrite (s : State) : Host.Outcome State Fault Refusal :=
  .next (whenReady (granted .initBlock initBlock) s)

/-- A peer counts as running ahead (R166). -/
def runningAhead (p : Peer) : Bool :=
  p.heard && p.matched &&
    match p.hello with
    | some h => h.fields.dev == .running && h.fields.agreedBase
    | none => false

/-- The positions of the peers that are HEARD (R165). -/
def peersHeard (s : State) : BitVec 3 :=
  (if s.lkc.peers.one.heard then positionBit (peerPosition s.position .one) else 0) |||
    (if s.lkc.peers.two.heard then positionBit (peerPosition s.position .two) else 0)

/-- The signing pass has ended: the start record, the join decision and the entry into RUNNING (R165, R166). -/
def join (bad : Nat) (s : State) : State :=
  let excluded := runningAhead s.lkc.peers.one || runningAhead s.lkc.peers.two
  let suspects := (s.rgt.entries.filter (fun e => e.2.desc.signed && e.2.suspect)).map Prod.fst
  let t :=
    recordEvent (.operationDone (if excluded then .excluded else .ready) none)
      { s with start := some ⟨s.rgt.fingerprint, bad, suspects, peersHeard s, excluded, s.cmu.ms⟩ }
  let u := setDev .running t
  let w := if u.ptu.enable then startWalk u else u
  if excluded then testFull (setChan (some .excluded) w)
  else sortKept (enterReady (setAgreed true { w with vtu.closedSet := ownEntries w }))

/-- The uncorrectable words that the pass has met, those of the block it reads next included (R165). -/
def passBad (s : State) : Nat :=
  match s.sgu.pass with
  | some p => min Config.count16Max (p.bad + (readBlock s p.block).countP (fun c => c.cond == .uncorrectable))
  | none => 0

/-- The SETUP grant of the signing pass, and the join after the last region (R62, R165). -/
def signingRead (s : State) : State :=
  let t := signBlock s
  if t.sgu.pass = none then settle (join (passBad s) t) else t

/-- SIGNING_READ (R62). -/
def execSigningRead (s : State) : Host.Outcome State Fault Refusal :=
  .next (whenReady (granted .signing signingRead) s)

/-- The SETUP grant of the re-signing pass, and the completion check after the last region (R63, R149). -/
def reSigningRead (s : State) : State :=
  let t := signBlock s
  if t.sgu.pass = none then settle (completionCheck t) else t

/-- RE_SIGNING_READ (R63). -/
def execReSigningRead (s : State) : Host.Outcome State Fault Refusal :=
  .next (whenReady (granted .resigning reSigningRead) s)

end Sys2Proof.Machine
end

