-- ==== Sys2Proof/Machine/Power.lean ====
section
/-! DEFINITION. Power-on, the two edges of RESET_N (R167), and the disturbance of a stored word (R57). -/

namespace Sys2Proof.Machine

open Sys2Proof

/-- Keep the queue of waiting commands of one state in another. -/
def keepQueue (s t : State) : State := { t with pending := s.pending }

/-- The word that a correction of the word would store, if it is CORRECTABLE. -/
def correction (s : State) (a : Nat) : Option Word :=
  if (readWord s a).cond = .correctable then some (readWord s a).value else none

/-- What the head's write stores, if it is performed (R26). -/
def headStore (s : State) (e : PwqEntry) : Option Word :=
  if mergeRefused (readWord s e.word).cond e then none
  else some (mergeBytes e.be (readWord s e.word).value e.data)

/-- The words that a block-read grant visits, with their corrections. -/
def readVisits (s : State) (b : Nat) : List (Nat × Option Word) := (blockWords b).map (fun a => (a, correction s a))

/-- Writes as visits. -/
def writeVisits (ws : List (Nat × Word)) : List (Nat × Option Word) := ws.map (fun w => (w.1, some w.2))

/-- The words that a grant visits in order, with the value it stores there, if any (R42). -/
def grantVisits (s : State) (g : Grant) : List (Nat × Option Word) :=
  match g with
  | .procRead =>
    match firstAccess s with
    | some h => [(h.transfer.word, none)]
    | none => []
  | .writeBack =>
    match s.mpu.writeBack with
    | some a => [(a, correction s a)]
    | none => []
  | .headWrite =>
    match s.pwq.entries with
    | e :: _ => [(e.word, headStore s e)]
    | [] => []
  | .capture =>
    match s.pwq.entries with
    | e :: _ => readVisits s (blockOf e.word)
    | [] => []
  | .rollback =>
    match s.cju.journal.getLast? with
    | some e => writeVisits (knownWrites e)
    | none => []
  | .patrol =>
    match s.ptu.position with
    | some b => readVisits s b
    | none => []
  | .serverRead =>
    match serverTarget s with
    | some b => readVisits s b
    | none => []
  | .requesterWrite =>
    match s.rse.pull.buffers with
    | b :: _ => writeVisits (blockWrites b.block b.words)
    | [] => []
  | .initBlock =>
    match s.mpu.initOp with
    | some op => writeVisits (blockWrites op.next (List.replicate Config.blockWords 0))
    | none => []
  | .signing =>
    match s.sgu.pass with
    | some p => readVisits s p.block
    | none => []
  | .resigning =>
    match s.sgu.pass with
    | some p => readVisits s p.block
    | none => []

/-- Store the value of a visit. -/
def storeVisit (m : List (Nat × StoredWord)) (v : Nat × Option Word) : List (Nat × StoredWord) :=
  match v.2 with
  | some w => memPut m v.1 (freshWord w)
  | none => m

/-- The array after a grant that a pin reset cut short: the work on its first words is finished, and the word whose access
was in progress holds `torn` (R52, R53; notes/assumptions/9). -/
def cutArray (s : State) (c : Cut) : List (Nat × StoredWord) :=
  match nextGrant s with
  | some (g, _) =>
    let visits := grantVisits s g
    let m := (visits.take c.done).foldl storeVisit s.mpu.mem
    match visits.drop c.done, c.torn with
    | v :: _, some w => memPut m v.1 w
    | _, _ => m
  | none => s.mpu.mem

/-- The array at a pin reset: kept, but for a grant cut short (R41, R53). -/
def arrayAtReset (s : State) (cut : Option Cut) : List (Nat × StoredWord) :=
  match cut with
  | some c => if s.resetLow then s.mpu.mem else cutArray s c
  | none => s.mpu.mem

/-- The part while RESET_N is low: every block holds its pin-reset state (R167). -/
def heldInReset (position : BitVec 2) (mem : List (Nat × StoredWord)) : State :=
  { State.afterPower position mem with resetLow := true, lkc.helloTimer := false }

/-- POWER_ON: every record holds its power-on value, CH_POS is latched, and the array holds any content (R41, R167). While
RESET_N is low the part that comes up is held in its pin reset until the line rises (R38, R167; notes/assumptions/30). -/
def execPowerOn (chPos : BitVec 2) (content : List (Nat × StoredWord)) (s : State) :
    Host.Outcome State Fault Refusal :=
  .next
    (keepQueue s
      (if s.resetLow then heldInReset chPos (memOf content) else State.afterPower chPos (memOf content)))

/-- PIN_RESET_ASSERT: RESET_N falls (R38, R53, R167). -/
def execPinResetAssert (cut : Option Cut) (s : State) : Host.Outcome State Fault Refusal :=
  .next (keepQueue s (heldInReset s.position (arrayAtReset s cut)))

/-- RESET_N rises: CH_POS is latched and the part is ready as after power-on (R106, R114, R167). -/
def releaseReset (chPos : BitVec 2) (s : State) : State :=
  if s.resetLow then { s with resetLow := false, position := chPos, lkc.helloTimer := true } else s

/-- PIN_RESET_RELEASE (R167). -/
def execPinResetRelease (chPos : BitVec 2) (s : State) : Host.Outcome State Fault Refusal :=
  .next (releaseReset chPos s)

/-- ARRAY_DISTURBANCE: bits of a stored word are disturbed, its stored value not (R40, R57). -/
def execArrayDisturbance (word : BitVec 20) (flips : BitVec 40) (verdict : Verdict) (s : State) :
    Host.Outcome State Fault Refusal :=
  .next
    { s with mpu.mem := memPut s.mpu.mem word.toNat (disturb (memGet s.mpu.mem word.toNat) flips verdict) }

end Sys2Proof.Machine
end

