-- ==== Sys2Proof/Machine/Port.lean ====
section
/-! DEFINITION. Transfers at the processor bus: the address decode, the aperture, and the command frames that software writes
and submits (R17 to R19, R38, R168). -/

namespace Sys2Proof.Machine

open Sys2Proof

/-- A refusal of the address decode (R18). -/
def refuseAddress (ini : Initiator) (addr : Nat) (s : State) : State :=
  giveAnswer ini .error 0 (recordRefusal .notMapped ini addr none s)

/-- A word of the response area: the header at word 0 (R19, R170). -/
def responseWord (s : State) (i : Nat) : Word :=
  if i = 0 then headerWord s.cmu.header else areaWord s.cmu.response i

/-- A DATA transfer to the aperture, by its word there (R18, R19). -/
def apertureTransfer (write : Bool) (addr i : Nat) (be : BitVec 4) (data : Word) (s : State) : State :=
  if i < Config.requestWords then
    if write then
      giveAnswer .data .okay 0
        { s with cmu.request := assocPut 0 s.cmu.request i (mergeBytes be (areaWord s.cmu.request i) data) }
    else giveAnswer .data .okay (areaWord s.cmu.request i) s
  else if i = Config.requestWords then
    if write = true ∧ be ≠ 0 then submit (giveAnswer .data .okay 0 s) else giveAnswer .data .okay 0 s
  else if write then refuseAddress .data addr s
  else giveAnswer .data .okay (responseWord s (i - (Config.requestWords + 1))) s

/-- A transfer by its byte address (R17, R18). While RESET_N is low it is answered WAIT and not kept (R38;
notes/assumptions/30). -/
def transfer (ini : Initiator) (write : Bool) (addr : BitVec 26) (be : BitVec 4) (data : Word) (s : State) : State :=
  let a := addr.toNat
  if s.resetLow then giveAnswer ini .wait 0 s
  else if a < Config.aperture then arrive ⟨ini, write, a / 4, be, data⟩ s
  else if a < Config.apertureEnd ∧ ini = .data then apertureTransfer write a ((a - Config.aperture) / 4) be data s
  else refuseAddress ini a s

/-- MEMORY_READ (R20, R30 to R32). -/
def execMemoryRead (ini : Initiator) (addr : BitVec 26) (be : BitVec 4) (s : State) : Host.Outcome State Fault Refusal :=
  .next (transfer ini false addr be 0 s)

/-- MEMORY_WRITE (R20, R24, R28). -/
def execMemoryWrite (ini : Initiator) (addr : BitVec 26) (be : BitVec 4) (data : Word) (s : State) :
    Host.Outcome State Fault Refusal :=
  .next (transfer ini true addr be data s)

/-- ADDRESS_REFUSED: a transfer that the address decode refuses (R18). -/
def execAddressRefused (ini : Initiator) (write : Bool) (addr : BitVec 26) (be : BitVec 4) (data : Word) (s : State) :
    Host.Outcome State Fault Refusal :=
  .next (transfer ini write addr be data s)

/-- REQUEST_AREA_WRITE: a DATA write to the aperture's request area (R19). -/
def execRequestAreaWrite (addr : BitVec 26) (be : BitVec 4) (data : Word) (s : State) :
    Host.Outcome State Fault Refusal :=
  .next (transfer .data true addr be data s)

/-- Byte address of the submit word (R18). -/
def submitAddr : BitVec 26 := 0x4003FC

/-- COMMAND_OVERRUN: a write of the submit word (R19, R171). -/
def execCommandOverrun (be : BitVec 4) (s : State) : Host.Outcome State Fault Refusal :=
  .next (transfer .data true submitAddr be 0 s)

/-- UNKNOWN_COMMAND: a write of the submit word (R169). -/
def execUnknownCommand (be : BitVec 4) (s : State) : Host.Outcome State Fault Refusal :=
  .next (transfer .data true submitAddr be 0 s)

/-- Software writes a command frame into the request area and submits it, by DATA transfers answered OKAY (R19, R168;
notes/assumptions/13). What does not fit the request area is not written, and such a frame fails its check (R169). -/
def presentCommand (cmd : Command) (tag : Byte) (ps : List Word) (s : State) : State :=
  if s.resetLow then giveAnswer .data .wait 0 s
  else
    let frame := (commandFrame cmd tag ps).take Config.requestWords
    let t := giveAnswer .data .okay 0 { s with cmu.request := putWords s.cmu.request 0 frame }
    if t.cmu.header.status = .pending then recordEvent .commandOverrun t
    else if ps.length ≤ 253 then takeCommand cmd tag ps t
    else respond .badCheck 0 0 [] (pend t)

end Sys2Proof.Machine
end

