-- ==== Sys2Proof/Machine/SoftwareCommands.lean ====
section
/-! DEFINITION. The 18 software commands: each is its frame, written to the request area and submitted (R168, R169;
notes/assumptions/13). -/

namespace Sys2Proof.Machine

open Sys2Proof

/-- CLEAR_TABLE (R7, R8). -/
def execClearTable (tag : Byte) (params : List Word) (s : State) : Host.Outcome State Fault Refusal :=
  .next (presentCommand .clearTable tag params s)

/-- LOAD_REGION (R5, R8). -/
def execLoadRegion (tag : Byte) (params : List Word) (s : State) : Host.Outcome State Fault Refusal :=
  .next (presentCommand .loadRegion tag params s)

/-- LOAD_SLOTS (R49). -/
def execLoadSlots (tag : Byte) (params : List Word) (s : State) : Host.Outcome State Fault Refusal :=
  .next (presentCommand .loadSlots tag params s)

/-- SET_TIMING (R162). -/
def execSetTiming (tag : Byte) (params : List Word) (s : State) : Host.Outcome State Fault Refusal :=
  .next (presentCommand .setTiming tag params s)

/-- SET_QUEUE (R29). -/
def execSetQueue (tag : Byte) (params : List Word) (s : State) : Host.Outcome State Fault Refusal :=
  .next (presentCommand .setQueue tag params s)

/-- INIT_MEMORY (R50). -/
def execInitMemory (tag : Byte) (params : List Word) (s : State) : Host.Outcome State Fault Refusal :=
  .next (presentCommand .initMemory tag params s)

/-- END_CONFIG (R163). -/
def execEndConfig (tag : Byte) (params : List Word) (s : State) : Host.Outcome State Fault Refusal :=
  .next (presentCommand .endConfig tag params s)

/-- OPEN_CYCLE (R71, R72). -/
def execOpenCycle (tag : Byte) (params : List Word) (s : State) : Host.Outcome State Fault Refusal :=
  .next (presentCommand .openCycle tag params s)

/-- CLOSE_CYCLE (R73). -/
def execCloseCycle (tag : Byte) (params : List Word) (s : State) : Host.Outcome State Fault Refusal :=
  .next (presentCommand .closeCycle tag params s)

/-- ABANDON_CYCLE (R75). -/
def execAbandonCycle (tag : Byte) (params : List Word) (s : State) : Host.Outcome State Fault Refusal :=
  .next (presentCommand .abandonCycle tag params s)

/-- RESTORE (R144). -/
def execRestore (tag : Byte) (params : List Word) (s : State) : Host.Outcome State Fault Refusal :=
  .next (presentCommand .restore tag params s)

/-- SET_PATROL (R93). -/
def execSetPatrol (tag : Byte) (params : List Word) (s : State) : Host.Outcome State Fault Refusal :=
  .next (presentCommand .setPatrol tag params s)

/-- SET_ALERT_MASK (R179). -/
def execSetAlertMask (tag : Byte) (params : List Word) (s : State) : Host.Outcome State Fault Refusal :=
  .next (presentCommand .setAlertMask tag params s)

/-- READ_STATE (R172). -/
def execReadState (tag : Byte) (params : List Word) (s : State) : Host.Outcome State Fault Refusal :=
  .next (presentCommand .readState tag params s)

/-- READ_REGION (R173). -/
def execReadRegion (tag : Byte) (params : List Word) (s : State) : Host.Outcome State Fault Refusal :=
  .next (presentCommand .readRegion tag params s)

/-- READ_PEERS (R174). -/
def execReadPeers (tag : Byte) (params : List Word) (s : State) : Host.Outcome State Fault Refusal :=
  .next (presentCommand .readPeers tag params s)

/-- READ_EVENTS (R175). -/
def execReadEvents (tag : Byte) (params : List Word) (s : State) : Host.Outcome State Fault Refusal :=
  .next (presentCommand .readEvents tag params s)

/-- RESET (R176). -/
def execReset (tag : Byte) (params : List Word) (s : State) : Host.Outcome State Fault Refusal :=
  .next (presentCommand .reset tag params s)

end Sys2Proof.Machine
end

