-- ==== Sys2Proof/Machine/Timers.lean ====
section
/-! DEFINITION. The timers and the clocks of the part: an expiry is taken while its timer runs (notes/assumptions/6). -/

namespace Sys2Proof.Machine

open Sys2Proof

/-- With no command waiting a millisecond passes: the counter adds one and wraps (R178), and it stands at 0 while RESET_N is
low (R181). The book's table has no row for this tick (DESIGN CHOICE, notes/assumptions/5). -/
def tick (s : State) : State :=
  if s.resetLow then s else { s with cmu.ms := s.cmu.ms + 1 }

/-- The cycle-limit timer expires in OPEN (R72, R76). -/
def cycleLimit (s : State) : State :=
  if s.cju.timer.isSome = true ∧ s.cju.chan = some .opened then settle (abandon .cycleLimit s) else s

/-- CYCLE_LIMIT (R72). -/
def execCycleLimit (s : State) : Host.Outcome State Fault Refusal := .next (whenReady cycleLimit s)

/-- The vote timer expires in VOTING (R125). -/
def voteTimeout (s : State) : State :=
  if s.vtu.timer.isSome = true ∧ s.cju.chan = some .voting then settle (takeDecision s) else s

/-- VOTE_TIMER_EXPIRY (R125). -/
def execVoteTimerExpiry (s : State) : Host.Outcome State Fault Refusal := .next (whenReady voteTimeout s)

/-- The peer silence time of a HEARD peer has passed; an expiry that a frame has overtaken has no effect (R118). -/
def peerSilence (l : Link) (s : State) : State := if silenceDue l s then settle (silenceCheck l s) else s

/-- PEER_SILENCE_EXPIRY (R118). -/
def execPeerSilenceExpiry (link : Link) (s : State) : Host.Outcome State Fault Refusal :=
  .next (whenReady (peerSilence link) s)

/-- The HELLO timer expires (R114). -/
def helloExpiry (s : State) : State := if s.lkc.helloTimer then kick (helloTrigger s) else s

/-- HELLO_TIMER (R114). -/
def execHelloTimer (s : State) : Host.Outcome State Fault Refusal := .next (whenReady helloExpiry s)

/-- The patrol interval ends while the patrol walks: a request, unless one is outstanding, and the next interval at its new
length (R93, R96). -/
def patrolExpiry (s : State) : State :=
  if s.ptu.timer.isSome then
    { s with
      ptu := { s.ptu with timer := some s.ptu.interval, request := s.ptu.request || s.ptu.position.isSome } }
  else s

/-- PATROL_INTERVAL (R96). -/
def execPatrolInterval (s : State) : Host.Outcome State Fault Refusal := .next (whenReady patrolExpiry s)

/-- The pull silence timer expires (R147). -/
def pullTimeout (s : State) : State :=
  if s.rse.pull.phase = .receiving ∧ s.rse.pull.timer.isSome = true then settle (failPull .pullTimeout none s) else s

/-- PULL_SILENCE_EXPIRY (R147). -/
def execPullSilenceExpiry (s : State) : Host.Outcome State Fault Refusal := .next (whenReady pullTimeout s)

/-- The credit silence timer expires (R157). -/
def creditTimeout (s : State) : State :=
  if s.rse.service.timer.isSome then settle (endService .aborted none s) else s

/-- CREDIT_SILENCE_EXPIRY (R157). -/
def execCreditSilenceExpiry (s : State) : Host.Outcome State Fault Refusal := .next (whenReady creditTimeout s)

/-- A half-period of PERMIT ends (R136). -/
def togglePermit (s : State) : State :=
  if s.vtu.permitted then { s with vtu.level := !s.vtu.level } else s

/-- PERMIT_TOGGLE (R136). -/
def execPermitToggle (s : State) : Host.Outcome State Fault Refusal := .next (whenReady togglePermit s)

end Sys2Proof.Machine
end

