-- ==== Sys2Proof/Machine/Dispatch.lean ====
section
/-! DEFINITION. The meaning of each command: one arm for each constructor of `Instr`, in the order of spec/opcode_table.json. -/

namespace Sys2Proof.Machine

open Sys2Proof

/-- What a command does to the part, all but the queue of waiting commands (each arm calls the command's meaning). -/
def exec (i : Instr) (s : State) : Host.Outcome State Fault Refusal :=
  match i with
  | .powerOn chPos content => Sys2Proof.Machine.execPowerOn chPos content s
  | .pinResetAssert cut => Sys2Proof.Machine.execPinResetAssert cut s
  | .pinResetRelease chPos => Sys2Proof.Machine.execPinResetRelease chPos s
  | .memoryRead ini addr be => Sys2Proof.Machine.execMemoryRead ini addr be s
  | .memoryWrite ini addr be data => Sys2Proof.Machine.execMemoryWrite ini addr be data s
  | .addressRefused ini write addr be data => Sys2Proof.Machine.execAddressRefused ini write addr be data s
  | .requestAreaWrite addr be data => Sys2Proof.Machine.execRequestAreaWrite addr be data s
  | .commandOverrun be => Sys2Proof.Machine.execCommandOverrun be s
  | .unknownCommand be => Sys2Proof.Machine.execUnknownCommand be s
  | .procReadGrant => Sys2Proof.Machine.execProcReadGrant s
  | .correctionWriteBack => Sys2Proof.Machine.execCorrectionWriteBack s
  | .pwqHeadWrite => Sys2Proof.Machine.execPwqHeadWrite s
  | .capture => Sys2Proof.Machine.execCapture s
  | .rollbackGrant => Sys2Proof.Machine.execRollbackGrant s
  | .patrolRead => Sys2Proof.Machine.execPatrolRead s
  | .serverRead => Sys2Proof.Machine.execServerRead s
  | .requesterWrite => Sys2Proof.Machine.execRequesterWrite s
  | .initBlockWrite => Sys2Proof.Machine.execInitBlockWrite s
  | .signingRead => Sys2Proof.Machine.execSigningRead s
  | .reSigningRead => Sys2Proof.Machine.execReSigningRead s
  | .clearTable tag params => Sys2Proof.Machine.execClearTable tag params s
  | .clearTableDrained => Sys2Proof.Machine.execClearTableDrained s
  | .loadRegion tag params => Sys2Proof.Machine.execLoadRegion tag params s
  | .loadRegionDrained => Sys2Proof.Machine.execLoadRegionDrained s
  | .loadSlots tag params => Sys2Proof.Machine.execLoadSlots tag params s
  | .setTiming tag params => Sys2Proof.Machine.execSetTiming tag params s
  | .setQueue tag params => Sys2Proof.Machine.execSetQueue tag params s
  | .initMemory tag params => Sys2Proof.Machine.execInitMemory tag params s
  | .initMemoryBegin => Sys2Proof.Machine.execInitMemoryBegin s
  | .endConfig tag params => Sys2Proof.Machine.execEndConfig tag params s
  | .endConfigChecks => Sys2Proof.Machine.execEndConfigChecks s
  | .openCycle tag params => Sys2Proof.Machine.execOpenCycle tag params s
  | .closeCycle tag params => Sys2Proof.Machine.execCloseCycle tag params s
  | .closeDrainEnd => Sys2Proof.Machine.execCloseDrainEnd s
  | .abandonCycle tag params => Sys2Proof.Machine.execAbandonCycle tag params s
  | .restore tag params => Sys2Proof.Machine.execRestore tag params s
  | .setPatrol tag params => Sys2Proof.Machine.execSetPatrol tag params s
  | .setAlertMask tag params => Sys2Proof.Machine.execSetAlertMask tag params s
  | .readState tag params => Sys2Proof.Machine.execReadState tag params s
  | .readRegion tag params => Sys2Proof.Machine.execReadRegion tag params s
  | .readPeers tag params => Sys2Proof.Machine.execReadPeers tag params s
  | .readEvents tag params => Sys2Proof.Machine.execReadEvents tag params s
  | .reset tag params => Sys2Proof.Machine.execReset tag params s
  | .commandReset => Sys2Proof.Machine.execCommandReset s
  | .cycleLimit => Sys2Proof.Machine.execCycleLimit s
  | .voteTimerExpiry => Sys2Proof.Machine.execVoteTimerExpiry s
  | .peerSilenceExpiry link => Sys2Proof.Machine.execPeerSilenceExpiry link s
  | .helloTimer => Sys2Proof.Machine.execHelloTimer s
  | .patrolInterval => Sys2Proof.Machine.execPatrolInterval s
  | .pullSilenceExpiry => Sys2Proof.Machine.execPullSilenceExpiry s
  | .creditSilenceExpiry => Sys2Proof.Machine.execCreditSilenceExpiry s
  | .permitToggle => Sys2Proof.Machine.execPermitToggle s
  | .invalidFrame link bytes => Sys2Proof.Machine.execInvalidFrame link bytes s
  | .helloReceived link fp frame => Sys2Proof.Machine.execHelloReceived link fp frame s
  | .voteReceived link fp frame => Sys2Proof.Machine.execVoteReceived link fp frame s
  | .pullReceived link fp frame => Sys2Proof.Machine.execPullReceived link fp frame s
  | .blockReceived link fp frame => Sys2Proof.Machine.execBlockReceived link fp frame s
  | .creditReceived link fp count => Sys2Proof.Machine.execCreditReceived link fp count s
  | .pullEndReceived link fp frame => Sys2Proof.Machine.execPullEndReceived link fp frame s
  | .frameTransmitEnd link => Sys2Proof.Machine.execFrameTransmitEnd link s
  | .arrayDisturbance word flips verdict => Sys2Proof.Machine.execArrayDisturbance word flips verdict s

end Sys2Proof.Machine
end

