-- ==== Sys2Proof/Safety.lean ====
section
/-! DEFINITION. The laws of the device: each states a law that a rule of the book gives ("the law of the device that governs
…"), or a form of the state that the book's records have; and what the end of a step may still change. -/

namespace Sys2Proof.Machine

open Sys2Proof

/-- The array is in its canonical form. -/
def arrayLaw (s : State) : Bool := Memory.wf s.mpu.mem

/-- R177: at most 64 records, and the dropped count at most 65,535. -/
def eventLaw (s : State) : Bool := s.cmu.events.length ≤ Config.eventMax && s.cmu.dropped ≤ Config.count16Max

/-- R180: ALERT is what the queue and the mask make it. -/
def alertLaw (s : State) : Bool := s.cmu.alert == alertLevel s.cmu.events s.cmu.mask

/-- R24, R28, R29: at most 32 entries, below U while the hold flag is clear, and thresholds in their ranges. -/
def queueLaw (s : State) : Bool :=
  s.pwq.entries.length ≤ Config.pwqMax && (s.pwq.hold || s.pwq.entries.length < s.pwq.upper) &&
    4 ≤ s.pwq.upper && s.pwq.upper ≤ Config.pwqMax && s.pwq.lower < s.pwq.upper

/-- R17: at most one held transfer for each initiator. -/
def heldLaw (s : State) : Bool :=
  [Initiator.data, .fetch, .dma].all (fun i => s.ppt.held.countP (fun h => h.transfer.ini == i) ≤ 1)

/-- R81: at most 512 entries and at most one per block, and the block of every entry carries W_CUR. -/
def journalLaw (s : State) : Bool :=
  s.cju.journal.length ≤ Config.journalMax && (s.cju.journal.map JournalEntry.block).Nodup &&
    s.cju.journal.all (fun e => s.cju.wCur.contains e.block)

/-- R83: while UNREVERTIBLE is clear, every block carrying W_CUR has a journal entry. -/
def revertLaw (s : State) : Bool :=
  s.cju.unrevertible || s.cju.wCur.all (fun b => s.cju.journal.any (fun e => e.block == b))

/-- R88, R91: at most 32 block numbers, without duplicates, each in a VITAL region, and none in CONFIGURING. -/
def repairLaw (s : State) : Bool :=
  s.cju.repair.length ≤ Config.repairMax && s.cju.repair.Nodup && s.cju.repair.all (vitalBlock s) &&
    (s.dev != .configuring || s.cju.repair.isEmpty)

/-- R136: PERMIT toggles only while RUNNING, in READY, OPEN, CLOSING or VOTING, with no signed region SUSPECT, and after a
decision of MEMBER_3 or MEMBER_2. -/
def permitLaw (s : State) : Bool :=
  (!s.vtu.permitted ||
    (s.dev == .running && permitState s.cju.chan && !anySuspect s &&
      match s.vtu.last with
      | some d => memberRank d.outcome
      | none => false)) &&
    (s.vtu.permitted || !s.vtu.level)

/-- R139: a service is active only in the serving condition and a pull only in CATCHUP and RESTORING, so never both. -/
def restoreLaw (s : State) : Bool :=
  (!serving s || servingCondition s) &&
    (!pulling s || s.cju.chan == some .catchup || s.cju.chan == some .restoring) && !(serving s && pulling s)

/-- R153: the credit count never exceeds 8. -/
def creditLaw (s : State) : Bool := s.rse.service.credits ≤ Config.creditMax

/-- A block of the region set of the FULL service. -/
def inServedSet (s : State) (b : Nat) : Bool :=
  s.rse.service.kind == some .full && (setRegions s s.rse.service.regionSet).any (fun d => d.covers b)

/-- R155: a RESEND mark stands only on blocks of the region set of the active FULL service, and the walk visits only such. -/
def resendLaw (s : State) : Bool :=
  s.cju.resend.all (fun b => serving s && inServedSet s b) &&
    (s.rse.service.phase != .walking ||
      match s.rse.service.walkPos with
      | some (.block b) => inServedSet s b
      | _ => true)

/-- R54, R66: sixteen running signatures, each below p, and so the accumulator and a signing sum. -/
def signatureLaw (s : State) : Bool :=
  s.sgu.sigs.length == Config.sigSlots && s.sgu.sigs.all (fun v => v < Config.p) && s.ptu.acc < Config.p &&
    match s.sgu.pass with
    | some p => p.sum < Config.p
    | none => true

/-- R69: a channel state exists exactly while the device is RUNNING. -/
def channelLaw (s : State) : Bool := (s.dev == .running) == s.cju.chan.isSome

/-- A descriptor in the ranges of R1 with the rights of R2. -/
def descriptorFits (d : Descriptor) : Bool :=
  d.first < Config.blocks && 1 ≤ d.count && d.first + d.count ≤ Config.blocks && rightsFit d.kind d.rights &&
    factorFits d.signed d.base && factorFits d.signed d.mult &&
    (if d.signed then d.slot < Config.sigSlots else d.slot == 0)

/-- Two loaded descriptors do not overlap and do not share a slot (R6). -/
def descriptorsApart (d e : Descriptor) : Bool :=
  !d.overlaps e && !(d.signed && e.signed && d.slot == e.slot)

/-- R1, R2, R6: the table is a table that LOAD_REGION could have made. -/
def tableLaw (s : State) : Bool :=
  assocRising 0 s.rgt.entries && s.rgt.entries.all (fun e => e.1 < Config.regions && descriptorFits e.2.desc) &&
    (s.rgt.entries.map (fun e => e.2.desc)).Pairwise (fun d e => descriptorsApart d e = true)

/-- R12, R16: in CONFIGURING, and in a PLAIN region, the state is NORMAL. -/
def regionLaw (s : State) : Bool :=
  s.rgt.entries.all (fun e => !e.2.suspect || (e.2.desc.signed && s.dev != .configuring))

/-- R115: at most one waiting control frame of each kind, and at most 8 BLOCK frames. -/
def transmitLaw (t : Transmitter) : Bool :=
  (t.ctrl.map ctrlKind).Nodup && t.blocks.length ≤ Config.creditMax

/-- R140: at most 8 buffers in use, each of its own number, and at most 3 attempts. -/
def pullLaw (s : State) : Bool :=
  (s.rse.pull.buffers.map Buffer.slot).Nodup && s.rse.pull.buffers.all (fun b => b.slot < Config.creditMax) &&
    s.rse.pull.attempts ≤ 3

/-- R168, R170: the header shows PENDING exactly while a draining command waits in the command buffer. -/
def commandLaw (s : State) : Bool :=
  (s.cmu.header.status == .pending) == s.cmu.buffer.isSome &&
    match s.cmu.buffer with
    | some f => drains f.cmd
    | none => true

/-- R24, R27: an entry is marked signed when its word lies in a signed region, and outside CONFIGURING signed entries are queued
only in OPEN and CLOSING. -/
def signedQueueLaw (s : State) : Bool :=
  s.pwq.entries.all (fun e => e.signed == signedBlock s (blockOf e.word)) &&
    (s.dev == .configuring || cycleOpen s || s.pwq.entries.all (fun e => !e.signed))

/-- R50, R51: INIT_MEMORY runs only in CONFIGURING, and no draining command but RESET waits meanwhile. -/
def initLaw (s : State) : Bool :=
  s.mpu.initOp.isNone ||
    (s.dev == .configuring &&
      match s.cmu.buffer with
      | some f => f.cmd == .reset
      | none => true)

/-- The frames kept of one peer: at most two, and in a channel that votes one for v and one for v + 1 (R121 to R123). -/
def framesLaw (s : State) (frames : List VoteFrame) : Bool :=
  frames.length ≤ 2 &&
    (keepsRecent s ||
      (frames.all (fun f => f.cycle == voteCycle s || f.cycle == voteCycle s + 1) && (frames.map VoteFrame.cycle).Nodup))

/-- R121 to R123, for both peers. -/
def voteLaw (s : State) : Bool := framesLaw s s.vtu.table.one && framesLaw s s.vtu.table.two

/-- R130: a decision is being completed only while the channel is ROLLING_BACK. -/
def decidingLaw (s : State) : Bool := s.vtu.deciding.isNone || s.cju.chan == some .rollingBack

/-- R8, R36, R161: the commands that change the table, and the configuration ones that drain, wait only in CONFIGURING. -/
def configLaw (s : State) : Bool :=
  match s.cmu.buffer with
  | some f => f.cmd == .reset || s.dev == .configuring
  | none => true

/-- R140, R148, R151: a PULL_END is kept only while COMPLETING, and an active pull or service has its peer. -/
def recordLaw (s : State) : Bool :=
  (s.rse.pull.ending.isNone || s.rse.pull.phase == .completing) && (!pulling s || s.rse.pull.server.isSome) &&
    (!serving s || s.rse.service.requester.isSome)

/-- R62, R63: a pass runs only in SIGNING, or for a pull that is COMPLETING. -/
def passLaw (s : State) : Bool :=
  s.sgu.pass.isNone || s.dev == .signing || s.rse.pull.phase == .completing

/-- What PERMIT stands on: R136 and R137 with R69, R139 and the records they rest on. -/
def permitInvariant (s : State) : Bool :=
  permitLaw s && channelLaw s && restoreLaw s && configLaw s && recordLaw s && passLaw s

/-! ### Stored values and signatures (R57) -/

/-- The word at an offset of a region. -/
def regionWord (s : State) (d : Descriptor) (i : Nat) : StoredWord :=
  memGet s.mpu.mem (Config.blockWords * d.first + i)

/-- The first `n` blocks of a region add up to this over the stored values of their words (R57). -/
def storedSum (s : State) (d : Descriptor) (n : Nat) : Nat :=
  ((List.range (Config.blockWords * n)).map (fun i => wordTerm d i (regionWord s d i).stored)).sum % Config.p

/-- In the first `n` blocks of a region the stored value of every word is the data last written with its check bits. -/
def keptWords (s : State) (d : Descriptor) (n : Nat) : Bool :=
  (List.range (Config.blockWords * n)).all (fun i => (regionWord s d i).stored == (regionWord s d i).written)

/-- The running signature of a region is the sum over its stored values, and these are what was last written. -/
def signedRight (s : State) (d : Descriptor) : Bool :=
  sigOf s d.slot == storedSum s d d.count && keptWords s d d.count

/-- R57, the law of the device that governs the signatures: while RUNNING, each signed region whose state is NORMAL has a
running signature equal to the sum of weight times residue over its stored values. -/
def storedLaw (s : State) : Bool :=
  s.dev != .running || s.rgt.entries.all (fun e => !e.2.desc.signed || e.2.suspect || signedRight s e.2.desc)

/-- The pass in progress will not make this region NORMAL as it stands: in SIGNING a SUSPECT region, and at the end of a pull
one whose clean flag is clear (R62, R149). -/
def doubted (s : State) (r : Region) : Bool :=
  if s.dev = .signing then r.suspect else !s.rse.pull.clean.getLsbD r.desc.slot

/-- R62, R63, R149: a pass has signed the regions that are not ahead of it, and the signing sum covers the blocks read so far. A
pull without a pass has only NORMAL regions clean, a re-signing pass has only SUSPECT regions before it, buffers are full only in
a pull without a pass, and a pull that completes keeps the server's entries. -/
def passSumLaw (s : State) : Bool :=
  (s.rse.pull.buffers.isEmpty || (pulling s && s.sgu.pass.isNone)) &&
    (s.rse.pull.phase != .completing || (s.rse.pull.ending.bind PullEndFrame.entries).isSome) &&
    match s.sgu.pass with
    | none =>
      s.dev != .signing &&
        (s.rse.pull.phase != .completing ||
          s.rgt.entries.all (fun e => !e.2.desc.signed || doubted s e.2 || !e.2.suspect))
    | some p =>
      p.slots.Nodup &&
        p.slots.all (fun k =>
          match slotRegion s k with
          | some e => s.dev == .signing || e.2.suspect
          | none => false) &&
        (match p.slots.head?.bind (slotRegion s) with
         | some e =>
           e.2.desc.first ≤ p.block && p.block < e.2.desc.first + e.2.desc.count &&
             (doubted s e.2 ||
               (p.sum == storedSum s e.2.desc (p.block - e.2.desc.first) &&
                 keptWords s e.2.desc (p.block - e.2.desc.first)))
         | none => false) &&
        s.rgt.entries.all (fun e =>
          !e.2.desc.signed || p.slots.contains e.2.desc.slot || doubted s e.2 || signedRight s e.2.desc)

/-- Every word that the check code does not report UNCORRECTABLE reads as the data last written: no disturbance of three or more
bits is reported otherwise (R40, R59, R67). -/
def Truthful (s : State) : Prop :=
  ∀ a, (readWord s a).cond ≠ .uncorrectable → (readWord s a).value = (memGet s.mpu.mem a).written

/-! ### The end of a step -/

/-- How the service of `u` goes on by itself up to the state `t` in which the step ends, without a grant (R154 to R157): with
nothing left to send it is FINISHING or has ended with DONE; a walk at its end, and a mark in FINISHING, bring RESENDING; a
service whose phase stays is as it was. The credit silence timer runs exactly while the service has no credit and a block to
send. -/
def ServiceGoesOn (u t : State) : Prop :=
  let a := u.rse.service
  let b := t.rse.service
  let walked := a.phase = .walking ∧ a.walkPos = some .finished ∨ a.phase = .resending ∨ a.phase = .finishing
  (a.phase = .idle → b.phase = .idle) ∧
    (a.phase = .sending → serverTarget u ≠ none → b.phase = .sending) ∧
    (a.phase = .walking → a.walkPos ≠ some .finished → b.phase = .walking) ∧
    (walked → u.cju.resend ≠ [] → b.phase = .resending) ∧
    (a.phase = .sending ∧ serverTarget u = none ∨ walked ∧ u.cju.resend = [] → b.phase = .finishing ∨ b.phase = .idle) ∧
    (b.phase = a.phase → b = { a with timer := b.timer }) ∧
    (b.phase = .resending → a.phase ≠ .resending →
      b.tried = [] ∧ b.waiting = false ∧ b.sendPos = if a.phase = .walking then 0 else a.sendPos) ∧
    b.timer =
      if a.credits = 0 ∧ (serverTarget t).isSome = true then some (a.timer.getD u.times.pullSilence) else none

/-- What may differ between the state `u` that a command's own effect leaves and the state `t` in which its step ends: held
transfers whose holds have ended are judged again (R21, R28, R36), the service goes on as far as it can without a grant
(R154 to R157), and free transmitters begin (R116). With nothing held and no service active only the transmitters move. -/
def EndOfStep (u t : State) : Prop :=
  t = { u with
        ppt := t.ppt
        pwq := { u.pwq with entries := t.pwq.entries, hold := t.pwq.hold }
        lkc.tx := t.lkc.tx
        rse.service := { u.rse.service with
          phase := t.rse.service.phase, sendPos := t.rse.service.sendPos, timer := t.rse.service.timer,
          tried := t.rse.service.tried, waiting := t.rse.service.waiting }
        cmu := { u.cmu with
          events := t.cmu.events, nextSeq := t.cmu.nextSeq, dropped := t.cmu.dropped, alert := t.cmu.alert } } ∧
    ServiceGoesOn u t ∧
    (∃ more, t.pwq.entries = u.pwq.entries ++ more) ∧
    (∀ ini, heldOf u ini = none → t.ppt.answers.get ini = u.ppt.answers.get ini) ∧
    (u.ppt.held = [] → t.ppt = u.ppt ∧ t.pwq = u.pwq) ∧
    (u.ppt.held = [] → serving u = false → t = { u with lkc.tx := t.lkc.tx, rse.service.timer := none })

end Sys2Proof.Machine
end

