-- ==== Sys2Proof/WellFormed.lean ====
section
/-! DEFINITION. Which commands can be presented to the part: transfers are word-aligned (R17), a command frame fits the
request area (R169), and the fields of a received frame have the form that R108 and 12.5 give. -/

namespace Sys2Proof

/-- PB_ADDR[1:0] are zero (scope, signal summary; R17). -/
def aligned (addr : BitVec 26) : Bool := addr.toNat % 4 == 0

/-- A frame with more than 253 parameter words leaves no place for its check word (R169). -/
def paramsFit (params : List Word) : Bool := params.length ≤ 253

/-- An entry set carries 16 entries, each value in one word (12.1). -/
def entriesFit (es : List SigEntry) : Bool := es.length == 16 && es.all (fun e => e.value < 4294967296)

/-- R108, step 2, for the kinds with a variable part: a PULL carries at most 32 repair blocks, a BLOCK 16 words, and a
PULL_END its entries exactly when the result is DONE. -/
def pullFits (f : PullFrame) : Bool := f.repair.length ≤ 32

/-- A BLOCK carries 16 words (R113). -/
def blockFits (f : BlockFrame) : Bool := f.words.length == 16

/-- The entries of a PULL_END are present when the result is DONE and absent otherwise (R108). -/
def pullEndFits (f : PullEndFrame) : Bool :=
  match f.entries with
  | some es => f.result == .done && entriesFit es
  | none => f.result != .done

/-- A command that can be presented to the part. -/
def Instr.wellFormed : Instr → Bool
  | .powerOn _ content => content.all (fun e => e.1 < Config.words)
  | .pinResetAssert cut =>
    match cut with
    | some c => c.done ≤ 16
    | none => true
  | .pinResetRelease _ => true
  | .memoryRead _ addr _ => aligned addr
  | .memoryWrite _ addr _ _ => aligned addr
  | .addressRefused _ _ addr _ _ => aligned addr
  | .requestAreaWrite addr _ _ => aligned addr
  | .commandOverrun _ => true
  | .unknownCommand _ => true
  | .procReadGrant => true
  | .correctionWriteBack => true
  | .pwqHeadWrite => true
  | .capture => true
  | .rollbackGrant => true
  | .patrolRead => true
  | .serverRead => true
  | .requesterWrite => true
  | .initBlockWrite => true
  | .signingRead => true
  | .reSigningRead => true
  | .clearTable _ ps => paramsFit ps
  | .clearTableDrained => true
  | .loadRegion _ ps => paramsFit ps
  | .loadRegionDrained => true
  | .loadSlots _ ps => paramsFit ps
  | .setTiming _ ps => paramsFit ps
  | .setQueue _ ps => paramsFit ps
  | .initMemory _ ps => paramsFit ps
  | .initMemoryBegin => true
  | .endConfig _ ps => paramsFit ps
  | .endConfigChecks => true
  | .openCycle _ ps => paramsFit ps
  | .closeCycle _ ps => paramsFit ps
  | .closeDrainEnd => true
  | .abandonCycle _ ps => paramsFit ps
  | .restore _ ps => paramsFit ps
  | .setPatrol _ ps => paramsFit ps
  | .setAlertMask _ ps => paramsFit ps
  | .readState _ ps => paramsFit ps
  | .readRegion _ ps => paramsFit ps
  | .readPeers _ ps => paramsFit ps
  | .readEvents _ ps => paramsFit ps
  | .reset _ ps => paramsFit ps
  | .commandReset => true
  | .cycleLimit => true
  | .voteTimerExpiry => true
  | .peerSilenceExpiry _ => true
  | .helloTimer => true
  | .patrolInterval => true
  | .pullSilenceExpiry => true
  | .creditSilenceExpiry => true
  | .permitToggle => true
  | .invalidFrame _ _ => true
  | .helloReceived _ _ _ => true
  | .voteReceived _ _ f => entriesFit f.entries
  | .pullReceived _ _ f => pullFits f
  | .blockReceived _ _ f => blockFits f
  | .creditReceived _ _ _ => true
  | .pullEndReceived _ _ f => pullEndFits f
  | .frameTransmitEnd _ => true
  | .arrayDisturbance _ _ _ => true

end Sys2Proof
end

