-- ==== Sys2Proof/Certificates/Slice0/Obligations.lean ====
section
/-! DEFINITION. The statements about the part for the provers. `Claim` holds the words they share. -/

open Sys2Proof Sys2Proof.Machine

/-! ### Words that the statements share -/

/-- An answer of the part as PB_RESP and PB_DATA show it. -/
def Claim.answered (ini : Initiator) (resp : Resp) (data : Word) (s : State) : State :=
  { s with ppt.answers := s.ppt.answers.put ini (some ⟨resp, data⟩) }

/-- The transfer of an initiator is held. -/
def Claim.held (t : Transfer) (h : Hold) (s : State) : State :=
  { Claim.answered t.ini .wait 0 s with ppt.held := s.ppt.held ++ [⟨t, h⟩] }

/-- Software has written a command frame, the write of the submit word was answered OKAY, and the part has taken the frame
(R168). -/
def Claim.presented (cmd : Command) (tag : Byte) (ps : List Word) (s : State) : State :=
  { Claim.answered .data .okay 0 s with
    cmu := { s.cmu with
      request := putWords s.cmu.request 0 (commandFrame cmd tag ps)
      header := ⟨.pending, 0, 0, 0⟩
      buffer := some ⟨cmd, tag, ps⟩ } }

/-- `u` with the response of `t`. -/
def Claim.withResponse (t u : State) : State :=
  { u with cmu := { u.cmu with header := t.cmu.header, response := t.cmu.response, buffer := t.cmu.buffer } }

/-- The response area of `t` holds a response with these header fields and data words, and above its check word what it held
in `s` (R170, R183). -/
def Claim.response (status : Status) (detail : Nat) (tag : Byte) (data : List Word) (s t : State) : Prop :=
  t.cmu.header = ⟨status, detail, tag, data.length⟩ ∧ t.cmu.buffer = none ∧
    (∀ k, k < data.length → responseWord t (k + 1) = data.getD k 0) ∧
    responseWord t (data.length + 1) = (crc16 (wordsBytes (headerWord t.cmu.header :: data))).setWidth 32 ∧
    ∀ k, data.length + 1 < k → responseWord t k = responseWord s k

/-- A command frame that passes checks 1, 2 and 4 of R169 can be taken now. -/
def Claim.takes (cmd : Command) (s : State) : Prop :=
  s.resetLow = false ∧ s.cmu.header.status ≠ .pending ∧
    (s.mpu.initOp = none ∨ cmd = .readState ∨ cmd = .readRegion ∨ cmd = .readEvents ∨ cmd = .reset)

/-- The software command of the table that a command code names. -/
def Claim.software (cmd : Command) (tag : Byte) (ps : List Word) : Instr :=
  match cmd with
  | .clearTable => .clearTable tag ps
  | .loadRegion => .loadRegion tag ps
  | .loadSlots => .loadSlots tag ps
  | .setTiming => .setTiming tag ps
  | .setQueue => .setQueue tag ps
  | .initMemory => .initMemory tag ps
  | .endConfig => .endConfig tag ps
  | .openCycle => .openCycle tag ps
  | .closeCycle => .closeCycle tag ps
  | .abandonCycle => .abandonCycle tag ps
  | .restore => .restore tag ps
  | .setPatrol => .setPatrol tag ps
  | .setAlertMask => .setAlertMask tag ps
  | .readState => .readState tag ps
  | .readRegion => .readRegion tag ps
  | .readPeers => .readPeers tag ps
  | .readEvents => .readEvents tag ps
  | .reset => .reset tag ps

/-- The command in the buffer is this one and the queue has drained. -/
def Claim.drainedUnder (cmd : Command) (f : CmdFrame) (s : State) : Prop :=
  s.resetLow = false ∧ s.cmu.buffer = some f ∧ f.cmd = cmd ∧ s.pwq.entries = []

/-- The port's next grant is this one, with the pointer that it leaves. -/
def Claim.grants (g : Grant) (p : Nat) (s : State) : Prop := s.resetLow = false ∧ nextGrant s = some (g, p)

/-- The array of `t` is that of `s` after a block-read grant over block `b`: each CORRECTABLE word of the block is written
back with fresh check bits, and every other word of the array is as it was (R46). -/
def Claim.corrected (b : Nat) (s t : State) : Prop :=
  ∀ a, a < Config.words →
    memGet t.mpu.mem a =
      if blockOf a = b ∧ (readWord s a).cond = .correctable then freshWord (readWord s a).value else memGet s.mpu.mem a

/-- An error count that has gone up `n` times: it saturates at 65,535 (R13). -/
def Claim.counted (n c : Nat) : Nat := max c (min 65535 (c + n))

/-- The region table of `s` after a block-read grant over block `b`, apart from the regions' states: the region that holds
the block counts each CORRECTABLE word and each UNCORRECTABLE one, and every other entry is as it was (R13, R46). -/
def Claim.counts (b : Nat) (s : State) : List (Nat × Region) :=
  match regionOf s b with
  | some (i, _) =>
    let found := fun c => (blockWords b).countP (fun a => (readWord s a).cond == c)
    s.rgt.entries.map (fun e =>
      if e.1 = i then
        (e.1, { e.2 with
          corrected := Claim.counted (found .correctable) e.2.corrected
          uncorrectable := Claim.counted (found .uncorrectable) e.2.uncorrectable })
      else e)
  | none => s.rgt.entries

/-- The table of `t` has the entries of that table in their places, with descriptors and counts; the states are left open. -/
def Claim.countsWords (b : Nat) (s t : State) : Prop :=
  t.rgt.fingerprint = s.rgt.fingerprint ∧
    t.rgt.entries.map (fun e => (e.1, { e.2 with state := .normal })) =
      (Claim.counts b s).map (fun e => (e.1, { e.2 with state := .normal }))

/-- The array of `t` is that of `s` with these words written whole (R39). -/
def Claim.wrote (ws : List (Nat × Word)) (s t : State) : Prop :=
  (∀ a v, (a, v) ∈ ws → a < Config.words → memGet t.mpu.mem a = freshWord v) ∧
    ∀ a, a ∉ ws.map Prod.fst → memGet t.mpu.mem a = memGet s.mpu.mem a

/-- A frame of this body is the last of those that wait on the link, or has begun its transmission. -/
def Claim.queued (l : Link) (body : FrameBody) (s t : State) : Prop :=
  (∃ c ∈ (t.lkc.tx.get l).ctrl, ctrlBody s c = body) ∨
    (∃ f, (t.lkc.tx.get l).sending = some f ∧ f.body = body) ∨ ∃ b ∈ (t.lkc.tx.get l).blocks, FrameBody.block b = body

/-- A valid frame of link `l` can be received and reaches its consumer (R106, R110). -/
def Claim.hears (fp : BitVec 16) (s : State) : Prop :=
  s.resetLow = false ∧ s.position ≠ 3 ∧ s.dev ≠ .configuring ∧ fp = s.rgt.fingerprint

/-- The part whose peer's presence a valid frame other than a HELLO has refreshed: HEARD, the time of last frame is now, and
a peer that was SILENT has its PEER_STATE event (R118). -/
def Claim.refreshed (l : Link) (s : State) : State :=
  { s with
    lkc.peers := s.lkc.peers.put l { s.lkc.peers.get l with heard := true, lastFrame := some s.cmu.ms }
    cmu :=
      if (s.lkc.peers.get l).heard then s.cmu
      else (recordEvent (.peerState (peerPosition s.position l) true (s.lkc.peers.get l).matched) s).cmu }

/-- The test of R143 starts a FULL pull. -/
def Claim.pullDue (s : State) : Prop :=
  s.cju.chan = some .excluded ∧ s.rse.pull.attempts < 3 ∧ pulling s = false ∧ ∃ m, eligible s m = true

/-- The frame that the command unit reads names L, its parameter words, in bits 15 to 8 of word 0 (R169). -/
def Claim.frameLength (area : List (Nat × Word)) : Nat := ((areaWord area 0).extractLsb' 8 8).toNat

/-- The check word of that frame is the CRC-16 over the words before it, and L is not above 253 (R169, step 1; R183). -/
def Claim.frameChecks (area : List (Nat × Word)) : Prop :=
  Claim.frameLength area ≤ 253 ∧
    areaWord area (Claim.frameLength area + 1) =
      (crc16 (wordsBytes ((List.range (Claim.frameLength area + 1)).map (areaWord area)))).setWidth 32

/-- Word 0 of that frame names a command: bits 7 to 0 are zero, and the code in bits 31 to 24 is 1 to 18 (R169, step 2). -/
def Claim.frameNames (area : List (Nat × Word)) : Prop :=
  (areaWord area 0).extractLsb' 0 8 = 0 ∧ 1 ≤ ((areaWord area 0).extractLsb' 24 8).toNat ∧
    ((areaWord area 0).extractLsb' 24 8).toNat ≤ 18

/-- The ten checks of R6 on the parameter words of a LOAD_REGION, by their step. -/
def Claim.regionCheck (entries : List (Nat × Region)) (ps : List Word) : Nat → Prop
  | 1 => param ps 1 ≤ 31
  | 2 => param ps 2 = 1 ∨ param ps 2 = 2 ∨ param ps 2 = 3
  | 3 => param ps 3 ≤ 65535
  | 4 => 1 ≤ param ps 4 ∧ param ps 4 ≤ 65536 ∧ param ps 3 + param ps 4 ≤ 65536
  | 5 => ∀ e ∈ entries, e.1 ≠ param ps 1 →
      param ps 3 + param ps 4 ≤ e.2.desc.first ∨ e.2.desc.first + e.2.desc.count ≤ param ps 3
  | 6 => param ps 5 < 64 ∧
      (param ps 2 = 1 → (param ps 5).testBit 0 = true ∧ (param ps 5).testBit 1 = true ∧ (param ps 5).testBit 2 = false) ∧
      (param ps 2 ≠ 3 → (param ps 5).testBit 3 = false ∧ (param ps 5).testBit 5 = false)
  | 7 => if param ps 2 = 3 then param ps 6 = 0
      else param ps 6 ≤ 15 ∧ ∀ e ∈ entries, e.1 ≠ param ps 1 → e.2.desc.kind ≠ .plain → e.2.desc.slot ≠ param ps 6
  | 8 => if param ps 2 = 3 then param ps 7 = 0 else 1 ≤ param ps 7 ∧ param ps 7 ≤ 2147483646
  | 9 => if param ps 2 = 3 then param ps 8 = 0 else 1 ≤ param ps 8 ∧ param ps 8 ≤ 2147483646
  | _ => param ps 9 ≤ 1

/-- The parameter word at which the failure of a step is reported (R6). -/
def Claim.reportedAt (n : Nat) : Nat := [1, 2, 3, 4, 3, 5, 6, 7, 8, 9].getD (n - 1) 0

/-- The vote waits for a HEARD peer: it has no frame for cycle v (R125). -/
def Claim.awaits (s : State) (l : Link) : Prop :=
  (s.lkc.peers.get l).heard = true ∧ ∀ f ∈ s.vtu.table.get l, f.cycle ≠ s.cju.cycle + 1

/-- What R110 and R118 do with a frame other than a HELLO, the command `c`, before its consumer. In CONFIGURING, and with
another fingerprint, a HEARD peer's frame is discarded: it only refreshes the peer's presence. A SILENT peer's frame makes it
HEARD and the link state's change is acted on: a decision that it brings (R125) or a FULL pull that it starts (R143) comes
first (notes/assumptions/27), and the part that this leaves meets the frame as that of a HEARD peer. -/
def Claim.refreshes (c : Instr) (l : Link) (fp : BitVec 16) : Prop :=
  ∀ s : State, s.resetLow = false → s.position ≠ 3 →
    let w := Claim.refreshed l s
    ((s.lkc.peers.get l).heard = true → s.dev = .configuring ∨ fp ≠ s.rgt.fingerprint → ∃ t,
      exec c s = .next t ∧ EndOfStep w t) ∧
    ((s.lkc.peers.get l).heard = false → ∃ u, exec c s = exec c u ∧
      (u.lkc.peers.get l).heard = true ∧ (u.lkc.peers.get l).lastFrame = some s.cmu.ms ∧ u.resetLow = false ∧
      u.position = s.position ∧ u.dev = s.dev ∧ u.rgt.fingerprint = s.rgt.fingerprint ∧
      (¬Claim.pullDue w → (s.cju.chan = some .voting → ∃ m, Claim.awaits w m) → u = w) ∧
      (Claim.pullDue w →
        u.cju.chan = some .restoring ∧ u.rse.pull.phase = .receiving ∧ u.rse.pull.kind = some .full) ∧
      (s.cju.chan = some .voting → s.vtu.timer.isSome = true → (∀ m, ¬Claim.awaits w m) → ∃ t,
        exec .voteTimerExpiry w = .next t ∧ EndOfStep u t))

/-- The decision that `t` holds as its last has its DECISION event where its outcome or its agreeing set is not that of the
decision before it, with the cycle decided and, as the event's cycle, v as the decision has left it; a decision equal in both
records none (R134). `room` places in the event queue are enough for the events of the step up to it. -/
def Claim.decisionRecorded (room : Nat) (s t : State) : Prop :=
  ∀ d, t.vtu.last = some d →
    ((∀ old, s.vtu.last = some old → old.outcome ≠ d.outcome ∨ old.agreeing ≠ d.agreeing) →
      s.cmu.events.length + room ≤ 64 → ∃ v ∈ t.cmu.events,
        v.body = .decision d.outcome d.agreeing d.cycle ∧ v.cycle = t.cju.cycle + 1) ∧
    (∀ old, s.vtu.last = some old → old.outcome = d.outcome → old.agreeing = d.agreeing →
      ∀ v ∈ t.cmu.events, v ∈ s.cmu.events ∨ ∀ o g c, v.body ≠ .decision o g c)

/-- A slot passes the completion check of R149 against the server's entries. -/
def Claim.slotPasses (s : State) (es : List SigEntry) (k : Nat) : Prop :=
  ∃ e, es[k]? = some e ∧
    (e.flag = .absent ∧ slotRegion s k = none ∨
      e.flag = .valid ∧ slotRegion s k ≠ none ∧ sigOf s k = e.value ∧ s.rse.pull.clean.getLsbD k = true)

/-- The pull of `u` has succeeded in `t` (R149): c is the tag of the PULL_END, every signed region is NORMAL, the repair
list is empty, the closed set is the server's, and the channel is READY on an agreed base. With `room` places in the event
queue its end is recorded. -/
def Claim.pullSucceeds (room : Nat) (l : Link) (f : PullEndFrame) (es : List SigEntry) (u t : State) : Prop :=
  t.cju.chan = some .ready ∧ t.cju.cycle = f.tag ∧ t.cju.repair = [] ∧ t.cju.repairOverflow = false ∧
    t.cju.journal = [] ∧ t.cju.wCur = [] ∧ t.cju.unrevertible = false ∧
    t.cju.wPrevValid = decide (u.rse.pull.kind = some .delta) ∧
    t.cju.wPrev = (if u.rse.pull.kind = some .delta then u.cju.wPrev else []) ∧
    t.vtu.closedSet = es ∧ t.vtu.agreedBase = true ∧
    t.rgt.entries.map (fun e => (e.1, e.2.desc)) = u.rgt.entries.map (fun e => (e.1, e.2.desc)) ∧
    (∀ e ∈ t.rgt.entries, e.2.desc.signed = true → e.2.state = .normal) ∧
    t.rse.pull.phase = .idle ∧ t.rse.pull.attempts = 0 ∧ t.rse.pull.timer = none ∧ t.sgu.pass = none ∧
    (u.cmu.events.length + room ≤ 64 → ∃ r ∈ t.cmu.events,
      r.body = .pullEnded (peerPosition u.position l) (some .done) none u.rse.pull.received)

/-- The pull of `u` has failed in `t` for a cause (R150). -/
def Claim.pullFails (room : Nat) (l : Link) (cause : PullCause) (result : Option PullResult) (u t : State) : Prop :=
  t.vtu.agreedBase = false ∧ t.rse.pull.attempts = min 3 (u.rse.pull.attempts + 1) ∧ t.cju.wPrev = [] ∧
    t.cju.wPrevValid = false ∧ t.cju.cycle = u.cju.cycle ∧
    (t.cju.chan = some .excluded ∨ t.cju.chan = some .restoring) ∧
    (u.cmu.events.length + room ≤ 64 → ∃ r ∈ t.cmu.events,
      r.body = .pullEnded (peerPosition u.position l) result (some cause) u.rse.pull.received)

/-- What follows once every buffer of a pull that completes is written (R148, R149): the tag and the count are checked, the
regions that are SUSPECT are signed again, and with none SUSPECT the slots are compared. -/
def Claim.buffersWritten (room : Nat) (l : Link) (f : PullEndFrame) (es : List SigEntry) (u t : State) : Prop :=
  let tagOk := u.rse.pull.kind = some .delta → f.tag = u.rse.pull.target
  let countOk := f.sent.toNat = u.rse.pull.received
  let clean := ∀ k e, k < 16 → slotRegion u k = some e → e.2.state = .normal
  (¬tagOk → Claim.pullFails room l .mismatch (some f.result) u t) ∧
    (tagOk → ¬countOk → Claim.pullFails room l .count (some f.result) u t) ∧
    (tagOk → countOk → ¬clean →
      t.rse.pull.phase = .completing ∧ t.cju.chan = u.cju.chan ∧ t.cju.cycle = u.cju.cycle ∧
      ∃ k rest e, slotRegion u k = some e ∧ t.sgu.pass = some ⟨k :: rest, e.2.desc.first, 0, 0⟩ ∧
        (k :: rest).Pairwise (· < ·) ∧
        ∀ j, j ∈ k :: rest ↔ j < 16 ∧ ∃ d, slotRegion u j = some d ∧ d.2.state ≠ .normal) ∧
    (tagOk → countOk → clean →
      ((∀ k, k < 16 → Claim.slotPasses u es k) → Claim.pullSucceeds room l f es u t) ∧
      ((∃ k, k < 16 ∧ ¬Claim.slotPasses u es k) → Claim.pullFails room l .mismatch (some f.result) u t))

/-- The weight of the word at an offset of the region (R55). -/
def Claim.weight (d : Descriptor) (i : Nat) : Nat := max 1 ((d.base + d.mult * i) % 2147483647)

/-- The term w(i) × d of a word write into the region (R58). -/
def Claim.term (d : Descriptor) (a : Nat) (old new : Word) : Nat :=
  Claim.weight d (a - 16 * d.first) * ((residue new + 2147483647 - residue old) % 2147483647) % 2147483647

/-- Terms added to a sum one after another, modulo p. -/
def Claim.added (terms : List Nat) (a : Nat) : Nat := terms.foldl (fun a t => (a + t) % 2147483647) a

/-- A block lies behind the patrol position in the region that the patrol walks (R60). -/
def Claim.behind (s : State) (b : Nat) : Prop :=
  s.dev = .running ∧ s.ptu.enable = true ∧
    ∃ p i r e, s.ptu.position = some p ∧ regionOf s p = some (i, r) ∧ regionOf s b = some (i, e) ∧ b < p

/-- The writes of these words of block `b` have reached the SGU and the PTU, each against the value that the word had: the
running signature of a signed region adds their terms (R58), and so does the patrol's accumulator where the block lies behind
the position (R60, R100). Every other signature is as it was, and of the patrol's records only `turned` may be set besides
(notes/assumptions/43). -/
def Claim.accounted (b : Nat) (ws : List (Nat × Word)) (s t : State) : Prop :=
  let terms := fun (d : Descriptor) => ws.map (fun w => Claim.term d w.1 (readWord s w.1).value w.2)
  (∀ i r, regionOf s b = some (i, r) → r.desc.signed = true →
    t.sgu.sigs = s.sgu.sigs.set r.desc.slot (Claim.added (terms r.desc) (sigOf s r.desc.slot)) ∧
    (Claim.behind s b → t.ptu.acc = Claim.added (terms r.desc) s.ptu.acc) ∧
    (¬Claim.behind s b → t.ptu.acc = s.ptu.acc)) ∧
    ((∀ i r, regionOf s b = some (i, r) → r.desc.signed = false) →
      t.sgu.sigs = s.sgu.sigs ∧ t.ptu.acc = s.ptu.acc) ∧
    t.ptu = { s.ptu with acc := t.ptu.acc, turned := t.ptu.turned }

/-- The service of `s`, if one is active, goes on into `t` as far as the end of the step takes it, and considers its marked
blocks again (R156); the RESEND marks of `t` are these blocks. -/
def Claim.serviceStays (marked : Nat → Prop) (s t : State) : Prop :=
  (∀ k, k ∈ t.cju.resend ↔ marked k) ∧
    ∃ u, EndOfStep u t ∧ u.rse.service = { s.rse.service with tried := [], waiting := false }

/-- The active service of `s` has ended in `t` with a result (R157): the record is idle, the RESEND marks are cleared, the
BLOCK frames that wait on the requester's link are withdrawn, and a PULL_END with that tag is queued there. With `room`
places in the event queue its end is recorded. -/
def Claim.serviceEnds (room : Nat) (result : PullResult) (tag : BitVec 32) (s t : State) : Prop :=
  ∀ l, s.rse.service.requester = some l →
    t.rse.service = { s.rse.service with phase := .idle, timer := none, tried := [], waiting := false } ∧
    t.cju.resend = [] ∧ (t.lkc.tx.get l).blocks = [] ∧
    (s.position ≠ 3 →
      Claim.queued l (.pullEnd ⟨result, tag, BitVec.ofNat 32 s.rse.service.sent, none⟩) s t) ∧
    (s.cmu.events.length + room ≤ 64 → ∃ v ∈ t.cmu.events,
      v.body = .serviceEnded (peerPosition s.position l) result)

/-- The block lies in the region set of the service (R155). -/
def Claim.inSet (s : State) (k : Nat) : Prop :=
  ∃ e ∈ s.rgt.entries, e.2.desc.signed = true ∧ s.rse.service.regionSet.getLsbD e.2.desc.slot = true ∧
    e.2.desc.first ≤ k ∧ k < e.2.desc.first + e.2.desc.count

/-- The block that the server considers next: for SENDING the lowest of the W_PREV blocks and the requester's repair list at
or above the send position (R154), for WALKING the one at the walk position (R155), and for RESENDING, unless the server
waits, the lowest marked one at or above the send position, wrapping to the lowest (R156). -/
def Claim.blockDue (s : State) (b : Nat) : Prop :=
  let r := s.rse.service
  let lowest := fun (low : Nat) (set : Nat → Prop) => low ≤ b ∧ set b ∧ ∀ k, low ≤ k → set k → b ≤ k
  (r.phase = .sending ∧ lowest r.sendPos (fun k => k ∈ s.cju.wPrev ∨ k ∈ r.repair)) ∨
    (r.phase = .walking ∧ r.walkPos = some (.block b)) ∨
    (r.phase = .resending ∧ r.waiting = false ∧
      (lowest r.sendPos (fun k => k ∈ s.cju.resend) ∨
        (∀ k ∈ s.cju.resend, k < r.sendPos) ∧ lowest 0 (fun k => k ∈ s.cju.resend)))

/-- Block `b` has been considered in `u`: a walk stands at the next block of the region set above it, or at the end (R155);
the server waits once every remaining marked block has been found unavailable in RESENDING (R156; notes/assumptions/45). -/
def Claim.considered (b : Nat) (s u : State) : Prop :=
  let walking := s.rse.service.phase = .walking
  (¬walking → u.rse.service.walkPos = s.rse.service.walkPos) ∧
    (walking → ∀ n, u.rse.service.walkPos = some (.block n) ↔
      b < n ∧ Claim.inSet s n ∧ ∀ k, b < k → Claim.inSet s k → n ≤ k) ∧
    (walking → (u.rse.service.walkPos = some .finished ↔ ∀ k, b < k → ¬Claim.inSet s k)) ∧
    (s.rse.service.phase = .resending → (u.rse.service.waiting = true ↔
      u.cju.resend ≠ [] ∧ ∀ k ∈ u.cju.resend, k ∈ u.rse.service.tried)) ∧
    (s.rse.service.phase ≠ .resending → s.rse.service.waiting = false → u.rse.service.waiting = false)

/-- The write at the head of the queue needs a capture that the journal has room for (R80, R83). -/
def Claim.captureDue (s : State) (e : PwqEntry) : Prop :=
  s.dev = .running ∧ e.signed = true ∧ vitalBlock s (blockOf e.word) = true ∧ blockOf e.word ∉ s.cju.wCur ∧
    s.cju.journal.length < 512

/-- A class has this request pending, and it is the one that the class would be granted: in PROC the write-back before the
reads before the head, which is ready once its capture is made (R43, R44). Under a RESET no further block of INIT_MEMORY is
requested (R52), and a server asks for a block only with a credit (R153) and room for its frame (R115,
notes/assumptions/40). -/
def Claim.requested (s : State) : PortClass → Grant → Prop
  | .proc, g =>
    (g = .writeBack ∧ s.mpu.writeBack ≠ none) ∨
      (g = .procRead ∧ s.mpu.writeBack = none ∧ ∃ h ∈ s.ppt.held, h.hold = .access) ∨
      (g = .headWrite ∧ s.mpu.writeBack = none ∧ (∀ h ∈ s.ppt.held, h.hold ≠ .access) ∧
        ∃ e rest, s.pwq.entries = e :: rest ∧ ¬Claim.captureDue s e)
  | .journal, g =>
    (g = .capture ∧ ∃ e rest, s.pwq.entries = e :: rest ∧ Claim.captureDue s e) ∨
      (g = .rollback ∧ (∀ e rest, s.pwq.entries = e :: rest → ¬Claim.captureDue s e) ∧
        s.cju.chan = some .rollingBack ∧ s.cju.journal ≠ [])
  | .patrol, g => g = .patrol ∧ s.ptu.request = true
  | .link, g =>
    (g = .requesterWrite ∧ s.rse.pull.buffers ≠ []) ∨
      (g = .serverRead ∧ s.rse.pull.buffers = [] ∧ 1 ≤ s.rse.service.credits ∧ (∃ b, Claim.blockDue s b) ∧
        ∀ l, s.rse.service.requester = some l → (s.lkc.tx.get l).blocks.length < 8)
  | .setup, g =>
    (g = .initBlock ∧ s.mpu.initOp ≠ none ∧ ∀ f, s.cmu.buffer = some f → f.cmd ≠ .reset) ∨
      (s.mpu.initOp = none ∧ s.sgu.pass ≠ none ∧ g = if s.dev = .signing then .signing else .resigning)

/-- The cycle of `s` has been abandoned in `t` for a cause (R77): PERMIT is off, the limit has stopped, the signed entries
have left the queue, and the event is recorded with `room` places in its queue. With a journal to put back the channel is
ROLLING_BACK and the service goes on. Otherwise the own frame is ABANDONED for cycle v, its entries those of the moment
(R86), or all SUSPECT where the cycle cannot be rolled back (R78); it is handed over to the vote, which waits where a HEARD
peer's frame is missing, and otherwise decides at once, as at the vote timer's expiry (R125). -/
def Claim.abandoned (room : Nat) (cause : AbandonCause) (s t : State) : Prop :=
  t.vtu.permitted = false ∧ (s.vtu.permitted = true → t.vtu.level = false) ∧ t.cju.timer = none ∧
    (∃ more, t.pwq.entries = s.pwq.entries.filter (fun e => !e.signed) ++ more) ∧
    (s.cmu.events.length + room ≤ 64 → ∃ r ∈ t.cmu.events, r.body = .abandoned cause) ∧
    (s.cju.unrevertible = false → s.cju.journal ≠ [] →
      t.cju.chan = some .rollingBack ∧ t.cju.journal = s.cju.journal ∧ t.cju.wCur = s.cju.wCur ∧
      t.cju.cycle = s.cju.cycle ∧ t.cju.resend = s.cju.resend ∧
      ∃ u, EndOfStep u t ∧ u.rse.service = s.rse.service) ∧
    (s.cju.unrevertible = true →
      t.vtu.own = some ⟨s.cju.cycle + 1, .abandoned, (List.range 16).map (fun k =>
        ⟨.suspect, if (slotRegion s k).isSome then sigOf s k else 0⟩)⟩) ∧
    (s.cju.unrevertible = false → s.cju.journal = [] →
      t.vtu.own = some ⟨s.cju.cycle + 1, .abandoned, ownEntries t⟩) ∧
    (s.cju.unrevertible = true ∨ s.cju.journal = [] → decidingLaw s = true → (∃ l, Claim.awaits s l) →
      t.cju.chan = some .voting ∧ t.vtu.timer = some s.times.voteTimeout ∧
      (s.position ≠ 3 → ∀ f, t.vtu.own = some f → ∀ l, Claim.queued l (.vote f) s t)) ∧
    (s.cju.unrevertible = true ∨ s.cju.journal = [] → decidingLaw s = true → (∀ l, ¬Claim.awaits s l) → ∃ u v,
      exec .voteTimerExpiry u = .next v ∧
      u.cju = { s.cju with
        chan := some .voting, timer := none, repair := t.cju.repair, repairOverflow := t.cju.repairOverflow } ∧
      u.vtu = { s.vtu with
        own := t.vtu.own, timer := some s.times.voteTimeout, permitted := false, level := t.vtu.level } ∧
      u.lkc.peers = s.lkc.peers ∧ u.rgt = t.rgt ∧ u.rse.service = s.rse.service ∧
      v.cju = t.cju ∧ v.vtu = t.vtu ∧ v.lkc.peers = t.lkc.peers ∧ v.rse.service = t.rse.service)

/-- Two signature entries agree: both ABSENT, or both VALID with equal values (R126). -/
def Claim.entriesAgree (a b : SigEntry) : Prop :=
  a.flag = .absent ∧ b.flag = .absent ∨ a.flag = .valid ∧ b.flag = .valid ∧ a.value = b.value

/-- Two vote frames agree: their cycles, their kinds and their entries slot by slot (R126). -/
def Claim.agree (f g : VoteFrame) : Prop :=
  f.cycle = g.cycle ∧ f.kind = g.kind ∧
    ∀ k, k < 16 → ∃ a b, f.entries[k]? = some a ∧ g.entries[k]? = some b ∧ Claim.entriesAgree a b

/-- The CURRENT frame of a peer: of the frames kept of it the one for cycle v (R122). -/
def Claim.present (s : State) (l : Link) (g : VoteFrame) : Prop :=
  (s.vtu.table.get l).find? (fun f => f.cycle == s.cju.cycle + 1) = some g

/-- The peer's frame is in the own class (R126). -/
def Claim.joins (own : VoteFrame) (s : State) (l : Link) : Prop := ∃ g, Claim.present s l g ∧ Claim.agree own g

/-- The peers' frames are a majority without the own frame; `p` is one of them (R126). -/
def Claim.outside (own : VoteFrame) (s : State) (p : VoteFrame) : Prop :=
  (∀ l, ¬Claim.joins own s l) ∧ ∃ q, Claim.present s .one p ∧ Claim.present s .two q ∧ Claim.agree p q

/-- The condition of line 4 of R127 on a frame of the majority. -/
def Claim.undoes (own : VoteFrame) (s : State) (p : VoteFrame) : Prop :=
  p.kind = .abandoned ∧ own.kind = .closed ∧ s.cju.unrevertible = false

/-- The condition of line 5 of R127 on a frame of the majority. -/
def Claim.catchesUp (own : VoteFrame) (s : State) (p : VoteFrame) : Prop :=
  p.kind = .closed ∧ own.kind = .abandoned ∧ s.cju.unrevertible = false ∧ s.vtu.agreedBase = true ∧
    (∀ e ∈ s.rgt.entries, e.2.desc.signed = true → e.2.state ≠ .suspectUnlocated) ∧ s.cju.repairOverflow = false

/-- The table of R127, line by line, over the own frame and the CURRENT frames: what it rules on them. OUTVOTED names the
lower channel position of the majority (R131). -/
def Claim.rules (own : VoteFrame) (s : State) (r : Ruling) : Prop :=
  (own.kind = .closed ∧ (∀ l, Claim.joins own s l) ∧ r = .outcome .member3 none) ∨
    (own.kind = .closed ∧ (∃ l, Claim.joins own s l) ∧ (∃ l, ¬Claim.joins own s l) ∧ r = .outcome .member2 none) ∨
    (own.kind = .abandoned ∧ (∃ l, Claim.joins own s l) ∧ r = .outcome .collectiveAbandon none) ∨
    (∃ p, Claim.outside own s p ∧ Claim.undoes own s p ∧ r = .rollback p) ∨
    (∃ p l, Claim.outside own s p ∧ Claim.catchesUp own s p ∧
      (∀ m, m ≠ l → peerPosition s.position l < peerPosition s.position m) ∧ r = .outcome .outvoted (some l)) ∨
    (∃ p, Claim.outside own s p ∧ ¬Claim.undoes own s p ∧ ¬Claim.catchesUp own s p ∧ r = .outcome .excluded none) ∨
    ((∀ l, ¬Claim.joins own s l) ∧ (∀ p, ¬Claim.outside own s p) ∧
      r = .outcome (if own.kind = .abandoned ∧ s.cju.unrevertible = true then .excluded else .noQuorum) none)

/-- The agreeing set of a decision: the positions whose frames are in the own class, the own one included (R126). -/
def Claim.agreeing (own : VoteFrame) (s : State) (set : BitVec 3) : Prop :=
  ∀ n, n < 3 → (set.getLsbD n = true ↔
    n = s.position.toNat ∨ ∃ l, Claim.joins own s l ∧ peerPosition s.position l = n)

/-- The peers' views that a decision over the own frame and the CURRENT frames of `s` has left in `t` (R134); of the peer
records nothing else has changed. -/
def Claim.viewed (own : VoteFrame) (s t : State) : Prop :=
  ∀ l, t.lkc.peers.get l = { s.lkc.peers.get l with view := (t.lkc.peers.get l).view } ∧
    (Claim.joins own s l → (t.lkc.peers.get l).view = .member) ∧
    (∀ g, Claim.present s l g → ¬Claim.agree own g →
      (t.lkc.peers.get l).view = match g.kind with | .abandoned => .abandoned | .closed => .dissent) ∧
    ((∀ g, ¬Claim.present s l g) → (t.lkc.peers.get l).view = .absent)

/-- A frame that its consumer discards has only refreshed its peer's presence (R118). -/
def Claim.discarded (l : Link) (s t : State) : Prop :=
  EndOfStep { s with lkc.peers := s.lkc.peers.put l { s.lkc.peers.get l with lastFrame := some s.cmu.ms } } t

/-- The numbers of parameter words that a command may have (R169, step 3). -/
def Claim.lengths : Command → List Nat
  | .clearTable => [0, 1]
  | .loadRegion => [9]
  | .loadSlots => [16]
  | .setTiming => [4]
  | .setQueue => [2]
  | .initMemory => [2]
  | .restore => [0, 1]
  | .setPatrol => [2]
  | .setAlertMask => [1]
  | .readRegion => [1]
  | .readEvents => [1]
  | _ => [0]

/-! ### Resets and the step -/

/-- After power-on every record holds its power-on value, CH_POS is latched, and the array holds the content it came up
with. With RESET_N low the part that comes up is held in its pin reset (notes/assumptions/30). What the book gives no value
for (an address that the content does not list, an answer not yet given, fields that no reset table names) holds the model's
choice (notes/assumptions/1, 31 and 34). -/
def Obligations.PowerOnValues : Prop :=
  ∀ (p : BitVec 2) (content : List (Nat × StoredWord)) (s : State), ∃ t,
    exec (.powerOn p content) s = .next t ∧
    t = { State.reset with
          pending := s.pending, resetLow := s.resetLow, position := p, lkc.helloTimer := !s.resetLow,
          mpu.mem := t.mpu.mem } ∧
    Memory.wf t.mpu.mem = true ∧
    ((content.map Prod.fst).Nodup → ∀ e ∈ content, e.1 < Config.words → memGet t.mpu.mem e.1 = normalWord e.2) ∧
    (∀ a, a ∉ content.map Prod.fst → memGet t.mpu.mem a = StoredWord.unlisted)

/-- The reset values that the book's reset tables give (R15, R38, R53, R68, R91, R105, R120, R138, R159, R165, R167, R181),
and the laws of the device in the state after power-on. The values of fields that no reset table names, the answers among
them, and the form of the array that `arrayLaw` tests are the model's own (notes/assumptions/29, 31 and 34). -/
def Obligations.ResetValuesAndLaws : Prop :=
  (State.reset.dev = .configuring ∧ State.reset.times = ⟨1000, 20, 50, 20⟩ ∧ State.reset.start = none) ∧
  (State.reset.rgt.entries = [] ∧ State.reset.rgt.fingerprint = 0) ∧
  (State.reset.pwq = ⟨[], false, 24, 8⟩ ∧ State.reset.ppt.held = [] ∧
    State.reset.ppt.answers = ⟨none, none, none⟩) ∧
  (State.reset.mpu.slots =
      [.proc, .journal, .proc, .link, .proc, .patrol, .proc, .journal,
       .proc, .link, .proc, .setup, .proc, .journal, .proc, .patrol] ∧
    State.reset.mpu.pointer = 0 ∧ State.reset.mpu.writeBack = none ∧ State.reset.mpu.initOp = none) ∧
  (State.reset.sgu.sigs = List.replicate 16 0 ∧ State.reset.sgu.pass = none) ∧
  (State.reset.cju.chan = none ∧ State.reset.cju.cycle = 0 ∧ State.reset.cju.journal = [] ∧ State.reset.cju.wCur = [] ∧
    State.reset.cju.wPrev = [] ∧ State.reset.cju.wPrevValid = false ∧ State.reset.cju.resend = [] ∧
    State.reset.cju.unrevertible = false ∧ State.reset.cju.repair = [] ∧ State.reset.cju.repairOverflow = false ∧
    State.reset.cju.timer = none) ∧
  (State.reset.ptu.enable = true ∧ State.reset.ptu.interval = 64 ∧ State.reset.ptu.position = none ∧
    State.reset.ptu.acc = 0 ∧ State.reset.ptu.comparable = false ∧ State.reset.ptu.timer = none ∧
    State.reset.ptu.request = false) ∧
  (∀ l, State.reset.lkc.peers.get l = ⟨false, false, none, none, .absent, 0, none⟩ ∧
    State.reset.lkc.tx.get l = ⟨[], [], none, false⟩ ∧ State.reset.vtu.table.get l = []) ∧
  (State.reset.lkc.helloTimer = true ∧ State.reset.vtu.own = none ∧ State.reset.vtu.timer = none ∧
    State.reset.vtu.last = none ∧ State.reset.vtu.agreedBase = false ∧ State.reset.vtu.permitted = false ∧
    State.reset.vtu.level = false ∧ State.reset.vtu.deciding = none ∧
    State.reset.vtu.closedSet = List.replicate 16 ⟨.absent, 0⟩) ∧
  (State.reset.rse.pull.phase = .idle ∧ State.reset.rse.pull.kind = none ∧ State.reset.rse.pull.server = none ∧
    State.reset.rse.pull.buffers = [] ∧ State.reset.rse.pull.received = 0 ∧ State.reset.rse.pull.timer = none ∧
    State.reset.rse.pull.attempts = 0 ∧ State.reset.rse.service.phase = .idle ∧ State.reset.rse.service.kind = none ∧
    State.reset.rse.service.requester = none ∧ State.reset.rse.service.walkPos = none ∧
    State.reset.rse.service.credits = 0 ∧ State.reset.rse.service.sent = 0 ∧ State.reset.rse.service.timer = none) ∧
  (State.reset.cmu.header = ⟨.idle, 0, 0, 0⟩ ∧ State.reset.cmu.buffer = none ∧
    (∀ i, areaWord State.reset.cmu.request i = 0) ∧ (∀ i, i ≠ 0 → responseWord State.reset i = 0) ∧
    State.reset.cmu.events = [] ∧ State.reset.cmu.nextSeq = 0 ∧ State.reset.cmu.dropped = 0 ∧
    State.reset.cmu.mask = BitVec.allOnes 19 ∧ State.reset.cmu.alert = false ∧ State.reset.cmu.ms = 0) ∧
  (arrayLaw State.reset = true ∧ eventLaw State.reset = true ∧ alertLaw State.reset = true ∧
    queueLaw State.reset = true ∧ heldLaw State.reset = true ∧ journalLaw State.reset = true ∧
    revertLaw State.reset = true ∧ repairLaw State.reset = true ∧ signatureLaw State.reset = true ∧
    tableLaw State.reset = true ∧ regionLaw State.reset = true ∧ creditLaw State.reset = true ∧
    resendLaw State.reset = true ∧ pullLaw State.reset = true ∧ commandLaw State.reset = true ∧
    (∀ l, transmitLaw (State.reset.lkc.tx.get l) = true) ∧ voteLaw State.reset = true ∧ decidingLaw State.reset = true ∧
    signedQueueLaw State.reset = true ∧ initLaw State.reset = true ∧ storedLaw State.reset = true ∧
    passSumLaw State.reset = true ∧ permitInvariant State.reset = true)

/-- A step runs the command at the front of the queue on the part with the queue's rest; with no command waiting it is one
tick of the millisecond counter (the model's choice, notes/assumptions/5). -/
def Obligations.StepRunsTheFrontCommand : Prop :=
  (∀ (c : Instr) (rest : List Instr) (s : State), s.pending = c :: rest → step s = exec c { s with pending := rest }) ∧
    (∀ s : State, s.pending = [] → s.resetLow = false → step s = .next { s with cmu.ms := s.cmu.ms + 1 }) ∧
    ∀ s : State, s.pending = [] → s.resetLow = true → step s = .next s

/-- RESET_N low puts every block into its power-on state but for the array, which only the grant cut short may have changed
(the operand says how far it came, notes/assumptions/9). While RESET_N is low a transfer is answered WAIT and not kept
(notes/assumptions/30), and no grant, timer or frame has an effect. RESET_N high makes the part ready. -/
def Obligations.ResetPinHoldsAndReleases : Prop :=
  (∀ (cut : Option Cut) (s : State), ∃ t,
    exec (.pinResetAssert cut) s = .next t ∧
    t = { State.reset with
          pending := s.pending, resetLow := true, position := s.position, lkc.helloTimer := false,
          mpu.mem := t.mpu.mem } ∧
    (cut = none ∨ s.resetLow = true ∨ nextGrant s = none → t.mpu.mem = s.mpu.mem) ∧
    (∀ c g p, cut = some c → s.resetLow = false → nextGrant s = some (g, p) →
      (∀ a, a ∉ (grantVisits s g).map Prod.fst → memGet t.mpu.mem a = memGet s.mpu.mem a) ∧
      (∀ a v, (grantVisits s g)[c.done]? = some (a, v) → c.torn = none → memGet t.mpu.mem a = memGet s.mpu.mem a) ∧
      (∀ i a v, i < c.done → (grantVisits s g)[i]? = some (a, some v) → a < Config.words →
        memGet t.mpu.mem a = freshWord v) ∧
      (∀ i a, i < c.done → (grantVisits s g)[i]? = some (a, none) → memGet t.mpu.mem a = memGet s.mpu.mem a) ∧
      (∀ a v w, (grantVisits s g)[c.done]? = some (a, v) → c.torn = some w → a < Config.words →
        memGet t.mpu.mem a = normalWord w) ∧
      ∀ i a v, c.done < i → (grantVisits s g)[i]? = some (a, v) → memGet t.mpu.mem a = memGet s.mpu.mem a)) ∧
  (∀ (p : BitVec 2) (s : State),
      (s.resetLow = true →
        exec (.pinResetRelease p) s = .next { s with resetLow := false, position := p, lkc.helloTimer := true }) ∧
      (s.resetLow = false → exec (.pinResetRelease p) s = .next s)) ∧
  ∀ s : State, s.resetLow = true →
    (∀ ini addr be, exec (.memoryRead ini addr be) s = .next (Claim.answered ini .wait 0 s)) ∧
    (∀ ini addr be data, exec (.memoryWrite ini addr be data) s = .next (Claim.answered ini .wait 0 s)) ∧
    (∀ cmd tag ps, exec (Claim.software cmd tag ps) s = .next (Claim.answered .data .wait 0 s)) ∧
    (∀ c ∈ [Instr.procReadGrant, .correctionWriteBack, .pwqHeadWrite, .capture, .rollbackGrant, .patrolRead, .serverRead,
        .requesterWrite, .initBlockWrite, .signingRead, .reSigningRead, .clearTableDrained, .loadRegionDrained,
        .initMemoryBegin, .endConfigChecks, .closeDrainEnd, .commandReset, .cycleLimit, .voteTimerExpiry,
        .peerSilenceExpiry .one, .peerSilenceExpiry .two, .helloTimer, .patrolInterval, .pullSilenceExpiry,
        .creditSilenceExpiry, .permitToggle, .frameTransmitEnd .one, .frameTransmitEnd .two], exec c s = .next s) ∧
    (∀ l fp f, exec (.helloReceived l fp f) s = .next s) ∧ (∀ l fp f, exec (.voteReceived l fp f) s = .next s) ∧
    (∀ l fp f, exec (.pullReceived l fp f) s = .next s) ∧ (∀ l fp f, exec (.blockReceived l fp f) s = .next s) ∧
    (∀ l fp n, exec (.creditReceived l fp n) s = .next s) ∧ (∀ l fp f, exec (.pullEndReceived l fp f) s = .next s) ∧
    ∀ l bytes, exec (.invalidFrame l bytes) s = .next s

/-! ### The processor bus -/

/-- A write that passes the access check while the hold flag is clear is answered OKAY and, with a byte enable set, becomes
the newest entry of the queue, which sets the hold flag at the upper threshold. -/
def Obligations.WriteIsPosted : Prop :=
  ∀ (ini : Initiator) (addr : BitVec 26) (be : BitVec 4) (data : Word) (s : State) (i : Nat) (r : Region),
    s.resetLow = false → addr.toNat < 0x400000 → heldOf s ini = none → portHold s = false → s.mpu.initOp = none →
    regionOf s (addr.toNat / 64) = some (i, r) → r.desc.rights.getLsbD (rightBit ini true) = true →
    phaseRefusal s r.desc.kind = none → s.pwq.hold = false →
    exec (.memoryWrite ini addr be data) s =
      .next (Claim.answered ini .okay 0
        (if be = 0 then s
         else { s with
                pwq := { s.pwq with
                  entries := s.pwq.entries ++ [⟨addr.toNat / 4, data, be, ini, i, r.desc.signed⟩]
                  hold := decide (s.pwq.upper ≤ s.pwq.entries.length + 1) } }))

/-- What a transfer waits for: a port hold; for a write the hold flag; for a read the queued entries for its word, or a
rollback. A read that passes the access check and meets no hazard and no rollback waits for the memory port. -/
def Obligations.HeldTransfersWait : Prop :=
  (∀ (ini : Initiator) (addr : BitVec 26) (be : BitVec 4) (data : Word) (s : State),
    s.resetLow = false → addr.toNat < 0x400000 → heldOf s ini = none →
    (portHold s = true →
      exec (.memoryRead ini addr be) s = .next (Claim.held ⟨ini, false, addr.toNat / 4, be, 0⟩ .port s) ∧
      exec (.memoryWrite ini addr be data) s = .next (Claim.held ⟨ini, true, addr.toNat / 4, be, data⟩ .port s)) ∧
    (portHold s = false →
      (accessCheck s ⟨ini, true, addr.toNat / 4, be, data⟩ = none → s.pwq.hold = true →
        exec (.memoryWrite ini addr be data) s =
          .next (Claim.held ⟨ini, true, addr.toNat / 4, be, data⟩ .backpressure s)) ∧
      (accessCheck s ⟨ini, false, addr.toNat / 4, be, 0⟩ = none →
        (0 < s.pwq.entries.countP (fun e => e.word == addr.toNat / 4) →
          exec (.memoryRead ini addr be) s =
            .next (Claim.held ⟨ini, false, addr.toNat / 4, be, 0⟩
              (.hazard (s.pwq.entries.countP (fun e => e.word == addr.toNat / 4))) s)) ∧
        (s.pwq.entries.countP (fun e => e.word == addr.toNat / 4) = 0 → s.cju.chan = some .rollingBack →
          signedBlock s (addr.toNat / 64) = true →
          exec (.memoryRead ini addr be) s = .next (Claim.held ⟨ini, false, addr.toNat / 4, be, 0⟩ .rollback s))))) ∧
  ∀ (ini : Initiator) (addr : BitVec 26) (be : BitVec 4) (s : State) (i : Nat) (r : Region),
    s.resetLow = false → addr.toNat < 0x400000 → heldOf s ini = none → portHold s = false → s.mpu.initOp = none →
    regionOf s (addr.toNat / 64) = some (i, r) → r.desc.rights.getLsbD (rightBit ini false) = true →
    (∀ e ∈ s.pwq.entries, e.word ≠ addr.toNat / 4) → ¬(r.desc.signed = true ∧ s.cju.chan = some .rollingBack) →
    exec (.memoryRead ini addr be) s = .next (Claim.held ⟨ini, false, addr.toNat / 4, be, 0⟩ .access s)

/-- The first failed check of R20 refuses a transfer: ERROR, the event of R22 and R23, and nothing else. A write into a
VITAL or CODE region is refused in CATCHUP and RESTORING, in SIGNING, and in RUNNING unless the region is VITAL and the
channel OPEN. The region of a block is the loaded one that contains it (R3), and that of a slot the signed one that names it
(R54). -/
def Obligations.AccessCheckRefuses : Prop :=
  (∀ (b i : Nat) (r : Region) (s : State), tableLaw s = true →
    (regionOf s b = some (i, r) ↔
      assocFind s.rgt.entries i = some r ∧ r.desc.first ≤ b ∧ b < r.desc.first + r.desc.count)) ∧
  (∀ (k i : Nat) (r : Region) (s : State), tableLaw s = true →
    (slotRegion s k = some (i, r) ↔
      assocFind s.rgt.entries i = some r ∧ r.desc.signed = true ∧ r.desc.slot = k)) ∧
  (∀ (ini : Initiator) (addr : BitVec 26) (be : BitVec 4) (data : Word) (s : State) (reason : AccessReason)
    (region : Option Nat) (write : Bool),
    s.resetLow = false → addr.toNat < 0x400000 → heldOf s ini = none → portHold s = false →
    (s.mpu.initOp.isSome = true ∧ reason = .initBusy ∧ region = (regionOf s (addr.toNat / 64)).map Prod.fst ∨
     s.mpu.initOp = none ∧ regionOf s (addr.toNat / 64) = none ∧ reason = .notMapped ∧ region = none ∨
     s.mpu.initOp = none ∧ (∃ i r, regionOf s (addr.toNat / 64) = some (i, r) ∧ region = some i ∧
       (r.desc.rights.getLsbD (rightBit ini write) = false ∧ reason = .rights ∨
        r.desc.rights.getLsbD (rightBit ini write) = true ∧ write = true ∧
          phaseRefusal s r.desc.kind = some reason))) →
    (if write then exec (.memoryWrite ini addr be data) s else exec (.memoryRead ini addr be) s) =
      .next (Claim.answered ini .error 0 (recordRefusal reason ini (4 * (addr.toNat / 4)) region s))) ∧
  ∀ (s : State),
    phaseRefusal s .plain = none ∧
    ∀ k, k ≠ .plain →
      (s.cju.chan = some .catchup ∨ s.cju.chan = some .restoring → phaseRefusal s k = some .restoring) ∧
      (s.cju.chan ≠ some .catchup → s.cju.chan ≠ some .restoring →
        (s.dev = .configuring → phaseRefusal s k = none) ∧ (s.dev = .signing → phaseRefusal s k = some .phase) ∧
        (s.dev = .running →
          phaseRefusal s k = if s.cju.chan = some .opened ∧ k = .vital then none else some .phase))

/-- How a refusal is recorded: the newest record takes it when reason, initiator and region are the same, and its repeat
count stops at 255; otherwise it is a record of its own, dropped and counted when the queue is full. An event that a full
queue has dropped is no record in between (the model's choice, notes/assumptions/38). -/
def Obligations.RefusalsAreCollapsed : Prop :=
  ∀ (reason : AccessReason) (ini : Initiator) (a : Nat) (region : Option Nat) (s : State),
    (∀ r a' n, s.cmu.events.getLast? = some r → r.body = .accessRefused reason ini a' region n →
      recordRefusal reason ini a region s =
        { s with
          cmu.events :=
            s.cmu.events.dropLast ++
              [{ r with body := .accessRefused reason ini a' region (if n < 255 then n + 1 else n) }] }) ∧
    ((∀ r ∈ s.cmu.events.getLast?, ∀ a' n, r.body ≠ .accessRefused reason ini a' region n) →
      (s.cmu.events.length < 64 →
        recordRefusal reason ini a region s =
          { s with
            cmu := { s.cmu with
              events := s.cmu.events ++ [⟨s.cmu.nextSeq, s.cmu.ms, s.cju.cycle + 1, .accessRefused reason ini a region 0⟩]
              nextSeq := s.cmu.nextSeq + 1
              alert :=
                decide (s.cmu.events.length + 1 = 64) || s.cmu.mask.getLsbD 0 ||
                  s.cmu.events.any (fun r => eventKind r.body == 9 || s.cmu.mask.getLsbD (eventKind r.body - 1)) } }) ∧
      (64 ≤ s.cmu.events.length →
        recordRefusal reason ini a region s =
          { s with
            cmu := { s.cmu with
              nextSeq := s.cmu.nextSeq + 1
              dropped := if s.cmu.dropped < 65535 then s.cmu.dropped + 1 else s.cmu.dropped } }))

/-- The address decode refuses every address above the aperture, the aperture to FETCH and DMA, and a write of its response
area, with NOT_MAPPED. The refused transfer is a read or a write like any other. -/
def Obligations.AddressDecodeRefuses : Prop :=
  (∀ (ini : Initiator) (write : Bool) (addr : BitVec 26) (be : BitVec 4) (data : Word) (s : State),
    s.resetLow = false →
    (0x400800 ≤ addr.toNat ∨ (0x400000 ≤ addr.toNat ∧ ini ≠ .data) ∨
      (0x400400 ≤ addr.toNat ∧ addr.toNat < 0x400800 ∧ write = true)) →
    exec (.addressRefused ini write addr be data) s =
      .next (Claim.answered ini .error 0 (recordRefusal .notMapped ini addr.toNat none s))) ∧
  ∀ (ini : Initiator) (addr : BitVec 26) (be : BitVec 4) (data : Word) (s : State),
    exec (.addressRefused ini true addr be data) s = exec (.memoryWrite ini addr be data) s ∧
    exec (.addressRefused ini false addr be 0) s = exec (.memoryRead ini addr be) s

/-- A DATA write to the request area changes the enabled bytes of its word there and nothing else, and is answered OKAY. A
DATA read of the aperture is answered OKAY with the word of the request area, 0 at the submit word, or the word of the
response area, and changes nothing. Byte enable k is taken for bits 8k to 8k + 7 (the model's choice, notes/assumptions/33).
-/
def Obligations.RequestAreaTakesBytes : Prop :=
  (∀ (addr : BitVec 26) (be : BitVec 4) (data : Word) (s : State),
    s.resetLow = false → 0x400000 ≤ addr.toNat → addr.toNat < 0x4003FC → ∃ t,
    exec (.requestAreaWrite addr be data) s = .next t ∧
    t = { Claim.answered .data .okay 0 s with cmu.request := t.cmu.request } ∧
    (∀ b, b < 32 →
      (areaWord t.cmu.request ((addr.toNat - 0x400000) / 4)).getLsbD b =
        if be.getLsbD (b / 8) then data.getLsbD b
        else (areaWord s.cmu.request ((addr.toNat - 0x400000) / 4)).getLsbD b) ∧
    ∀ i, i ≠ (addr.toNat - 0x400000) / 4 → areaWord t.cmu.request i = areaWord s.cmu.request i) ∧
  ∀ (addr : BitVec 26) (be : BitVec 4) (s : State),
    s.resetLow = false → 0x400000 ≤ addr.toNat → addr.toNat < 0x400800 →
    exec (.memoryRead .data addr be) s =
      .next (Claim.answered .data .okay
        (if addr.toNat < 0x4003FC then areaWord s.cmu.request ((addr.toNat - 0x400000) / 4)
         else if addr.toNat < 0x400400 then 0
         else responseWord s ((addr.toNat - 0x400400) / 4)) s)

/-! ### Commands: their frames and their checks -/

/-- A submission made while the header shows PENDING is not taken: it records its own COMMAND_OVERRUN event, and the response
area, the command buffer and the request area are left as they are. -/
def Obligations.OverrunIsNotTaken : Prop :=
  ∀ (be : BitVec 4) (s : State), s.resetLow = false → be ≠ 0 → s.cmu.header.status = .pending → ∃ t,
    exec (.commandOverrun be) s = .next t ∧
    t = { Claim.answered .data .okay 0 s with
          cmu := { s.cmu with
            events := t.cmu.events, nextSeq := s.cmu.nextSeq + 1, dropped := t.cmu.dropped, alert := t.cmu.alert } } ∧
    (s.cmu.events.length < 64 →
      t.cmu.events = s.cmu.events ++ [⟨s.cmu.nextSeq, s.cmu.ms, s.cju.cycle + 1, .commandOverrun⟩] ∧
      t.cmu.dropped = s.cmu.dropped) ∧
    (64 ≤ s.cmu.events.length → t.cmu.events = s.cmu.events ∧
      t.cmu.dropped = if s.cmu.dropped < 65535 then s.cmu.dropped + 1 else s.cmu.dropped)

/-- A submitted frame whose check word does not match, or whose L is above 253, is answered BAD_CHECK with tag 0, and one
that names no command UNKNOWN_COMMAND with the tag of its word 0; nothing but the response changes. A write with no byte
enable submits nothing. -/
def Obligations.BadFramesAreAnswered : Prop :=
  (∀ s : State, s.resetLow = false → exec (.unknownCommand 0) s = .next (Claim.answered .data .okay 0 s)) ∧
  (∀ area : List (Nat × Word),
    (parseCommand area = .badCheck ↔ ¬Claim.frameChecks area) ∧
    ∀ tag, parseCommand area = .unknown tag ↔
      Claim.frameChecks area ∧ ¬Claim.frameNames area ∧ tag = (areaWord area 0).extractLsb' 16 8) ∧
  ∀ (be : BitVec 4) (s : State), s.resetLow = false → be ≠ 0 → s.cmu.header.status ≠ .pending →
    (Claim.frameChecks s.cmu.request → ¬Claim.frameNames s.cmu.request → ∃ t,
      exec (.unknownCommand be) s = .next t ∧
      t = Claim.withResponse t (Claim.answered .data .okay 0 s) ∧
      Claim.response .unknownCommand 0 ((areaWord s.cmu.request 0).extractLsb' 16 8) [] s t) ∧
    (¬Claim.frameChecks s.cmu.request → ∃ t,
      exec (.unknownCommand be) s = .next t ∧
      t = Claim.withResponse t (Claim.answered .data .okay 0 s) ∧ Claim.response .badCheck 0 0 [] s t)

/-- A software command is the writing of its frame to the request area and a write of the submit word. That the row stands
for both is the model's choice (notes/assumptions/13). -/
def Obligations.CommandIsItsSubmittedFrame : Prop :=
  ∀ (cmd : Command) (tag : Byte) (ps : List Word) (be : BitVec 4) (s : State),
    s.resetLow = false → be ≠ 0 → ps.length ≤ 253 →
    exec (Claim.software cmd tag ps) s =
      exec (.unknownCommand be) { s with cmu.request := putWords s.cmu.request 0 (commandFrame cmd tag ps) }

/-- Steps 3 to 5 of R169: a wrong parameter length is BAD_LENGTH, a command that INIT_MEMORY shuts out REFUSED_BUSY, and a
configuration command outside CONFIGURING, a cycle command outside RUNNING or in a channel state of the tables of R71, R73,
R75 and R144 REFUSED_STATE with its subcode; nothing but the response changes. That RESTORE is NOT_NEEDED whatever its donor
word is the model's choice (notes/assumptions/42). -/
def Obligations.CommandChecksRefuse : Prop :=
  (∀ (cmd : Command) (n : Nat), lengthFits cmd n = true ↔ n ∈ Claim.lengths cmd) ∧
  ∀ (cmd : Command) (tag : Byte) (ps : List Word) (s : State),
    s.resetLow = false → s.cmu.header.status ≠ .pending → ps.length ≤ 253 →
    ∀ status detail,
      (lengthFits cmd ps.length = false ∧ status = Status.badLength ∧ detail = 0 ∨
       lengthFits cmd ps.length = true ∧ s.mpu.initOp.isSome = true ∧
         (¬(cmd = .readState ∨ cmd = .readRegion ∨ cmd = .readEvents ∨ cmd = .reset)) ∧ status = .refusedBusy ∧
         detail = 0 ∨
       lengthFits cmd ps.length = true ∧ s.mpu.initOp = none ∧ s.dev ≠ .configuring ∧
         (cmd = .clearTable ∨ cmd = .loadRegion) ∧ status = .refusedState ∧ detail = 1 ∨
       lengthFits cmd ps.length = true ∧ s.mpu.initOp = none ∧ s.dev ≠ .configuring ∧
         (cmd = .loadSlots ∨ cmd = .setTiming ∨ cmd = .setQueue ∨ cmd = .initMemory ∨ cmd = .endConfig) ∧
         status = .refusedState ∧ detail = 2 ∨
       lengthFits cmd ps.length = true ∧ s.mpu.initOp = none ∧ s.dev ≠ .running ∧
         (cmd = .openCycle ∨ cmd = .closeCycle ∨ cmd = .abandonCycle ∨ cmd = .restore) ∧ status = .refusedState ∧
         detail = 3 ∨
       lengthFits cmd ps.length = true ∧ s.mpu.initOp = none ∧ s.dev = .running ∧ status = .refusedState ∧
         (((s.cju.chan = some .closing ∨ s.cju.chan = some .voting ∨ s.cju.chan = some .rollingBack) ∧
            (cmd = .openCycle ∨ cmd = .restore) ∨ s.cju.chan = some .opened ∧ cmd = .restore) ∧ detail = 4 ∨
          ((s.cju.chan = some .ready ∨ s.cju.chan = some .rollingBack ∨ s.cju.chan = some .excluded) ∧
            (cmd = .closeCycle ∨ cmd = .abandonCycle) ∨ s.cju.chan = some .voting ∧ cmd = .abandonCycle) ∧
            detail = 5 ∨
          s.cju.chan = some .excluded ∧ cmd = .openCycle ∧ detail = 6 ∨
          (s.cju.chan = some .catchup ∨ s.cju.chan = some .restoring) ∧
            (cmd = .openCycle ∨ cmd = .closeCycle ∨ cmd = .abandonCycle ∨ cmd = .restore) ∧ detail = 7 ∨
          s.cju.chan = some .ready ∧ s.vtu.agreedBase = true ∧ cmd = .restore ∧ detail = 9)) →
      ∃ t, exec (Claim.software cmd tag ps) s = .next t ∧
        t = Claim.withResponse t
          { Claim.answered .data .okay 0 s with
            cmu.request := putWords s.cmu.request 0 (commandFrame cmd tag ps) } ∧
        Claim.response status detail tag [] s t

/-- CLEAR_TABLE, LOAD_REGION, INIT_MEMORY, END_CONFIG and RESET that pass their checks stay PENDING: the part holds the
frame, and nothing else changes until the queue has drained. CLEAR_TABLE of an index above 31 is BAD_FIELD at word 1 (R7),
and so is INIT_MEMORY from a first block above 65,535; one with a block count of 0, or that goes beyond the last block, is
BAD_FIELD at word 2 (R50). These are answered without a port hold, and nothing else changes. -/
def Obligations.DrainingCommandsStayPending : Prop :=
  (∀ (cmd : Command) (tag : Byte) (ps : List Word) (word : Nat) (s : State),
    Claim.takes cmd s → s.dev = .configuring →
    ((∃ w, cmd = .clearTable ∧ ps = [w] ∧ 31 < w.toNat ∧ word = 1) ∨
     (∃ b n, cmd = .initMemory ∧ ps = [b, n] ∧
       (65535 < b.toNat ∧ word = 1 ∨ b.toNat ≤ 65535 ∧ (n.toNat = 0 ∨ 65536 < b.toNat + n.toNat) ∧ word = 2))) → ∃ t,
    exec (Claim.software cmd tag ps) s = .next t ∧
    t = Claim.withResponse t (Claim.presented cmd tag ps s) ∧ Claim.response .badField word tag [] s t ∧
    portHold t = false) ∧
  ∀ (cmd : Command) (tag : Byte) (ps : List Word) (s : State),
    Claim.takes cmd s →
    (cmd = .reset ∧ ps = [] ∨
     s.dev = .configuring ∧
       (cmd = .clearTable ∧ (ps = [] ∨ ∃ w, ps = [w] ∧ w.toNat < 32) ∨ cmd = .loadRegion ∧ ps.length = 9 ∨
        (cmd = .initMemory ∧ ∃ b n, ps = [b, n] ∧ 1 ≤ n.toNat ∧ b.toNat + n.toNat ≤ 65536) ∨
        cmd = .endConfig ∧ ps = [])) →
    exec (Claim.software cmd tag ps) s = .next (Claim.presented cmd tag ps s) ∧
      portHold (Claim.presented cmd tag ps s) = true

/-! ### Configuration -/

/-- LOAD_SLOTS with 16 class codes that name every class replaces the slot table and puts the pointer at slot 0. A first
word that is no class code is BAD_FIELD at that word, and a table of class codes without one of the classes is BAD_FIELD at
word 16; then the slot table and the pointer stay. The port goes to the first slot from the pointer on, slot 15 being
followed by slot 0, whose class has a request, and the pointer then names the slot after it; it is idle exactly while no
class has a request (R47). Of the reads the earliest is taken (R44). The command of a grant that is not the arbiter's next
one changes nothing (read from R47, notes/assumptions/4). -/
def Obligations.SlotTableIsLoaded : Prop :=
  (∀ (tag : Byte) (classes : List PortClass) (s : State),
    Claim.takes .loadSlots s → s.dev = .configuring → classes.length = 16 → (∀ c, c ∈ classes) → ∃ t,
    exec (.loadSlots tag (classes.map (fun c => BitVec.ofNat 32 (portClassCode c)))) s = .next t ∧
    t = Claim.withResponse t
      { Claim.presented .loadSlots tag (classes.map (fun c => BitVec.ofNat 32 (portClassCode c))) s with
        mpu := { s.mpu with slots := classes, pointer := 0 } } ∧
    Claim.response .done 0 tag [] s t) ∧
  (∀ (tag : Byte) (ps : List Word) (word : Nat) (s : State),
    Claim.takes .loadSlots s → s.dev = .configuring → ps.length = 16 →
    (1 ≤ word ∧ word ≤ 16 ∧ (∀ j, 1 ≤ j → j < word → 1 ≤ param ps j ∧ param ps j ≤ 5) ∧
        ¬(1 ≤ param ps word ∧ param ps word ≤ 5) ∨
      word = 16 ∧ (∀ j, 1 ≤ j → j ≤ 16 → 1 ≤ param ps j ∧ param ps j ≤ 5) ∧
        ∃ c, 1 ≤ c ∧ c ≤ 5 ∧ ∀ j, 1 ≤ j → j ≤ 16 → param ps j ≠ c) → ∃ t,
    exec (.loadSlots tag ps) s = .next t ∧
    t = Claim.withResponse t (Claim.presented .loadSlots tag ps s) ∧ Claim.response .badField word tag [] s t) ∧
  (∀ (s : State) (g : Grant) (p : Nat), s.mpu.slots.length = 16 →
    (nextGrant s = some (g, p) ↔ ∃ n c,
      n < 16 ∧ s.mpu.slots[(s.mpu.pointer + n) % 16]? = some c ∧ Claim.requested s c g ∧
      p = (s.mpu.pointer + n + 1) % 16 ∧
      ∀ m d, m < n → s.mpu.slots[(s.mpu.pointer + m) % 16]? = some d → ∀ h, ¬Claim.requested s d h)) ∧
  (∀ s : State, s.mpu.slots.length = 16 → (∀ c, c ∈ s.mpu.slots) →
    (nextGrant s = none ↔ ∀ c g, ¬Claim.requested s c g)) ∧
  (∀ (s : State) (h : Held), firstAccess s = some h ↔
    ∃ before after, s.ppt.held = before ++ h :: after ∧ h.hold = .access ∧ ∀ g ∈ before, g.hold ≠ .access) ∧
  ∀ (s : State) (c : Instr) (g : Grant),
    (c, g) ∈ [(Instr.procReadGrant, Grant.procRead), (.correctionWriteBack, .writeBack), (.pwqHeadWrite, .headWrite),
      (.capture, .capture), (.rollbackGrant, .rollback), (.patrolRead, .patrol), (.serverRead, .serverRead),
      (.requesterWrite, .requesterWrite), (.initBlockWrite, .initBlock), (.signingRead, .signing),
      (.reSigningRead, .resigning)] →
    (∀ p, nextGrant s ≠ some (g, p)) → exec c s = .next s

/-- SET_TIMING stores the four times, each clamped to its range, and answers DONE with the stored values in the same order;
another parameter length is BAD_LENGTH, and outside CONFIGURING it is refused. A request of 0, 0, 0, 0 is stored as 10, 2, 20
and 5 ms. A HEARD record older than the new peer silence time becomes SILENT with its event; nothing else changes. A command
reset keeps the times; power-on and pin reset give the defaults. -/
def Obligations.TimesAreClamped : Prop :=
  (∀ (tag : Byte) (a b c d : Word) (s : State),
    Claim.takes .setTiming s → s.dev = .configuring → channelLaw s = true → ∃ t,
    exec (.setTiming tag [a, b, c, d]) s = .next t ∧
    t.times = ⟨max 10 (min 5000 a.toNat), max 2 (min 200 b.toNat), max 20 (min 250 c.toNat), max 5 (min 100 d.toNat)⟩ ∧
    Claim.response .done 0 tag
      ([t.times.cycleLimit, t.times.voteTimeout, t.times.peerSilence, t.times.pullSilence].map (BitVec.ofNat 32)) s t ∧
    (∀ l, t.lkc.peers.get l =
      { s.lkc.peers.get l with
        heard := (s.lkc.peers.get l).heard &&
          decide ((s.cmu.ms - ((s.lkc.peers.get l).lastFrame.getD s.cmu.ms)).toNat < t.times.peerSilence) }) ∧
    (s.cmu.events.length < 63 → ∀ l, (s.lkc.peers.get l).heard = true → (t.lkc.peers.get l).heard = false →
      ∃ r ∈ t.cmu.events, r.body = .peerState (peerPosition s.position l) false (s.lkc.peers.get l).matched) ∧
    EndOfStep
      (Claim.withResponse t
        { Claim.presented .setTiming tag [a, b, c, d] s with
          times := t.times
          lkc.peers := t.lkc.peers
          cmu := { (Claim.presented .setTiming tag [a, b, c, d] s).cmu with
            events := t.cmu.events, nextSeq := t.cmu.nextSeq, dropped := t.cmu.dropped, alert := t.cmu.alert } }) t) ∧
  (∀ (tag : Byte) (s : State), Claim.takes .setTiming s → s.dev = .configuring → ∃ t,
    exec (.setTiming tag [0, 0, 0, 0]) s = .next t ∧ t.times = ⟨10, 2, 20, 5⟩) ∧
  (∀ (tag : Byte) (ps : List Word) (s : State), s.resetLow = false → s.cmu.header.status ≠ .pending →
    ps.length ≤ 253 → ps.length ≠ 4 →
    ∃ t, exec (.setTiming tag ps) s = .next t ∧ t.times = s.times ∧ Claim.response .badLength 0 tag [] s t) ∧
  (∀ (tag : Byte) (a b c d : Word) (s : State), Claim.takes .setTiming s → s.dev ≠ .configuring →
    ∃ t, exec (.setTiming tag [a, b, c, d]) s = .next t ∧ t.times = s.times ∧
      Claim.response .refusedState 2 tag [] s t) ∧
  (∀ p content s, ∃ t, exec (.powerOn p content) s = .next t ∧ t.times = ⟨1000, 20, 50, 20⟩) ∧
  (∀ cut s, ∃ t, exec (.pinResetAssert cut) s = .next t ∧ t.times = ⟨1000, 20, 50, 20⟩) ∧
  ∀ s t, exec .commandReset s = .next t → t.times = s.times

/-- SET_QUEUE stores U clamped to 4 to 32 and L clamped to 0 to U − 1, answers DONE with them, and tests the hold flag with
them at once: set at or above the new U, cleared at or below the new L, which releases held writes. Power-on and pin reset
give the defaults, a command reset keeps both. -/
def Obligations.QueueThresholdsAreClamped : Prop :=
  (∀ (tag : Byte) (a b : Word) (s : State), Claim.takes .setQueue s → s.dev = .configuring → ∃ t,
    exec (.setQueue tag [a, b]) s = .next t ∧
    t.pwq.upper = max 4 (min 32 a.toNat) ∧ t.pwq.lower = min (t.pwq.upper - 1) b.toNat ∧
    Claim.response .done 0 tag [BitVec.ofNat 32 t.pwq.upper, BitVec.ofNat 32 t.pwq.lower] s t ∧
    EndOfStep
      (Claim.withResponse t
        { Claim.presented .setQueue tag [a, b] s with
          pwq :=
            ⟨s.pwq.entries,
             if s.pwq.entries.length ≤ t.pwq.lower then false
             else if t.pwq.upper ≤ s.pwq.entries.length then true else s.pwq.hold,
             t.pwq.upper, t.pwq.lower⟩ }) t) ∧
  (∀ (tag : Byte) (s : State), Claim.takes .setQueue s → s.dev = .configuring → ∃ t,
    exec (.setQueue tag [2, 9]) s = .next t ∧ t.pwq.upper = 4 ∧ t.pwq.lower = 3) ∧
  (∀ (tag : Byte) (a b : Word) (s t : State), Claim.takes .setQueue s → s.dev = .configuring →
    exec (.setQueue tag [a, b]) s = .next t → t.pwq.hold = false → ∀ h ∈ t.ppt.held, h.hold ≠ .backpressure) ∧
  (∀ p content s, ∃ t, exec (.powerOn p content) s = .next t ∧ t.pwq.upper = 24 ∧ t.pwq.lower = 8) ∧
  (∀ cut s, ∃ t, exec (.pinResetAssert cut) s = .next t ∧ t.pwq.upper = 24 ∧ t.pwq.lower = 8) ∧
  ∀ s t, exec .commandReset s = .next t → t.pwq.upper = s.pwq.upper ∧ t.pwq.lower = s.pwq.lower

/-- SET_PATROL stores the enable flag and the clamped interval and answers DONE with them; an enable word above 1 is
BAD_FIELD at word 1 and stores nothing. In RUNNING a walk switched on begins at the lowest patrolled block, and one switched
off rests there. -/
def Obligations.PatrolIsSet : Prop :=
  ∀ (tag : Byte) (a b : Word) (s : State), Claim.takes .setPatrol s →
    (1 < a.toNat → ∃ t, exec (.setPatrol tag [a, b]) s = .next t ∧
      t = Claim.withResponse t (Claim.presented .setPatrol tag [a, b] s) ∧ Claim.response .badField 1 tag [] s t) ∧
    (a.toNat ≤ 1 → ∃ t, exec (.setPatrol tag [a, b]) s = .next t ∧
      t = Claim.withResponse t { Claim.presented .setPatrol tag [a, b] s with ptu := t.ptu } ∧
      t.ptu.enable = decide (a.toNat = 1) ∧ t.ptu.interval = max 1 (min 1023 b.toNat) ∧
      (s.dev ≠ .running ∨ t.ptu.enable = s.ptu.enable →
        t.ptu = { s.ptu with enable := t.ptu.enable, interval := t.ptu.interval }) ∧
      (s.dev = .running → t.ptu.enable ≠ s.ptu.enable →
        t.ptu =
          ⟨t.ptu.enable, t.ptu.interval,
           nextBlock ((s.rgt.entries.map (fun e => e.2.desc)).filter Descriptor.patrol) 0, 0, false,
           if t.ptu.enable then some t.ptu.interval else none, false, false⟩) ∧
      Claim.response .done 0 tag [a, BitVec.ofNat 32 t.ptu.interval] s t)

/-- SET_ALERT_MASK replaces the mask whole and answers DONE with it, and ALERT is tested with the new mask at once; a bit
that names no kind is BAD_FIELD at word 1 and leaves the mask. The mask is all enabled after power-on and pin reset, a
command reset keeps it, and while INIT_MEMORY runs the command is REFUSED_BUSY. -/
def Obligations.AlertMaskIsReplaced : Prop :=
  (∀ (tag : Byte) (w : Word) (s : State), Claim.takes .setAlertMask s →
    (524288 ≤ w.toNat → ∃ t, exec (.setAlertMask tag [w]) s = .next t ∧
      t = Claim.withResponse t (Claim.presented .setAlertMask tag [w] s) ∧ Claim.response .badField 1 tag [] s t) ∧
    (w.toNat < 524288 → ∃ t, exec (.setAlertMask tag [w]) s = .next t ∧
      t = Claim.withResponse t
        { Claim.presented .setAlertMask tag [w] s with
          cmu := { (Claim.presented .setAlertMask tag [w] s).cmu with
            mask := w.setWidth 19
            alert := decide (s.cmu.events.length = 64) ||
              s.cmu.events.any (fun r => eventKind r.body == 9 || w.getLsbD (eventKind r.body - 1)) } } ∧
      Claim.response .done 0 tag [w] s t)) ∧
  (∀ (tag : Byte) (w : Word) (s : State), s.resetLow = false → s.cmu.header.status ≠ .pending →
    s.mpu.initOp.isSome = true → ∃ t, exec (.setAlertMask tag [w]) s = .next t ∧ t.cmu.mask = s.cmu.mask ∧
      Claim.response .refusedBusy 0 tag [] s t) ∧
  (∀ p content s, ∃ t, exec (.powerOn p content) s = .next t ∧ t.cmu.mask = BitVec.allOnes 19) ∧
  (∀ cut s, ∃ t, exec (.pinResetAssert cut) s = .next t ∧ t.cmu.mask = BitVec.allOnes 19) ∧
  ∀ s t, exec .commandReset s = .next t → t.cmu.mask = s.cmu.mask

/-- With the queue drained, CLEAR_TABLE unloads its entry, or all of them, and LOAD_REGION makes the ten checks of R6 in
their order: at the first that fails it is BAD_FIELD at the word the check is reported at and stores nothing, and when all
hold it stores its descriptor over what its index held, NORMAL and with counts 0; the other entries stay. -/
def Obligations.TableChangesAfterTheDrain : Prop :=
  (∀ (f : CmdFrame) (s : State), Claim.drainedUnder .clearTable f s → tableLaw s = true → ∃ t,
    exec .clearTableDrained s = .next t ∧ Claim.response .done 0 f.tag [] s t ∧
    (∀ k, assocFind t.rgt.entries k =
      if f.params = [] ∨ param f.params 1 = k then none else assocFind s.rgt.entries k) ∧
    t.mpu = s.mpu ∧ t.cju.chan = s.cju.chan ∧ t.dev = s.dev ∧ t.rgt.fingerprint = s.rgt.fingerprint) ∧
  ∀ (f : CmdFrame) (s : State), Claim.drainedUnder .loadRegion f s →
    (∀ n, 1 ≤ n → n ≤ 10 → (∀ j, 1 ≤ j → j < n → Claim.regionCheck s.rgt.entries f.params j) →
      ¬Claim.regionCheck s.rgt.entries f.params n → ∃ t,
      exec .loadRegionDrained s = .next t ∧ Claim.response .badField (Claim.reportedAt n) f.tag [] s t ∧ t.rgt = s.rgt ∧
      t.sgu = s.sgu ∧ t.mpu = s.mpu ∧ t.ptu = s.ptu) ∧
    ((∀ n, 1 ≤ n → n ≤ 10 → Claim.regionCheck s.rgt.entries f.params n) → ∃ t,
      exec .loadRegionDrained s = .next t ∧ Claim.response .done 0 f.tag [] s t ∧
      (∀ k, assocFind t.rgt.entries k =
        if param f.params 1 = k then some ⟨descriptorOf f.params, .normal, 0, 0⟩ else assocFind s.rgt.entries k) ∧
      ((descriptorOf f.params).signed = true → s.sgu.sigs.length = 16 → sigOf t (descriptorOf f.params).slot = 0) ∧
      t.mpu = s.mpu ∧ t.cju.chan = s.cju.chan ∧ t.dev = s.dev ∧ t.rgt.fingerprint = s.rgt.fingerprint)

/-- With the queue drained, END_CONFIG is refused with BAD_POSITION at position 3 and with NO_VITAL_REGION without a VITAL
descriptor; otherwise it is ACCEPTED, the fingerprint is stored, the device enters SIGNING and the pass begins at the first
block of the region with the lowest slot. -/
def Obligations.EndConfigEntersSigning : Prop :=
  ∀ (f : CmdFrame) (s : State), Claim.drainedUnder .endConfig f s →
    (s.position = 3 → ∃ t, exec .endConfigChecks s = .next t ∧ Claim.response .refusedState 10 f.tag [] s t ∧
      t.dev = s.dev ∧ t.rgt = s.rgt ∧ t.sgu = s.sgu) ∧
    (s.position ≠ 3 → (∀ e ∈ s.rgt.entries, e.2.desc.kind ≠ .vital) → ∃ t,
      exec .endConfigChecks s = .next t ∧ Claim.response .refusedState 11 f.tag [] s t ∧
      t.dev = s.dev ∧ t.rgt = s.rgt ∧ t.sgu = s.sgu) ∧
    (s.position ≠ 3 → (∃ e ∈ s.rgt.entries, e.2.desc.kind = .vital) → s.dev = .configuring → ∃ t,
      exec .endConfigChecks s = .next t ∧ Claim.response .accepted 0 f.tag [] s t ∧ t.dev = .signing ∧
      t.rgt = { s.rgt with fingerprint := fingerprintOf s.rgt.entries } ∧ t.rgt.fingerprint ≠ 0 ∧
      t.mpu = s.mpu ∧ t.cju.chan = s.cju.chan ∧
      (tableLaw s = true → ∃ k e,
        slotRegion s k = some e ∧ (∀ j, j < k → slotRegion s j = none) ∧
        ∃ slots, t.sgu.pass = some ⟨slots, e.2.desc.first, 0, 0⟩ ∧ slots.head? = some k ∧
          ∀ j, j ∈ slots ↔ (j < 16 ∧ slotRegion s j ≠ none)))

/-- With the queue drained, a RESET returns the part to CONFIGURING with no channel state: the table is kept with its regions
NORMAL and their counts 0, the configured values, the array, the mask and the event queue are kept, every peer is SILENT, the
walk stops, and the RESET event holds v as it stood before. That every peer is MISMATCH at once, as the table of R120 says,
and not as it was judged before until its next HELLO, as R119 says, is the model's choice (notes/assumptions/49). -/
def Obligations.CommandResetTakesEffect : Prop :=
  ∀ (f : CmdFrame) (s : State), Claim.drainedUnder .reset f s → ∃ t,
    exec .commandReset s = .next t ∧ Claim.response .done 0 f.tag [] s t ∧
    t.dev = .configuring ∧ t.cju.chan = none ∧ t.cju.cycle = 0 ∧ t.cju.journal = [] ∧ t.cju.repair = [] ∧
    t.vtu.permitted = false ∧ t.vtu.level = false ∧ t.vtu.last = none ∧ t.vtu.agreedBase = false ∧
    t.vtu.closedSet = List.replicate 16 ⟨.absent, 0⟩ ∧
    t.rgt.fingerprint = s.rgt.fingerprint ∧
    t.rgt.entries.map (fun e => (e.1, e.2.desc)) = s.rgt.entries.map (fun e => (e.1, e.2.desc)) ∧
    (∀ e ∈ t.rgt.entries, e.2.state = .normal ∧ e.2.corrected = 0 ∧ e.2.uncorrectable = 0) ∧
    t.sgu = ⟨List.replicate 16 0, none⟩ ∧ t.times = s.times ∧ t.position = s.position ∧
    t.mpu = { s.mpu with pointer := 0, writeBack := none, initOp := none } ∧
    t.pwq.upper = s.pwq.upper ∧ t.pwq.lower = s.pwq.lower ∧
    t.lkc.peers.one = ⟨false, false, none, none, .absent, 0, none⟩ ∧
    t.lkc.peers.two = ⟨false, false, none, none, .absent, 0, none⟩ ∧
    t.rse.pull.phase = .idle ∧ t.rse.service.phase = .idle ∧ t.rse.pull.attempts = 0 ∧
    t.ptu.enable = s.ptu.enable ∧ t.ptu.interval = s.ptu.interval ∧ t.ptu.timer = none ∧ t.ptu.request = false ∧
    t.cmu.mask = s.cmu.mask ∧ t.cmu.ms = s.cmu.ms ∧
    (s.cmu.events.length < 64 → s.cmu.events <+: t.cmu.events) ∧
    (s.cmu.events.length < 62 → ∃ r ∈ t.cmu.events, r.body = .reset ∧ r.cycle = s.cju.cycle + 1)

/-! ### Answers of the read commands -/

/-- READ_STATE, READ_REGION and READ_PEERS answer DONE with the words of the state record, of the entry and of the two peer
records, as they stand at that moment, and change nothing else; an index above 31 is BAD_FIELD at word 1. READ_EVENTS
removes up to n of the oldest records and answers with them; n of 0 or above 8 is BAD_FIELD at word 1. The join code in the
state record is the model's reading (notes/assumptions/37). -/
def Obligations.ReadCommandsAnswer : Prop :=
  (∀ (tag : Byte) (s : State), Claim.takes .readState s → ∃ t, exec (.readState tag []) s = .next t ∧
    t = Claim.withResponse t (Claim.presented .readState tag [] s) ∧ Claim.response .done 0 tag (stateWords s) s t) ∧
  (∀ (tag : Byte) (w : Word) (s : State), Claim.takes .readRegion s → ∃ t, exec (.readRegion tag [w]) s = .next t ∧
    t = Claim.withResponse t (Claim.presented .readRegion tag [w] s) ∧
    (w.toNat < 32 → Claim.response .done 0 tag (regionWords s w.toNat) s t) ∧
    (32 ≤ w.toNat → Claim.response .badField 1 tag [] s t)) ∧
  (∀ (tag : Byte) (s : State), Claim.takes .readPeers s → ∃ t, exec (.readPeers tag []) s = .next t ∧
    t = Claim.withResponse t (Claim.presented .readPeers tag [] s) ∧ Claim.response .done 0 tag (peersWords s) s t) ∧
  ∀ (tag : Byte) (w : Word) (s : State), Claim.takes .readEvents s → ∃ t, exec (.readEvents tag [w]) s = .next t ∧
    (w.toNat = 0 ∨ 8 < w.toNat →
      t = Claim.withResponse t (Claim.presented .readEvents tag [w] s) ∧ Claim.response .badField 1 tag [] s t) ∧
    (1 ≤ w.toNat → w.toNat ≤ 8 →
      t = Claim.withResponse t
        { Claim.presented .readEvents tag [w] s with
          cmu := { (Claim.presented .readEvents tag [w] s).cmu with
            events := s.cmu.events.drop w.toNat
            alert := alertLevel (s.cmu.events.drop w.toNat) s.cmu.mask } } ∧
      Claim.response .done 0 tag
        (BitVec.ofNat 32 (min w.toNat s.cmu.events.length) :: BitVec.ofNat 32 s.cmu.dropped ::
          (s.cmu.events.take w.toNat).flatMap recordWords) s t)

/-! ### Cycles -/

/-- OPEN_CYCLE opens a cycle from READY and starts its limit, and in OPEN is DONE with no effect; CLOSE_CYCLE is ACCEPTED in
OPEN, goes to CLOSING and stops the limit, and in CLOSING and VOTING is DONE with no effect. -/
def Obligations.CyclesOpenAndClose : Prop :=
  ∀ (tag : Byte) (s : State), s.dev = .running → Claim.takes .openCycle s →
    (s.cju.chan = some .ready → ∃ t, exec (.openCycle tag []) s = .next t ∧ Claim.response .done 0 tag [] s t ∧
      EndOfStep
        (Claim.withResponse t
          { Claim.presented .openCycle tag [] s with
            cju := { s.cju with chan := some .opened, timer := some s.times.cycleLimit }, lkc.tx := t.lkc.tx }) t) ∧
    (s.cju.chan = some .opened → ∃ t, exec (.openCycle tag []) s = .next t ∧ Claim.response .done 0 tag [] s t ∧
      t = Claim.withResponse t (Claim.presented .openCycle tag [] s)) ∧
    (s.cju.chan = some .opened → ∃ t, exec (.closeCycle tag []) s = .next t ∧ Claim.response .accepted 0 tag [] s t ∧
      EndOfStep
        (Claim.withResponse t
          { Claim.presented .closeCycle tag [] s with
            cju := { s.cju with chan := some .closing, timer := none }, lkc.tx := t.lkc.tx }) t) ∧
    (s.cju.chan = some .closing ∨ s.cju.chan = some .voting → ∃ t, exec (.closeCycle tag []) s = .next t ∧
      Claim.response .done 0 tag [] s t ∧ t = Claim.withResponse t (Claim.presented .closeCycle tag [] s))

/-- The drain of a close ends: with nothing in the repair list the CLOSED frame of cycle v with the signature entries of the
moment is handed over and queued on both links, the vote timer starts and the channel enters VOTING; where no HEARD peer's
frame is missing the decision is taken at once, as at the timer's expiry. With a block in the repair list, or after an
overflow, the cycle is abandoned with cause REPAIR_PENDING, in the way of every abandon (`Claim.abandoned`). Each entry is
ABSENT, or VALID or SUSPECT with the running signature, by its slot (R64). That the end is a step of its own is read from
the table (notes/assumptions/32), and that the frame goes to a MISMATCH peer as well is its choice (notes/assumptions/41).
-/
def Obligations.CloseDrainEndsInAVote : Prop :=
  (∀ s : State, (ownEntries s).length = 16 ∧ ∀ k, k < 16 →
    (slotRegion s k = none → (ownEntries s)[k]? = some ⟨.absent, 0⟩) ∧
    ∀ e, slotRegion s k = some e →
      (ownEntries s)[k]? = some ⟨if e.2.state = .normal then .valid else .suspect, sigOf s k⟩) ∧
  ∀ (s : State), s.resetLow = false → s.cju.chan = some .closing → (∀ e ∈ s.pwq.entries, e.signed = false) →
    (s.cju.repair = [] → s.cju.repairOverflow = false → (∃ l, Claim.awaits s l) → ∃ t,
      exec .closeDrainEnd s = .next t ∧
      (s.position ≠ 3 → ∀ l, Claim.queued l (.vote ⟨s.cju.cycle + 1, .closed, ownEntries s⟩) s t) ∧
      EndOfStep
        { s with
          cju.chan := some .voting
          vtu := { s.vtu with
            own := some ⟨s.cju.cycle + 1, .closed, ownEntries s⟩, timer := some s.times.voteTimeout }
          lkc.tx := t.lkc.tx } t) ∧
    (s.cju.repair = [] → s.cju.repairOverflow = false → (∀ l, ¬Claim.awaits s l) →
      exec .closeDrainEnd s =
        exec .voteTimerExpiry
          { s with
            cju.chan := some .voting
            vtu := { s.vtu with
              own := some ⟨s.cju.cycle + 1, .closed, ownEntries s⟩, timer := some s.times.voteTimeout }
            lkc.tx := (sendBoth .hello (sendBoth (.vote ⟨s.cju.cycle + 1, .closed, ownEntries s⟩) s)).lkc.tx }) ∧
    (s.cju.repair ≠ [] ∨ s.cju.repairOverflow = true → s.dev = .running → ∃ t,
      exec .closeDrainEnd s = .next t ∧ t.vtu.permitted = false ∧ (s.vtu.permitted = true → t.vtu.level = false) ∧
      t.cju.chan ≠ some .closing ∧
      t.mpu = s.mpu ∧ t.sgu = s.sgu ∧ t.cju.repair = s.cju.repair ∧
      Claim.abandoned 2 .repairPending s t)

/-- ABANDON_CYCLE in OPEN or CLOSING, and the cycle limit in OPEN, abandon the cycle: PERMIT drops, the limit stops, the
signed entries leave the queue, and with a journal to put back the channel enters ROLLING_BACK; with an empty journal the
ABANDONED frame is handed over with the entries of the moment, and a cycle that cannot be rolled back hands over one whose
entries are all SUSPECT (`Claim.abandoned`). Of the patrol's records only the one that the region walked has become SUSPECT
may be set, by the rollback check (notes/assumptions/43). -/
def Obligations.AbandonEndsTheCycle : Prop :=
  ∀ (c : Instr) (cause : AbandonCause) (s : State), s.resetLow = false → s.dev = .running →
    (c = .cycleLimit ∧ cause = .cycleLimit ∧ s.cju.chan = some .opened ∧ s.cju.timer.isSome = true ∨
     (∃ tag, c = .abandonCycle tag [] ∧ Claim.takes .abandonCycle s) ∧ cause = .command ∧
       (s.cju.chan = some .opened ∨ s.cju.chan = some .closing)) →
    ∃ t, exec c s = .next t ∧ Claim.abandoned 2 cause s t ∧
      t.mpu = s.mpu ∧ t.sgu = s.sgu ∧ t.cju.repair = s.cju.repair ∧ t.ptu = { s.ptu with turned := t.ptu.turned } ∧
      (∀ e ∈ t.pwq.entries, e.signed = false) ∧
      (s.cju.unrevertible = false → s.cju.journal ≠ [] → t.rgt = s.rgt) ∧
      (∀ tag, c = .abandonCycle tag [] → Claim.response .accepted 0 tag [] s t)

/-- RESTORE in EXCLUDED, or in READY without the agreed base, starts a FULL pull from the eligible server (the named donor,
or the one with the lower position): the attempt count is 0 again, the channel enters RESTORING, and the PULL frame is
queued with 8 credits and the region set of R143. No eligible server, or a named donor that is a peer and not eligible, is
NO_SERVER; a donor above 2 or the own position is BAD_FIELD. A server is eligible by its peer record (R141), and the region
set holds every VITAL slot and the CODE slots that are SUSPECT or that the server's latest kept frame does not show VALID
and equal (R143). That a bad donor word is BAD_FIELD even where no server is eligible is the model's choice
(notes/assumptions/42). -/
def Obligations.RestoreStartsAFullPull : Prop :=
  (∀ (l : Link) (s : State), eligible s l = true ↔
    (s.lkc.peers.get l).heard = true ∧ (s.lkc.peers.get l).matched = true ∧
      ∃ h, (s.lkc.peers.get l).hello = some h ∧ h.fields.dev = .running ∧ h.fields.agreedBase = true ∧
        h.fields.serviceBusy = false) ∧
  (∀ (l : Link) (s : State) (k : Nat), k < 16 → ((fullSet s l).getLsbD k = true ↔
    ∃ e, slotRegion s k = some e ∧ (e.2.desc.kind = .vital ∨ e.2.state ≠ .normal ∨
      ∀ f, (s.vtu.table.get l).getLast? = some f → f.entries[k]? ≠ some ⟨.valid, sigOf s k⟩))) ∧
  ∀ (tag : Byte) (ps : List Word) (s : State), Claim.takes .restore s → s.dev = .running → s.position ≠ 3 →
    (s.cju.chan = some .excluded ∨ s.cju.chan = some .ready ∧ s.vtu.agreedBase = false) →
    (ps.length = 1 → (2 < param ps 1 ∨ param ps 1 = s.position.toNat) → ∃ t, exec (.restore tag ps) s = .next t ∧
      t = Claim.withResponse t (Claim.presented .restore tag ps s) ∧ Claim.response .badField 1 tag [] s t) ∧
    (ps = [] → (∀ l, eligible s l = false) → ∃ t, exec (.restore tag ps) s = .next t ∧
      t = Claim.withResponse t (Claim.presented .restore tag ps s) ∧ Claim.response .refusedState 8 tag [] s t) ∧
    (∀ l w, ps = [w] → w.toNat = peerPosition s.position l → eligible s l = false → ∃ t,
      exec (.restore tag ps) s = .next t ∧
      t = Claim.withResponse t (Claim.presented .restore tag ps s) ∧ Claim.response .refusedState 8 tag [] s t) ∧
    ∀ l, eligible s l = true →
      (ps = [] ∧ (∀ m, m ≠ l → eligible s m = true → peerPosition s.position l < peerPosition s.position m) ∨
       ∃ w, ps = [w] ∧ w.toNat = peerPosition s.position l) →
      ∃ t, exec (.restore tag ps) s = .next t ∧ Claim.response .accepted 0 tag [] s t ∧
        t.cju.chan = some .restoring ∧ t.cju.wPrev = [] ∧ t.cju.wPrevValid = false ∧
        t.rse.pull = { s.rse.pull with
          phase := .receiving, kind := some .full, server := some l, target := 0, regionSet := fullSet s l,
          buffers := [], received := 0, timer := some s.times.pullSilence, clean := 0, ending := none, attempts := 0 } ∧
        Claim.queued l (.pull ⟨.full, 8, 0, fullSet s l, []⟩) s t ∧
        t.rgt = s.rgt ∧ t.mpu = s.mpu ∧ t.sgu = s.sgu ∧ t.ptu = s.ptu ∧ t.cju.cycle = s.cju.cycle ∧
        t.cju.journal = s.cju.journal ∧ t.cju.repair = s.cju.repair ∧ t.vtu.table = s.vtu.table

/-! ### The memory port -/

/-- The grant to a processor read unholds it and answers: a GOOD or CORRECTABLE word OKAY with its value, an UNCORRECTABLE
one ERROR with the raw data bits. The read of a CORRECTABLE word counts in its region and requests the write-back; it
changes no word of the array. The block of an UNCORRECTABLE word in a VITAL region enters the repair list outside
CONFIGURING, unless it is in it; from a full list REPAIR_OVERFLOW is set, with its event where it was clear. The region then
is SUSPECT_LOCATED, or SUSPECT_UNLOCATED from a full list, in a CODE region, or where it was so, and PERMIT is off. In OPEN
and CLOSING, while RUNNING, such a word of a signed region abandons the cycle; otherwise the finding changes nothing else.
-/
def Obligations.PortReadIsAnswered : Prop :=
  ∀ (p : Nat) (h : Held) (s : State), Claim.grants .procRead p s → firstAccess s = some h → ∃ t,
    exec .procReadGrant s = .next t ∧
    t.mpu.mem = s.mpu.mem ∧ t.mpu.pointer = p ∧ t.sgu = s.sgu ∧
    t.ptu = { s.ptu with turned := t.ptu.turned } ∧
    t.ppt.answers.get h.transfer.ini =
      some ⟨if (readWord s h.transfer.word).cond = .uncorrectable then .error else .okay,
            (readWord s h.transfer.word).value⟩ ∧
    ((readWord s h.transfer.word).cond ≠ .uncorrectable →
      EndOfStep
        { Claim.answered h.transfer.ini .okay (readWord s h.transfer.word).value s with
          ppt := ⟨s.ppt.held.filter (fun g => g.transfer.ini != h.transfer.ini),
                  s.ppt.answers.put h.transfer.ini (some ⟨.okay, (readWord s h.transfer.word).value⟩)⟩
          rgt.entries := t.rgt.entries
          mpu := { s.mpu with
            pointer := p
            writeBack :=
              if (readWord s h.transfer.word).cond = .correctable then some h.transfer.word else s.mpu.writeBack } } t) ∧
    (∀ i r, regionOf s (blockOf h.transfer.word) = some (i, r) → assocFind s.rgt.entries i = some r →
      (∃ r', assocFind t.rgt.entries i = some r' ∧ r'.desc = r.desc ∧
        ((readWord s h.transfer.word).cond = .good → r' = r) ∧
        ((readWord s h.transfer.word).cond = .correctable → r' = { r with corrected := satInc 65535 r.corrected }) ∧
        ((readWord s h.transfer.word).cond = .uncorrectable →
          r' = { r with
            uncorrectable := satInc 65535 r.uncorrectable
            state :=
              if r.desc.signed = false ∨ s.dev = .configuring then r.state
              else if r.desc.kind = .vital ∧ r.state ≠ .suspectUnlocated ∧
                  (blockOf h.transfer.word ∈ s.cju.repair ∨ s.cju.repair.length < 32) then .suspectLocated
              else .suspectUnlocated })) ∧
      ((readWord s h.transfer.word).cond = .uncorrectable →
        (r.desc.signed = true → s.dev ≠ .configuring → t.vtu.permitted = false) ∧
        (r.desc.signed = true → s.dev = .running → s.cju.chan = some .opened ∨ s.cju.chan = some .closing →
          Claim.abandoned 5 (.uncorrectable i (4 * h.transfer.word)) s t) ∧
        (¬(r.desc.signed = true ∧ s.dev = .running ∧ (s.cju.chan = some .opened ∨ s.cju.chan = some .closing)) →
          EndOfStep
            { s with
              ppt := ⟨s.ppt.held.filter (fun g => g.transfer.ini != h.transfer.ini),
                      s.ppt.answers.put h.transfer.ini (some ⟨.error, (readWord s h.transfer.word).value⟩)⟩
              rgt.entries := t.rgt.entries
              mpu.pointer := p
              ptu.turned := t.ptu.turned
              cju := { s.cju with repair := t.cju.repair, repairOverflow := t.cju.repairOverflow }
              vtu := { s.vtu with permitted := t.vtu.permitted, level := t.vtu.level }
              rse.pull.clean := t.rse.pull.clean
              cmu := { s.cmu with
                events := t.cmu.events, nextSeq := t.cmu.nextSeq, dropped := t.cmu.dropped, alert := t.cmu.alert } } t) ∧
        (s.cmu.events.length < 64 → ∃ e ∈ t.cmu.events,
          e.body = .uncorrectable (some i) (4 * h.transfer.word) (some h.transfer.ini)) ∧
        (r.desc.kind ≠ .vital ∨ s.dev = .configuring ∨ blockOf h.transfer.word ∈ s.cju.repair →
          t.cju.repair = s.cju.repair ∧ t.cju.repairOverflow = s.cju.repairOverflow) ∧
        (r.desc.kind = .vital → s.dev ≠ .configuring → blockOf h.transfer.word ∉ s.cju.repair →
          (s.cju.repair.length < 32 →
            t.cju.repair = s.cju.repair ++ [blockOf h.transfer.word] ∧ t.cju.repairOverflow = s.cju.repairOverflow) ∧
          (32 ≤ s.cju.repair.length →
            t.cju.repair = s.cju.repair ∧ t.cju.repairOverflow = true ∧
            (s.cju.repairOverflow = false → s.cmu.events.length < 63 → ∃ e ∈ t.cmu.events,
              e.body = .repairOverflow i (4 * h.transfer.word))))))

/-- The write-back reads its word again: still CORRECTABLE, the corrected data is written with fresh check bits; GOOD or
UNCORRECTABLE, nothing is written. No count, no event, no signature and no accumulator changes. -/
def Obligations.WriteBackCorrectsOrLeaves : Prop :=
  ∀ (p a : Nat) (s : State), Claim.grants .writeBack p s → s.mpu.writeBack = some a → ∃ t,
    exec .correctionWriteBack s = .next t ∧
    t = { s with mpu := { s.mpu with mem := t.mpu.mem, pointer := p, writeBack := none } } ∧
    ((readWord s a).cond = .correctable → Claim.wrote [(a, (readWord s a).value)] s t) ∧
    ((readWord s a).cond ≠ .correctable → t.mpu.mem = s.mpu.mem)

/-- The head of the queue over a GOOD or CORRECTABLE word is written whole with its enabled bytes merged in, the running
signature of its region follows (R58), and so does the patrol's accumulator where the block lies behind the position in the
region walked (R60), a CORRECTABLE word counts, and the entry leaves. Over an UNCORRECTABLE word a full-word write is done
as well and a partial one is refused with MERGE_UNKNOWN, which leaves the word; either way the finding of R34 is made with
its event, and the entry leaves, with every signed one where an OPEN or CLOSING cycle is abandoned for it. A write to a
VITAL block without W_CUR goes on without a capture only when the journal is full: the block gets its mark and UNREVERTIBLE
is set (R83). A read that waits behind the entry waits for one fewer, and after its last one for the memory port (R30).
Which enable names which byte is the model's choice (notes/assumptions/33). -/
def Obligations.HeadWriteIsPerformedOrRefused : Prop :=
  ∀ (p : Nat) (e : PwqEntry) (rest : List PwqEntry) (s : State),
    Claim.grants .headWrite p s → s.pwq.entries = e :: rest → e.word < Config.words → ∃ t,
    exec .pwqHeadWrite s = .next t ∧
    (let old := readWord s e.word
     let new := mergeBytes e.be old.value e.data
     let uncovered := s.dev = .running ∧ e.signed = true ∧ vitalBlock s (blockOf e.word) = true ∧
       blockOf e.word ∉ s.cju.wCur
     (old.cond ≠ .uncorrectable ∨ e.be = 15 →
       Claim.wrote [(e.word, new)] s t ∧ Claim.accounted (blockOf e.word) [(e.word, new)] s t) ∧
     (old.cond = .uncorrectable → e.be ≠ 15 →
       t.mpu.mem = s.mpu.mem ∧ t.sgu = s.sgu ∧ Claim.accounted (blockOf e.word) [] s t) ∧
     (old.cond ≠ .uncorrectable →
       (∃ more, t.pwq.entries = rest ++ more) ∧ t.dev = s.dev ∧ t.cju.chan = s.cju.chan ∧
       t.cju.journal = s.cju.journal ∧ t.cju.wPrev = s.cju.wPrev ∧ t.cju.cycle = s.cju.cycle ∧
       t.cju.repair = s.cju.repair ∧ t.vtu = s.vtu ∧ t.start = s.start ∧ t.times = s.times ∧ t.rse.pull = s.rse.pull ∧
       t.ptu.turned = s.ptu.turned ∧ t.cju.resend = s.cju.resend ∧
       (∃ u, EndOfStep u t ∧ u.lkc = s.lkc ∧
         (¬uncovered → u.rse.service = s.rse.service) ∧
         (uncovered → u.rse.service =
           { s.rse.service with tried := if s.rse.service.waiting then s.rse.service.tried else [] })) ∧
       t.mpu = { s.mpu with mem := t.mpu.mem, pointer := p } ∧
       (∀ i r, regionOf s (blockOf e.word) = some (i, r) → r.desc.signed = true →
         t.sgu.sigs = s.sgu.sigs.set r.desc.slot
           ((sigOf s r.desc.slot + updateTerm r.desc (offsetIn r.desc e.word) old.value new) % Config.p)) ∧
       ((∀ i r, regionOf s (blockOf e.word) = some (i, r) → r.desc.signed = false) → t.sgu = s.sgu) ∧
       (∀ r, assocFind s.rgt.entries e.region = some r → assocFind t.rgt.entries e.region =
         some (if old.cond = .correctable then { r with corrected := satInc 65535 r.corrected } else r)) ∧
       (¬uncovered → t.cju.wCur = s.cju.wCur ∧ t.cju.unrevertible = s.cju.unrevertible) ∧
       (uncovered → 512 ≤ s.cju.journal.length ∧ t.cju.unrevertible = true ∧
         (∀ k, k ∈ t.cju.wCur ↔ k = blockOf e.word ∨ k ∈ s.cju.wCur) ∧
         (s.cju.unrevertible = false → s.cmu.events.length < 64 → ∃ r ∈ t.cmu.events,
           r.body = .journalOverflow (4 * e.word))) ∧
       (portHold s = false → heldLaw s = true → s.cju.chan ≠ some .rollingBack →
         ∀ h ∈ s.ppt.held, ∀ n, h.transfer.write = false → h.transfer.word = e.word → h.hold = .hazard (n + 1) →
           accessCheck s h.transfer = none →
           heldOf t h.transfer.ini = some { h with hold := if n = 0 then .access else .hazard n })) ∧
     (∀ r, old.cond = .uncorrectable → regionOf s (blockOf e.word) = some (e.region, r) →
       assocFind s.rgt.entries e.region = some r →
       (∃ r', assocFind t.rgt.entries e.region = some r' ∧ r'.uncorrectable = satInc 65535 r.uncorrectable ∧
         (r.desc.signed = true → s.dev ≠ .configuring → r'.state ≠ .normal)) ∧
       (s.cmu.events.length < 56 →
         (∃ v ∈ t.cmu.events, v.body = .uncorrectable (some e.region) (4 * e.word) (some e.ini)) ∧
         (e.be ≠ 15 → ∃ v ∈ t.cmu.events, v.body = .accessRefused .mergeUnknown e.ini (4 * e.word) (some e.region) 0)) ∧
       (¬(r.desc.signed = true ∧ s.dev = .running ∧ cycleOpen s = true) →
         (∃ more, t.pwq.entries = rest ++ more) ∧ t.cju.chan = s.cju.chan) ∧
       (r.desc.signed = true → s.dev = .running → cycleOpen s = true →
         (∃ more, t.pwq.entries = rest.filter (fun d => !d.signed) ++ more) ∧ t.cju.timer = none ∧
         t.vtu.permitted = false ∧
         (s.cmu.events.length < 56 → ∃ v ∈ t.cmu.events,
           v.body = .abandoned (.uncorrectable e.region (4 * e.word))) ∧
         (¬uncovered →
           Claim.abandoned 9 (.uncorrectable e.region (4 * e.word)) { s with pwq.entries := rest, sgu := t.sgu } t))))

/-- A capture appends the pre-image of the head's block to the journal and sets its W_CUR mark; its UNCORRECTABLE words are
marked unknown. The head stays at the head, CORRECTABLE words are corrected, and each word in error counts in its region.
With no UNCORRECTABLE word nothing else changes but the region's corrected count, once for each CORRECTABLE word, and what a
RESENDING server has found unavailable, which it forgets unless it waits (read from R156, notes/assumptions/23). A finding
in an OPEN or CLOSING cycle abandons it, with the first word found: ROLLING_BACK with the new entry newest, or the frame of
R78 where UNREVERTIBLE is set; if the patrol walks the region, it is kept that it has become SUSPECT in its walk
(notes/assumptions/43). -/
def Obligations.CaptureKeepsThePreImage : Prop :=
  ∀ (p : Nat) (e : PwqEntry) (rest : List PwqEntry) (s : State),
    Claim.grants .capture p s → s.pwq.entries = e :: rest → ∃ t,
    exec .capture s = .next t ∧
    (let b := blockOf e.word
     let words := (blockWords b).map (readWord s)
     let entry : JournalEntry := ⟨b, words.map Checked.value, words.map (fun c => c.cond != .uncorrectable)⟩
     Claim.corrected b s t ∧ Claim.countsWords b s t ∧ t.sgu = s.sgu ∧ t.ptu = { s.ptu with turned := t.ptu.turned } ∧
     ((∀ c ∈ words, c.cond ≠ .uncorrectable) →
       t.cju.journal = s.cju.journal ++ [entry] ∧ (∀ k, k ∈ t.cju.wCur ↔ k = b ∨ k ∈ s.cju.wCur) ∧
       EndOfStep
         { s with
           rgt.entries := Claim.counts b s
           mpu := { s.mpu with mem := t.mpu.mem, pointer := p }
           cju := { s.cju with journal := t.cju.journal, wCur := t.cju.wCur }
           rse.service.tried := if s.rse.service.waiting then s.rse.service.tried else [] } t) ∧
     ((∃ c ∈ words, c.cond = .uncorrectable) → s.cju.unrevertible = false → cycleOpen s = true →
       t.cju.chan = some .rollingBack ∧ t.cju.journal = s.cju.journal ++ [entry] ∧ t.vtu.permitted = false) ∧
     (∀ a i r, (blockWords b).find? (fun a => (readWord s a).cond == .uncorrectable) = some a → cycleOpen s = true →
       regionOf s b = some (i, r) →
       (s.cju.unrevertible = false → ∀ k, k ∈ t.cju.wCur ↔ k = b ∨ k ∈ s.cju.wCur) ∧
       Claim.abandoned 20 (.uncorrectable i (4 * a))
         { s with
           cju := { s.cju with
             journal := s.cju.journal ++ [entry], wCur := if s.cju.unrevertible then s.cju.wCur else t.cju.wCur }
           rse.service.tried := if s.rse.service.waiting then s.rse.service.tried else [] } t))

/-- A rollback grant writes the known words of the newest journal entry back over the array and leaves every other word; the
running signature and, behind its position, the patrol's accumulator follow (R58, R60). A service goes on and considers its
marked blocks again (R156); EXCLUDED ends it with SERVER_LOST (R132). Unless it was the last entry, the entry leaves the
journal with its W_CUR mark and the channel stays. After the last one each signed region that is NORMAL is checked against
the closed set: where a VALID entry differs from its running signature it is SUSPECT_UNLOCATED with ROLLBACK_CHECK_FAULT,
and PERMIT is off. Then the own frame is ABANDONED for cycle v with the entries of the moment: a rollback at a decision
completes it as COLLECTIVE_ABANDON or EXCLUDED (R130), with its DECISION event where outcome or agreeing set is new (R134),
and any other hands the frame over to the vote, which decides at once where no HEARD peer's frame is missing (R125). The
check is stated for a part that is RUNNING with a lawful table and for a last entry that overwrites no UNCORRECTABLE word.
That the frame goes to a MISMATCH peer as well is the model's choice (notes/assumptions/41). -/
def Obligations.RollbackPutsBack : Prop :=
  ∀ (p : Nat) (e : JournalEntry) (s : State),
    Claim.grants .rollback p s → s.cju.journal.getLast? = some e → ∃ t,
    exec .rollbackGrant s = .next t ∧
    Claim.wrote (knownWrites e) s t ∧ Claim.accounted e.block (knownWrites e) s t ∧
    t.mpu = { s.mpu with mem := t.mpu.mem, pointer := p } ∧
    (s.cju.journal.dropLast ≠ [] →
      t.cju.journal = s.cju.journal.dropLast ∧ (∀ k, k ∈ t.cju.wCur ↔ k ∈ s.cju.wCur ∧ k ≠ e.block) ∧
      t.cju.chan = s.cju.chan ∧ t.cju.cycle = s.cju.cycle ∧ t.cju.repair = s.cju.repair ∧ t.vtu.own = s.vtu.own ∧
      Claim.serviceStays (fun k => k ∈ s.cju.resend) s t) ∧
    (s.cju.journal.dropLast = [] →
      t.vtu.own = some ⟨s.cju.cycle + 1, .abandoned, ownEntries t⟩ ∧
      (tableLaw s = true → s.dev = .running → (∀ w ∈ knownWrites e, (readWord s w.1).cond ≠ .uncorrectable) →
        ∀ i r c, assocFind s.rgt.entries i = some r → r.desc.signed = true → r.state = .normal →
          s.vtu.closedSet[r.desc.slot]? = some c →
          (c.flag = .valid → c.value ≠ sigOf t r.desc.slot →
            assocFind t.rgt.entries i = some { r with state := .suspectUnlocated } ∧ t.vtu.permitted = false ∧
            (s.cmu.events.length < 40 → ∃ v ∈ t.cmu.events,
              v.body = .rollbackCheckFault i (sigOf t r.desc.slot) c.value)) ∧
          (c.flag ≠ .valid ∨ c.value = sigOf t r.desc.slot → assocFind t.rgt.entries i = some r)) ∧
      (∀ d, s.vtu.deciding = some d →
        t.vtu.deciding = none ∧ t.vtu.timer = s.vtu.timer ∧ (tableLaw s = true → Claim.decisionRecorded 40 s t) ∧
        (Claim.agree ⟨s.cju.cycle + 1, .abandoned, ownEntries t⟩ d.majority →
          Claim.serviceStays (fun k => k ∈ s.cju.resend) s t ∧
          t.vtu.last.map Decision.outcome = some .collectiveAbandon ∧ t.cju.chan = some .ready) ∧
        (¬Claim.agree ⟨s.cju.cycle + 1, .abandoned, ownEntries t⟩ d.majority →
          (tableLaw s = true → serving s = true → Claim.serviceEnds 40 .serverLost s.cju.cycle s t) ∧
          t.vtu.last.map Decision.outcome = some .excluded ∧ t.vtu.agreedBase = false ∧
          (t.cju.chan = some .excluded ∨ t.cju.chan = some .restoring))) ∧
      (s.vtu.deciding = none → (∃ l, Claim.awaits s l) →
        t.cju.chan = some .voting ∧ t.vtu.timer = some s.times.voteTimeout ∧
        Claim.serviceStays (fun k => k ∈ s.cju.resend) s t ∧
        (s.position ≠ 3 → ∀ l, Claim.queued l (.vote ⟨s.cju.cycle + 1, .abandoned, ownEntries t⟩) s t)) ∧
      (s.vtu.deciding = none → (∀ l, ¬Claim.awaits s l) → ∃ u,
        exec .rollbackGrant s = exec .voteTimerExpiry u ∧ u.cju.chan = some .voting ∧
        u.vtu.timer = some s.times.voteTimeout ∧ u.vtu.own = t.vtu.own ∧ u.vtu.table = s.vtu.table ∧
        u.lkc.peers = s.lkc.peers ∧ u.cju.cycle = s.cju.cycle ∧ u.cju.journal = [] ∧ u.cju.resend = s.cju.resend ∧
        u.rse.service = { s.rse.service with tried := [], waiting := false }))

/-- The patrol's grant corrects the block at the position, counts each word in error in its region, adds its words' terms to
the accumulator of a comparable walk, the raw data bits of an UNCORRECTABLE word among them, and moves to the next patrolled
block, or back to the lowest. Comparable is settled at the first block of a region and stays. After the last block of a
NORMAL signed region walked comparable, an accumulator other than the running signature is a SIGNATURE_FAULT and the region
SUSPECT_UNLOCATED, which offers no block for repair; a region that has become SUSPECT in its walk is not compared, though it
is NORMAL again (`turned` says so, a field of the model's own, notes/assumptions/43). An UNCORRECTABLE word of a signed
region makes it SUSPECT and puts a VITAL block in the repair list. -/
def Obligations.PatrolReadsItsBlock : Prop :=
  ∀ (p b i : Nat) (r : Region) (s : State),
    Claim.grants .patrol p s → s.ptu.position = some b → regionOf s b = some (i, r) →
    assocFind s.rgt.entries i = some r → ∃ t,
    exec .patrolRead s = .next t ∧
    Claim.corrected b s t ∧ Claim.countsWords b s t ∧
    t.mpu = { s.mpu with mem := t.mpu.mem, pointer := p } ∧ t.sgu = s.sgu ∧
    t.cju = { s.cju with repair := t.cju.repair, repairOverflow := t.cju.repairOverflow } ∧ t.pwq = s.pwq ∧
    t.ppt = s.ppt ∧ t.lkc = s.lkc ∧ t.dev = s.dev ∧
    (let comparable := if b = r.desc.first then r.desc.signed && r.state == .normal else s.ptu.comparable
     let acc := if b = r.desc.first then 0 else s.ptu.acc
     let turned := if b = r.desc.first then false else s.ptu.turned
     let sum :=
       if comparable then
         (acc + ((blockWords b).map (fun a => wordTerm r.desc (offsetIn r.desc a) (readWord s a).value)).sum) % Config.p
       else acc
     let fault := b + 1 = r.desc.first + r.desc.count ∧ r.desc.signed = true ∧ comparable = true ∧ turned = false ∧
       r.state = .normal ∧ sum ≠ sigOf s r.desc.slot
     t.ptu = { s.ptu with
       position :=
         match nextBlock (patrolled s) (b + 1) with
         | some n => some n
         | none => nextBlock (patrolled s) 0
       request := false
       comparable := comparable
       acc := sum
       turned := t.ptu.turned } ∧
     ((∀ a ∈ blockWords b, (readWord s a).cond ≠ .uncorrectable) →
       t.cju = s.cju ∧
       (¬fault → t.ptu.turned = turned ∧ t.vtu = s.vtu ∧ t.cmu = s.cmu ∧ t.rgt.entries = Claim.counts b s ∧
         ∃ n, assocFind t.rgt.entries i = some { r with corrected := n }) ∧
       (fault → s.dev = .running →
         t.vtu.permitted = false ∧
         (∃ n, assocFind t.rgt.entries i = some { r with corrected := n, state := .suspectUnlocated }) ∧
         (s.cmu.events.length < 64 → ∃ v ∈ t.cmu.events,
           v.body = .signatureFault i (sigOf s r.desc.slot) sum))) ∧
     ((∃ a ∈ blockWords b, (readWord s a).cond = .uncorrectable) → r.desc.signed = true → s.dev ≠ .configuring →
       t.ptu.turned = true ∧ t.vtu.permitted = false ∧
       (∃ r', assocFind t.rgt.entries i = some r' ∧ r'.desc = r.desc ∧ r'.state ≠ .normal) ∧
       (∀ v ∈ t.cmu.events, v ∈ s.cmu.events ∨ ∀ k x y, v.body ≠ .signatureFault k x y) ∧
       (s.cmu.events.length < 46 → ∀ a ∈ blockWords b, (readWord s a).cond = .uncorrectable →
         ∃ v ∈ t.cmu.events, v.body = .uncorrectable (some i) (4 * a) none) ∧
       t.cju.repair =
         if r.desc.kind = .vital ∧ b ∉ s.cju.repair ∧ s.cju.repair.length < 32 then s.cju.repair ++ [b]
         else s.cju.repair))

/-- A server grant sends the block it is due for, from the journal or from the array, in a BLOCK frame tagged with c,
against one credit; its RESEND mark is cleared, and the send position or the walk position moves past it. An unavailable
block of a DELTA service ends it, of a FULL walk leaves a RESEND mark, and in RESENDING keeps its mark; the position moves
past it, and the server waits once every marked block has been found unavailable (R156; what counts as found is read in
notes/assumptions/23 and 45). An UNCORRECTABLE word where the array is read ends the service. CORRECTABLE words of the block
are corrected, and each word in error counts in its region. -/
def Obligations.ServerSendsItsBlock : Prop :=
  (∀ (s : State) (b : Nat), serverTarget s = some b ↔ Claim.blockDue s b) ∧
  ∀ (p b : Nat) (l : Link) (s : State),
    Claim.grants .serverRead p s → serverTarget s = some b → s.rse.service.requester = some l → ∃ t,
    exec .serverRead s = .next t ∧
    Claim.corrected b s t ∧ Claim.countsWords b s t ∧ t.sgu = s.sgu ∧ t.pwq.lower = s.pwq.lower ∧
    t.cju.journal = s.cju.journal ∧ t.cju.wCur = s.cju.wCur ∧ t.cju.cycle = s.cju.cycle ∧ t.dev = s.dev ∧ t.rse.pull.phase = s.rse.pull.phase ∧
    (∀ ws,
      ((∃ e, s.cju.journal.find? (fun e => e.block == b) = some e ∧ (∀ k ∈ e.known, k = true) ∧ ws = e.words) ∨
       s.cju.journal.find? (fun e => e.block == b) = none ∧ b ∉ s.cju.wCur ∧
         (∀ a ∈ blockWords b, (readWord s a).cond ≠ .uncorrectable) ∧
         ws = (blockWords b).map (fun a => (readWord s a).value)) →
      t.rse.service.credits = s.rse.service.credits - 1 ∧
      t.rse.service.sent = (if s.rse.service.sent < 4294967295 then s.rse.service.sent + 1 else s.rse.service.sent) ∧
      Claim.queued l (.block ⟨BitVec.ofNat 16 b, s.cju.cycle, ws⟩) s t ∧
      (∀ k, k ∈ t.cju.resend ↔ k ∈ s.cju.resend ∧ k ≠ b) ∧
      ∃ u, EndOfStep u t ∧
        u.rse.service =
          { s.rse.service with
            sendPos := if s.rse.service.phase = .walking then s.rse.service.sendPos else b + 1
            walkPos := u.rse.service.walkPos
            credits := t.rse.service.credits
            sent := t.rse.service.sent
            tried := u.rse.service.tried
            waiting := u.rse.service.waiting } ∧
        (∀ k, k ∈ u.rse.service.tried ↔ k ∈ s.rse.service.tried ∧ k ≠ b) ∧
        Claim.considered b s u) ∧
    ((∃ e, s.cju.journal.find? (fun e => e.block == b) = some e ∧ false ∈ e.known) ∨
      s.cju.journal.find? (fun e => e.block == b) = none ∧ b ∈ s.cju.wCur →
      t.rse.service.credits = s.rse.service.credits ∧ t.rse.service.sent = s.rse.service.sent ∧
      (s.rse.service.phase = .sending → t.rse.service.phase = .idle ∧ t.cju.resend = []) ∧
      (s.rse.service.phase = .walking → t.rse.service.phase ≠ .idle ∧
        ∀ k, k ∈ t.cju.resend ↔ k = b ∨ k ∈ s.cju.resend) ∧
      (s.rse.service.phase = .resending → t.cju.resend = s.cju.resend) ∧
      (s.rse.service.phase ≠ .sending → ∃ u, EndOfStep u t ∧
        u.rse.service =
          { s.rse.service with
            sendPos := if s.rse.service.phase = .walking then s.rse.service.sendPos else b + 1
            walkPos := u.rse.service.walkPos
            tried := u.rse.service.tried
            waiting := u.rse.service.waiting } ∧
        (∀ k, k ∈ u.rse.service.tried ↔
          k ∈ s.rse.service.tried ∨ s.rse.service.phase = .resending ∧ k = b) ∧
        Claim.considered b s u)) ∧
    (s.cju.journal.find? (fun e => e.block == b) = none ∧ b ∉ s.cju.wCur ∧
        (∃ a ∈ blockWords b, (readWord s a).cond = .uncorrectable) →
      t.rse.service.phase = .idle ∧ t.cju.resend = [] ∧ t.rse.service.sent = s.rse.service.sent)

/-- A requester grant writes the oldest full buffer over its block, word by word, and frees it; the running signature and,
behind its position, the patrol's accumulator follow (R58, R60); one credit is queued for the server, added to a waiting
CREDIT up to 8 (stated where no service is active, so that nothing else is queued), and a DELTA pull marks the block W_PREV.
While a pull that completes has more buffers it goes on; after the last one follow the checks of R148, and then the pass
over the SUSPECT regions or the completion check of R149, by which the pull succeeds or fails. Where that last buffer
overwrites an UNCORRECTABLE word of a signed region outside CONFIGURING, the region is SUSPECT_UNLOCATED with its event
(R46), and the same checks lead to a failure or to a pass that takes the region in. -/
def Obligations.RequesterWritesItsBuffer : Prop :=
  ∀ (p : Nat) (b : Buffer) (rest : List Buffer) (l : Link) (s : State),
    Claim.grants .requesterWrite p s → s.rse.pull.buffers = b :: rest → s.rse.pull.server = some l →
    b.words.length = 16 → b.block < Config.blocks → s.position ≠ 3 → ∃ t,
    exec .requesterWrite s = .next t ∧
    Claim.wrote ((blockWords b.block).zip b.words) s t ∧
    Claim.accounted b.block ((blockWords b.block).zip b.words) s t ∧ t.mpu = { s.mpu with mem := t.mpu.mem, pointer := p } ∧
    (s.rse.pull.phase = .receiving ∨ s.rse.pull.phase = .completing ∧ rest ≠ [] →
      t.rse.pull = { s.rse.pull with buffers := rest, clean := t.rse.pull.clean } ∧
      (serving s = false →
        t.lkc.tx.get l =
          beginFrame s { s.lkc.tx.get l with ctrl := queueCtrl (.credit 1) (s.lkc.tx.get l).ctrl }) ∧
      (∀ k, k ∈ t.cju.wPrev ↔ k ∈ s.cju.wPrev ∨ k = b.block ∧ s.rse.pull.kind = some .delta) ∧
      t.cju.chan = s.cju.chan ∧ t.cju.cycle = s.cju.cycle ∧ t.cju.journal = s.cju.journal ∧ t.sgu.pass = s.sgu.pass) ∧
    (s.rse.pull.phase = .completing → rest = [] → s.sgu.pass = none →
      ∀ f es, s.rse.pull.ending = some f → f.entries = some es →
        (let u : State :=
           { s with
             sgu.sigs := t.sgu.sigs
             cju.wPrev := if s.rse.pull.kind = some .delta then setInsert s.cju.wPrev b.block else s.cju.wPrev }
         let lost := (∃ a ∈ blockWords b.block, (readWord s a).cond = .uncorrectable) ∧
           signedBlock s b.block = true ∧ s.dev ≠ .configuring
         t.rse.pull.buffers = [] ∧
         (¬lost → Claim.buffersWritten 1 l f es u t) ∧
         (lost → ∀ i r, regionOf s b.block = some (i, r) → assocFind s.rgt.entries i = some r →
           slotRegion s r.desc.slot = some (i, r) → r.desc.slot < 16 →
           assocFind t.rgt.entries i = some { r with state := .suspectUnlocated } ∧ t.vtu.permitted = false ∧
           (s.cmu.events.length < 47 → ∀ a ∈ blockWords b.block, (readWord s a).cond = .uncorrectable →
             ∃ v ∈ t.cmu.events, v.body = .uncorrectable (some i) (4 * a) none) ∧
           Claim.buffersWritten 18 l f es { u with rgt.entries := t.rgt.entries } t)))

/-- With the queue drained, INIT_MEMORY begins at its first block and is ACCEPTED. A grant of it writes zero with valid
check bits over its block, and the running signature of a signed region follows (R58); the next block follows, and after the
last one the operation ends with OPERATION_DONE. -/
def Obligations.InitZeroesItsBlock : Prop :=
  (∀ (f : CmdFrame) (s : State), Claim.drainedUnder .initMemory f s → ∃ t,
    exec .initMemoryBegin s = .next t ∧ Claim.response .accepted 0 f.tag [] s t ∧
    EndOfStep
      (Claim.withResponse t
        { s with mpu.initOp := some ⟨param f.params 1, param f.params 1, param f.params 1 + param f.params 2⟩ }) t) ∧
  ∀ (p : Nat) (op : InitOp) (s : State),
    Claim.grants .initBlock p s → s.mpu.initOp = some op → op.next < Config.blocks → ∃ t,
    exec .initBlockWrite s = .next t ∧
    (∀ a, blockOf a = op.next → memGet t.mpu.mem a = ⟨0, 0, .good, 0⟩) ∧
    (∀ a, blockOf a ≠ op.next → memGet t.mpu.mem a = memGet s.mpu.mem a) ∧
    t.mpu = { s.mpu with
      mem := t.mpu.mem
      pointer := p
      initOp := if op.next + 1 < op.stop then some { op with next := op.next + 1 } else none } ∧
    Claim.accounted op.next ((blockWords op.next).map (fun a => (a, 0))) s t ∧
    t.pwq = s.pwq ∧ t.ppt = s.ppt ∧ t.cju = s.cju ∧ t.lkc = s.lkc ∧ t.dev = s.dev ∧
    (s.dev = .configuring → t.rgt = s.rgt ∧ t.vtu = s.vtu ∧
      (op.next + 1 < op.stop → t.cmu = s.cmu) ∧
      (¬ op.next + 1 < op.stop → s.cmu.events.length < 64 → t.cmu.events = s.cmu.events ++
        [⟨s.cmu.nextSeq, s.cmu.ms, s.cju.cycle + 1, .operationDone .done (some (64 * op.first))⟩]))

/-- A signing or re-signing grant corrects the block, takes each word's value as its stored value and adds the words' terms
to the signing sum; after the last block of the region the sum is the running signature of its slot. Each word in error
counts in its region, and an UNCORRECTABLE one is an UNCORRECTABLE event without an initiator and leaves the region
SUSPECT_UNLOCATED. When the last region is signed in SIGNING the device is RUNNING with its start record and an
OPERATION_DONE event (R165), READY on an agreed base, or EXCLUDED (then perhaps RESTORING) where a peer runs ahead by its
record (R166). When it is signed again at the end of a pull the slots are compared with the server's (R149), and the pull
succeeds or fails with MISMATCH. The stored value is a field of the model's own (notes/assumptions/8). -/
def Obligations.SigningSumsItsBlock : Prop :=
  (∀ (d : Descriptor) (i : Nat) (v : Word), wordTerm d i v = Claim.weight d i * residue v % 2147483647) ∧
  (∀ p : Peer, runningAhead p = true ↔ p.heard = true ∧ p.matched = true ∧
    ∃ h, p.hello = some h ∧ h.fields.dev = .running ∧ h.fields.agreedBase = true) ∧
  ∀ (c : Instr) (g : Grant) (p k : Nat) (rest : List Nat) (pass : SigningPass) (i : Nat) (r : Region) (s : State),
    (c = .signingRead ∧ g = .signing ∨ c = .reSigningRead ∧ g = .resigning) →
    Claim.grants g p s → s.sgu.pass = some pass → pass.slots = k :: rest → slotRegion s k = some (i, r) → ∃ t,
    exec c s = .next t ∧
    t.mpu = { s.mpu with mem := t.mpu.mem, pointer := p } ∧ Claim.countsWords pass.block s t ∧
    (∀ a, blockOf a ≠ pass.block → memGet t.mpu.mem a = memGet s.mpu.mem a) ∧
    (∀ a, blockOf a = pass.block → a < Config.words →
      memGet t.mpu.mem a =
        if (readWord s a).cond = .correctable then freshWord (readWord s a).value
        else normalWord { memGet s.mpu.mem a with stored := (readWord s a).value }) ∧
    (s.dev ≠ .configuring → k < 16 → regionOf s pass.block = some (i, r) → assocFind s.rgt.entries i = some r →
      ∀ a ∈ blockWords pass.block, (readWord s a).cond = .uncorrectable →
        (∃ r', assocFind t.rgt.entries i = some r' ∧ r'.desc = r.desc ∧ r'.state = .suspectUnlocated) ∧
        (s.cmu.events.length < 47 → ∃ v ∈ t.cmu.events, v.body = .uncorrectable (some i) (4 * a) none)) ∧
    (let bad := min 65535
       (pass.bad + (blockWords pass.block).countP (fun a => (readWord s a).cond == .uncorrectable))
     let sum := (pass.sum + ((blockWords pass.block).map
        (fun a => wordTerm r.desc (offsetIn r.desc a) (readWord s a).value)).sum) % Config.p
     (pass.block + 1 < r.desc.first + r.desc.count →
       t.sgu.sigs = s.sgu.sigs ∧ t.dev = s.dev ∧ t.cju.chan = s.cju.chan ∧
       t.sgu.pass = some ⟨pass.slots, pass.block + 1, sum, bad⟩) ∧
     (¬ pass.block + 1 < r.desc.first + r.desc.count → t.sgu.sigs = s.sgu.sigs.set k sum) ∧
     (¬ pass.block + 1 < r.desc.first + r.desc.count → ∀ k' more, rest = k' :: more → slotRegion s k' ≠ none →
       ∃ f, t.sgu.pass = some ⟨rest, f, 0, bad⟩ ∧ ∀ e, slotRegion s k' = some e → f = e.2.desc.first) ∧
     (c = .signingRead → rest = [] → ¬ pass.block + 1 < r.desc.first + r.desc.count →
       t.dev = .running ∧ t.sgu.pass = none ∧
       (∃ record, t.start = some record ∧ record.fingerprint = s.rgt.fingerprint ∧ record.uncorrectable = bad ∧
         record.suspects = (t.rgt.entries.filter (fun e => e.2.desc.signed && e.2.state != .normal)).map Prod.fst ∧
         (∀ n, n < 3 → (record.peersHeard.getLsbD n = true ↔
           ∃ l, (s.lkc.peers.get l).heard = true ∧ peerPosition s.position l = n)) ∧
         record.joinExcluded = (runningAhead s.lkc.peers.one || runningAhead s.lkc.peers.two) ∧
         record.time = s.cmu.ms ∧
         (s.cmu.events.length < 47 → ∃ v ∈ t.cmu.events,
           v.body = .operationDone (if record.joinExcluded then .excluded else .ready) none)) ∧
       (runningAhead s.lkc.peers.one = false → runningAhead s.lkc.peers.two = false →
         t.cju.chan = some .ready ∧ t.vtu.agreedBase = true) ∧
       (runningAhead s.lkc.peers.one = true ∨ runningAhead s.lkc.peers.two = true →
         t.cju.chan = some .excluded ∨ t.cju.chan = some .restoring))) ∧
    (c = .reSigningRead → rest = [] → ¬ pass.block + 1 < r.desc.first + r.desc.count →
      ∀ l f es, s.rse.pull.server = some l → s.rse.pull.ending = some f → f.entries = some es →
        ((∀ a ∈ blockWords pass.block, (readWord s a).cond ≠ .uncorrectable) →
          (∀ j, j < 16 → Claim.slotPasses { s with sgu.sigs := t.sgu.sigs } es j) →
          Claim.pullSucceeds 1 l f es s t) ∧
        ((∀ a ∈ blockWords pass.block, (readWord s a).cond ≠ .uncorrectable) →
          (∃ j, j < 16 ∧ ¬Claim.slotPasses { s with sgu.sigs := t.sgu.sigs } es j) →
          Claim.pullFails 1 l .mismatch (some f.result) s t) ∧
        ((∃ a ∈ blockWords pass.block, (readWord s a).cond = .uncorrectable) → s.dev ≠ .configuring → k < 16 →
          regionOf s pass.block = some (i, r) → assocFind s.rgt.entries i = some r →
          Claim.pullFails 18 l .mismatch (some f.result) s t))

/-! ### The vote -/

/-- The vote timer's expiry on a CLOSED frame that a peer's CURRENT frame agrees with is MEMBER_3 or MEMBER_2: c advances,
the W_CUR marks become the W_PREV marks, the journal is empty, the closed set is the own frame's, the agreed base is true,
the channel is READY, and PERMIT goes on unless a signed region is SUSPECT. Agreement is spelled out in `Claim.agree`
(R126), and each peer's view follows its frame (R134). A DELTA service ends with STALE (R154), its PULL_END tagged with the
new c (notes/assumptions/18); of a FULL service the W_CUR blocks behind the walk get RESEND marks (R156), and it goes on. A
DECISION event records it where outcome or agreeing set is new (R134). -/
def Obligations.MembersCloseTheCycle : Prop :=
  ∀ (own : VoteFrame) (s : State),
    s.resetLow = false → s.cju.chan = some .voting → s.vtu.timer.isSome = true → s.vtu.own = some own →
    own.kind = .closed →
    (∃ l, Claim.joins own s l) → ∃ t,
      exec .voteTimerExpiry s = .next t ∧
      t.cju.chan = some .ready ∧ t.cju.cycle = s.cju.cycle + 1 ∧ t.cju.wPrev = s.cju.wCur ∧ t.cju.wPrevValid = true ∧
      t.cju.wCur = [] ∧ t.cju.journal = [] ∧ t.cju.unrevertible = false ∧ t.vtu.closedSet = own.entries ∧
      t.vtu.agreedBase = true ∧ t.vtu.timer = none ∧
      (∃ d, t.vtu.last = some d ∧ d.cycle = s.cju.cycle + 1 ∧ d.time = s.cmu.ms ∧
        Claim.agreeing own s d.agreeing ∧ ((∀ l, Claim.joins own s l) → d.outcome = .member3) ∧
        ((∃ l, ¬Claim.joins own s l) → d.outcome = .member2)) ∧
      Claim.decisionRecorded 2 s t ∧ t.vtu.permitted = (s.vtu.permitted || !anySuspect s) ∧
      Claim.viewed own s t ∧
      (serving s = true → s.rse.service.kind = some .delta → Claim.serviceEnds 1 .stale (s.cju.cycle + 1) s t) ∧
      (serving s = false ∨ s.rse.service.kind ≠ some .delta →
        Claim.serviceStays
          (fun k => k ∈ s.cju.resend ∨
            serving s = true ∧ s.rse.service.kind = some .full ∧ k ∈ s.cju.wCur ∧ Claim.inSet s k ∧
              (s.rse.service.walkPos = some .finished ∨ ∃ w, s.rse.service.walkPos = some (.block w) ∧ k < w)) s t) ∧
      (∀ l, t.vtu.table.get l = (s.vtu.table.get l).filter (fun g => g.cycle != s.cju.cycle + 1)) ∧
      t.rgt = s.rgt ∧ t.mpu = s.mpu ∧ t.sgu = s.sgu ∧ t.ptu = s.ptu ∧ t.cju.repair = s.cju.repair ∧
      t.cju.repairOverflow = s.cju.repairOverflow ∧ t.rse.pull = s.rse.pull

/-- What R127 rules on the own frame and the CURRENT frames, line by line, is `Claim.rules`, and the frame of R78, all its
entries SUSPECT, is EXCLUDED. At the vote timer's expiry the rulings that are no membership turn PERMIT off.
COLLECTIVE_ABANDON and a NO_QUORUM on an ABANDONED frame are READY on the same c; a NO_QUORUM on a CLOSED frame is READY
with c advanced and no agreed base; OUTVOTED starts a DELTA pull in CATCHUP; EXCLUDED leaves no agreed base. A rollback at
the decision (R130) keeps the majority's frame and rolls the journal back, and with an empty journal it completes at once as
COLLECTIVE_ABANDON or EXCLUDED. The CURRENT slots are emptied, and the NEXT slots with them where the outcome repeats v
(R124). A completed decision has its DECISION event where outcome or agreeing set is new, and each peer's view follows its
frame (R134). A service goes on through COLLECTIVE_ABANDON and the begin of a rollback, and ends with SERVER_LOST at
OUTVOTED, EXCLUDED and NO_QUORUM (R131 to R133, R157); at a NO_QUORUM that advances c a DELTA service ends with STALE
(notes/assumptions/18). Decisions taken at a hand-over, at the last awaited VOTE or at a change of link state are the same:
CloseDrainEndsInAVote, AbandonEndsTheCycle, RollbackPutsBack, VoteFramesArePlaced, HelloUpdatesThePeer and
SilentPeersAreRecorded say so. That PERMIT_DROPPED carries no outcome at a rollback is read from R137
(notes/assumptions/17). -/
def Obligations.LostVotesTurnPermitOff : Prop :=
  (∀ (own : VoteFrame) (r : Ruling) (s : State),
    Claim.rules own s r ↔ rule s own ⟨currentFrame s .one, currentFrame s .two⟩ = r) ∧
  (∀ (own : VoteFrame) (s : State), own.kind = .abandoned → s.cju.unrevertible = true →
    (∀ e ∈ own.entries, e.flag = .suspect) → Claim.rules own s (.outcome .excluded none)) ∧
  (∀ (own : VoteFrame) (o : VoteOutcome) (server : Option Link) (s : State),
    s.resetLow = false → s.cju.chan = some .voting → s.vtu.timer.isSome = true → s.vtu.own = some own → s.position ≠ 3 →
    Claim.rules own s (.outcome o server) → o ≠ .member3 → o ≠ .member2 → ∃ t,
    exec .voteTimerExpiry s = .next t ∧
    t.vtu.permitted = false ∧ Claim.decisionRecorded 3 s t ∧
    (∃ d, t.vtu.last = some d ∧ d.outcome = o ∧ d.cycle = s.cju.cycle + 1 ∧ d.time = s.cmu.ms ∧
      Claim.agreeing own s d.agreeing) ∧
    Claim.viewed own s t ∧ t.dev = s.dev ∧ t.times = s.times ∧ t.rgt = s.rgt ∧ t.cju.repair = s.cju.repair ∧
    t.cju.repairOverflow = s.cju.repairOverflow ∧
    (serving s = false →
      t.rse.service = { s.rse.service with timer := none, tried := [], waiting := false } ∧
      t.cju.resend = s.cju.resend) ∧
    (serving s = true →
      (o = .collectiveAbandon → Claim.serviceStays (fun k => k ∈ s.cju.resend) s t) ∧
      (o = .noQuorum → own.kind = .closed → s.rse.service.kind = some .delta →
        Claim.serviceEnds 2 .stale (s.cju.cycle + 1) s t) ∧
      (o = .noQuorum → own.kind = .closed → s.rse.service.kind ≠ some .delta →
        Claim.serviceEnds 2 .serverLost (s.cju.cycle + 1) s t) ∧
      (o = .noQuorum → own.kind = .abandoned → Claim.serviceEnds 2 .serverLost s.cju.cycle s t) ∧
      (o = .outvoted → Claim.serviceEnds 2 .serverLost s.cju.cycle s t) ∧
      (o = .excluded → Claim.serviceEnds 2 .serverLost s.cju.cycle s t)) ∧
    t.vtu.timer = none ∧ t.mpu = s.mpu ∧ t.sgu = s.sgu ∧ t.ptu = s.ptu ∧
    (∀ l, t.vtu.table.get l = (s.vtu.table.get l).filter (fun g => g.cycle != s.cju.cycle + 1 &&
      !((o = .collectiveAbandon ∨ o = .noQuorum ∧ own.kind = .abandoned) && g.cycle == s.cju.cycle + 2))) ∧
    (o = .collectiveAbandon → t.cju.chan = some .ready ∧ t.cju.cycle = s.cju.cycle ∧ t.cju.journal = [] ∧
      t.vtu.agreedBase = s.vtu.agreedBase ∧ t.vtu.closedSet = s.vtu.closedSet ∧ t.cju.wCur = [] ∧
      t.cju.unrevertible = false ∧ t.cju.wPrev = s.cju.wPrev ∧ t.cju.wPrevValid = s.cju.wPrevValid) ∧
    (o = .noQuorum → t.cju.chan = some .ready ∧ t.vtu.agreedBase = false ∧ t.cju.journal = [] ∧ t.cju.wCur = [] ∧
      t.cju.unrevertible = false ∧
      (own.kind = .closed → t.cju.cycle = s.cju.cycle + 1 ∧ t.vtu.closedSet = own.entries ∧ t.cju.wPrev = s.cju.wCur ∧
        t.cju.wPrevValid = true) ∧
      (own.kind = .abandoned → t.cju.cycle = s.cju.cycle ∧ t.vtu.closedSet = s.vtu.closedSet ∧
        t.cju.wPrev = s.cju.wPrev ∧ t.cju.wPrevValid = s.cju.wPrevValid)) ∧
    (o = .outvoted → t.cju.chan = some .catchup ∧ t.cju.cycle = s.cju.cycle ∧ t.vtu.agreedBase = s.vtu.agreedBase ∧
      t.vtu.closedSet = s.vtu.closedSet ∧ t.cju.wPrev = [] ∧ t.cju.wPrevValid = false ∧ ∃ l, server = some l ∧
      t.rse.pull.phase = .receiving ∧ t.rse.pull.kind = some .delta ∧ t.rse.pull.server = some l ∧
      t.rse.pull.target = s.cju.cycle + 1 ∧
      Claim.queued l (.pull ⟨.delta, 8, s.cju.cycle + 1, 0, s.cju.repair.map (BitVec.ofNat 16)⟩) s t) ∧
    (o = .excluded → (t.cju.chan = some .excluded ∨ t.cju.chan = some .restoring) ∧ t.vtu.agreedBase = false ∧
      t.cju.cycle = s.cju.cycle ∧ t.cju.wPrevValid = false ∧ t.cju.wPrev = [] ∧ t.cju.journal = [] ∧ t.cju.wCur = [] ∧
      t.cju.unrevertible = false ∧ t.vtu.closedSet = s.vtu.closedSet)) ∧
  ∀ (own m : VoteFrame) (s : State),
    s.resetLow = false → s.cju.chan = some .voting → s.vtu.timer.isSome = true → s.vtu.own = some own →
    Claim.rules own s (.rollback m) → ∃ t,
    exec .voteTimerExpiry s = .next t ∧
    t.vtu.permitted = false ∧ (s.vtu.permitted = true → t.vtu.level = false) ∧ t.vtu.timer = none ∧
    (s.vtu.permitted = true → s.cmu.events.length < 64 → ∃ v ∈ t.cmu.events, v.body = .permitDropped (.outcome none)) ∧
    t.mpu = s.mpu ∧ t.sgu = s.sgu ∧ t.cju.cycle = s.cju.cycle ∧
    (s.cju.journal ≠ [] →
      (∀ l, t.vtu.table.get l = (s.vtu.table.get l).filter (fun g => g.cycle != s.cju.cycle + 1)) ∧
      t.cju.chan = some .rollingBack ∧ t.vtu.deciding = some ⟨⟨currentFrame s .one, currentFrame s .two⟩, m⟩ ∧
      t.cju.journal = s.cju.journal ∧ t.cju.wCur = s.cju.wCur ∧ t.vtu.own = s.vtu.own ∧ t.vtu.last = s.vtu.last ∧
      t.vtu.agreedBase = s.vtu.agreedBase ∧ t.rgt = s.rgt ∧ t.ptu = s.ptu ∧ t.lkc.peers = s.lkc.peers ∧
      t.cju.resend = s.cju.resend ∧ ∃ u, EndOfStep u t ∧ u.rse.service = s.rse.service) ∧
    (s.cju.journal = [] →
      t.vtu.deciding = none ∧ t.vtu.own = some ⟨s.cju.cycle + 1, .abandoned, ownEntries t⟩ ∧
      (tableLaw s = true → Claim.decisionRecorded 20 s t) ∧
      (∃ d, t.vtu.last = some d ∧ d.cycle = s.cju.cycle + 1 ∧ d.time = s.cmu.ms ∧
        Claim.agreeing ⟨s.cju.cycle + 1, .abandoned, ownEntries t⟩ s d.agreeing) ∧
      Claim.viewed ⟨s.cju.cycle + 1, .abandoned, ownEntries t⟩ s t ∧
      (Claim.agree ⟨s.cju.cycle + 1, .abandoned, ownEntries t⟩ m →
        Claim.serviceStays (fun k => k ∈ s.cju.resend) s t ∧
        t.vtu.last.map Decision.outcome = some .collectiveAbandon ∧ t.cju.chan = some .ready ∧
        ∀ l, t.vtu.table.get l =
          (s.vtu.table.get l).filter (fun g => g.cycle != s.cju.cycle + 1 && g.cycle != s.cju.cycle + 2)) ∧
      (¬Claim.agree ⟨s.cju.cycle + 1, .abandoned, ownEntries t⟩ m →
        (tableLaw s = true → serving s = true → Claim.serviceEnds 20 .serverLost s.cju.cycle s t) ∧
        (∀ l, t.vtu.table.get l = (s.vtu.table.get l).filter (fun g => g.cycle != s.cju.cycle + 1)) ∧
        t.vtu.last.map Decision.outcome = some .excluded ∧ t.vtu.agreedBase = false ∧
        (t.cju.chan = some .excluded ∨ t.cju.chan = some .restoring)))

/-! ### Timers -/

/-- When the peer silence time of a HEARD peer has passed since its last frame it is SILENT, with a PEER_STATE event; its
match, last HELLO and last frame stay. In VOTING, where no other HEARD peer's frame is missing, the decision is taken as at
the vote timer's expiry (R125); otherwise, and where no pull starts, nothing else changes. An expiry that a frame has
overtaken does not happen, and a SILENT peer's silence has no effect. A rollback check at the decision may set that the
region the patrol walks has become SUSPECT (notes/assumptions/43). -/
def Obligations.SilentPeersAreRecorded : Prop :=
  ∀ (l : Link) (s : State), s.resetLow = false →
    ((s.lkc.peers.get l).heard = false → exec (.peerSilenceExpiry l) s = .next s) ∧
    ∀ n, (s.lkc.peers.get l).lastFrame = some n →
    ((s.cmu.ms - n).toNat < s.times.peerSilence → exec (.peerSilenceExpiry l) s = .next s) ∧
    ((s.lkc.peers.get l).heard = true → s.times.peerSilence ≤ (s.cmu.ms - n).toNat →
      let u : State :=
        { s with
          lkc.peers := s.lkc.peers.put l { s.lkc.peers.get l with heard := false }
          cmu := (recordEvent (.peerState (peerPosition s.position l) false (s.lkc.peers.get l).matched) s).cmu }
      (∃ t, exec (.peerSilenceExpiry l) s = .next t ∧
        (∃ v, t.lkc.peers.get l = { s.lkc.peers.get l with heard := false, view := v }) ∧
        t.mpu = s.mpu ∧ t.sgu = s.sgu ∧ t.ptu = { s.ptu with turned := t.ptu.turned } ∧
        t.cju.repair = s.cju.repair ∧
        (s.cmu.events.length < 64 → ∃ r ∈ t.cmu.events,
          r.body = .peerState (peerPosition s.position l) false (s.lkc.peers.get l).matched) ∧
        (¬Claim.pullDue u → (s.cju.chan = some .voting → ∃ m, Claim.awaits u m) → EndOfStep u t)) ∧
      (s.cju.chan = some .voting → s.vtu.timer.isSome = true → (∀ m, ¬Claim.awaits u m) →
        exec (.peerSilenceExpiry l) s = exec .voteTimerExpiry u))

/-- The HELLO timer queues a HELLO on both links; the patrol interval requests one read while the patrol walks and has a
position, and starts again at its new length; a half-period of PERMIT inverts the line while permitted is on. A running
timer may expire at any step (the model's choice, notes/assumptions/6). -/
def Obligations.PeriodicTimersAct : Prop :=
  ∀ (s : State), s.resetLow = false →
    (s.lkc.helloTimer = true → s.position ≠ 3 → ∃ t, exec .helloTimer s = .next t ∧
      t = { s with lkc.tx := t.lkc.tx } ∧ ∀ l, Claim.queued l (.hello (helloFields s)) s t) ∧
    (s.ptu.timer.isSome = true →
      exec .patrolInterval s =
        .next { s with
          ptu := { s.ptu with timer := some s.ptu.interval, request := s.ptu.request || s.ptu.position.isSome } }) ∧
    (s.ptu.timer = none → exec .patrolInterval s = .next s) ∧
    (s.vtu.permitted = true → exec .permitToggle s = .next { s with vtu.level := !s.vtu.level }) ∧
    (s.vtu.permitted = false → exec .permitToggle s = .next s)

/-- The pull silence timer's expiry fails the pull: no agreed base, one more attempt, EXCLUDED, and a new pull while fewer
than three have failed and a server is eligible. The credit silence timer's expiry ends the service with ABORTED. -/
def Obligations.SilencesEndPullsAndServices : Prop :=
  (∀ (l : Link) (s : State), s.resetLow = false → s.rse.pull.phase = .receiving → s.rse.pull.timer.isSome = true →
    s.rse.pull.server = some l → ∃ t,
    exec .pullSilenceExpiry s = .next t ∧
    t.vtu.agreedBase = false ∧ t.rse.pull.attempts = min 3 (s.rse.pull.attempts + 1) ∧ t.cju.wPrevValid = false ∧
    t.cju.cycle = s.cju.cycle ∧ t.mpu = s.mpu ∧ t.sgu = s.sgu ∧ t.rgt = s.rgt ∧ t.ptu = s.ptu ∧
    t.cju.repair = s.cju.repair ∧
    (s.cmu.events.length < 63 → ∃ r ∈ t.cmu.events,
      r.body = .pullEnded (peerPosition s.position l) none (some .pullTimeout) s.rse.pull.received) ∧
    (2 ≤ s.rse.pull.attempts ∨ (∀ m, eligible s m = false) →
      t.cju.chan = some .excluded ∧ t.rse.pull.phase = .idle ∧ t.rse.pull.buffers = []) ∧
    (s.rse.pull.attempts < 2 → (∃ m, eligible s m = true) →
      t.cju.chan = some .restoring ∧ t.rse.pull.phase = .receiving ∧ t.rse.pull.kind = some .full)) ∧
  ∀ (l : Link) (s : State), s.resetLow = false → s.rse.service.timer.isSome = true → serving s = true →
    s.rse.service.requester = some l → s.position ≠ 3 → ∃ t,
    exec .creditSilenceExpiry s = .next t ∧
    t.rse.service.phase = .idle ∧ t.rse.service.timer = none ∧ t.cju.resend = [] ∧
    Claim.queued l (.pullEnd ⟨.aborted, s.cju.cycle, BitVec.ofNat 32 s.rse.service.sent, none⟩) s t ∧
    t.rse.pull = s.rse.pull ∧ t.mpu = s.mpu ∧ t.rgt = s.rgt ∧ t.sgu = s.sgu ∧ t.vtu = s.vtu ∧ t.ptu = s.ptu ∧
    t.cju = { s.cju with resend := [] }

/-! ### Frames of the links -/

/-- A frame whose check fails (BAD_CHECK), or whose kind, length, codes or sender position do not fit (BAD_FRAME), adds one
to the link error count and records a LINK_ERROR event once in each 100 ms window; nothing else changes. Bytes that pass are
handled as the frame they carry. At the latched position 3 every frame, good or bad, is discarded and changes nothing
(R106). -/
def Obligations.FailedFramesAreCounted : Prop :=
  (∀ (l : Link) (s : State), s.position = 3 →
    (∀ bytes, exec (.invalidFrame l bytes) s = .next s) ∧ (∀ fp f, exec (.helloReceived l fp f) s = .next s) ∧
    (∀ fp f, exec (.voteReceived l fp f) s = .next s) ∧ (∀ fp f, exec (.pullReceived l fp f) s = .next s) ∧
    (∀ fp f, exec (.blockReceived l fp f) s = .next s) ∧ (∀ fp n, exec (.creditReceived l fp n) s = .next s) ∧
    ∀ fp f, exec (.pullEndReceived l fp f) s = .next s) ∧
  ∀ (l : Link) (bytes : List Byte) (s : State), s.resetLow = false → s.position ≠ 3 →
    (∀ reason, judgeFrame (peerPosition s.position l) bytes = .failed reason → ∃ t,
      exec (.invalidFrame l bytes) s = .next t ∧
      t = { s with lkc.peers := t.lkc.peers, cmu := t.cmu } ∧
      t.lkc.peers = s.lkc.peers.put l
        { s.lkc.peers.get l with
          errors := satInc 65535 (s.lkc.peers.get l).errors, window := some (s.cmu.ms.toNat / 100) } ∧
      ((s.lkc.peers.get l).window = some (s.cmu.ms.toNat / 100) → t.cmu = s.cmu) ∧
      ((s.lkc.peers.get l).window ≠ some (s.cmu.ms.toNat / 100) → s.cmu.events.length < 64 →
        t.cmu.events = s.cmu.events ++
          [⟨s.cmu.nextSeq, s.cmu.ms, s.cju.cycle + 1, .linkError (peerPosition s.position l) reason none⟩])) ∧
    (bytes.length < 2 ∨ bytes.drop (bytes.length - 2) ≠ halfBytes (crc16 (bytes.take (bytes.length - 2))) →
      judgeFrame (peerPosition s.position l) bytes = .failed .badCheck) ∧
    (∀ fp f, judgeFrame (peerPosition s.position l) bytes = .valid ⟨fp, .hello f⟩ →
      exec (.invalidFrame l bytes) s = exec (.helloReceived l fp f) s) ∧
    (∀ fp f, judgeFrame (peerPosition s.position l) bytes = .valid ⟨fp, .vote f⟩ →
      exec (.invalidFrame l bytes) s = exec (.voteReceived l fp f) s) ∧
    (∀ fp f, judgeFrame (peerPosition s.position l) bytes = .valid ⟨fp, .pull f⟩ →
      exec (.invalidFrame l bytes) s = exec (.pullReceived l fp f) s) ∧
    (∀ fp f, judgeFrame (peerPosition s.position l) bytes = .valid ⟨fp, .block f⟩ →
      exec (.invalidFrame l bytes) s = exec (.blockReceived l fp f) s) ∧
    (∀ fp n, judgeFrame (peerPosition s.position l) bytes = .valid ⟨fp, .credit n⟩ →
      exec (.invalidFrame l bytes) s = exec (.creditReceived l fp n) s) ∧
    ∀ fp f, judgeFrame (peerPosition s.position l) bytes = .valid ⟨fp, .pullEnd f⟩ →
      exec (.invalidFrame l bytes) s = exec (.pullEndReceived l fp f) s

/-- A valid HELLO is kept with its fingerprint as the last HELLO of its peer: HEARD, MATCHED when the fingerprint is the
part's own (0 in CONFIGURING), and the time of last frame is now. Where link state or match changes one PEER_STATE event
records it, and none otherwise. A HELLO of the pull's server that shows it serving restarts the pull silence timer (R147),
one of the requester that shows it no longer pulling ends the service with ABORTED (R157), and in EXCLUDED one may start a
FULL pull (R143). In VOTING, where it makes the peer HEARD and no HEARD peer's frame is missing then, the decision is taken
as at the vote timer's expiry (R125); that the HELLO has done its other work before is the model's choice
(notes/assumptions/44). A rollback check at the decision may set that the region the patrol walks has become SUSPECT
(notes/assumptions/43). -/
def Obligations.HelloUpdatesThePeer : Prop :=
  ∀ (l : Link) (fp : BitVec 16) (f : HelloFields) (s : State), s.resetLow = false → s.position ≠ 3 →
    let p := s.lkc.peers.get l
    let matched := fp == (if s.dev = .configuring then 0 else s.rgt.fingerprint)
    let same := p.heard && p.matched == matched
    let restarts := s.rse.pull.phase == .receiving && s.rse.pull.server == some l && matched && f.dev == .running &&
      f.serviceBusy
    let ends := serving s = true ∧ s.rse.service.requester = some l ∧
      (s.rse.service.kind = some .delta ∧ (f.dev ≠ .running ∨ f.chan ≠ some .catchup) ∨
       s.rse.service.kind = some .full ∧ (f.dev ≠ .running ∨ f.chan ≠ some .restoring))
    let u : State :=
      { s with
        lkc.peers := s.lkc.peers.put l
          { p with heard := true, matched := matched, hello := some ⟨f, fp⟩, lastFrame := some s.cmu.ms }
        cmu := if same then s.cmu else (recordEvent (.peerState (peerPosition s.position l) true matched) s).cmu
        rse.pull.timer := if restarts then some s.times.pullSilence else s.rse.pull.timer }
    (∃ t, exec (.helloReceived l fp f) s = .next t ∧
      (∃ v, t.lkc.peers.get l =
        { p with heard := true, matched := matched, hello := some ⟨f, fp⟩, lastFrame := some s.cmu.ms, view := v }) ∧
      t.mpu = s.mpu ∧ t.sgu = s.sgu ∧ t.ptu = { s.ptu with turned := t.ptu.turned } ∧
      t.cju.repair = s.cju.repair ∧ t.dev = s.dev ∧ t.rgt.fingerprint = s.rgt.fingerprint ∧
      (same = false → s.cmu.events.length < 64 → ∃ r ∈ t.cmu.events,
        r.body = .peerState (peerPosition s.position l) true matched) ∧
      (same = true → ∀ r ∈ t.cmu.events, r ∈ s.cmu.events ∨ ∀ n h m, r.body ≠ .peerState n h m) ∧
      (restarts = true → s.cju.chan ≠ some .voting →
        t.rse.pull = { s.rse.pull with timer := some s.times.pullSilence }) ∧
      (ends → t.rse.service.phase = .idle ∧ t.rse.service.timer = none ∧ t.cju.resend = [] ∧
        Claim.queued l (.pullEnd ⟨.aborted, s.cju.cycle, BitVec.ofNat 32 s.rse.service.sent, none⟩) s t ∧
        (s.cmu.events.length < 63 → ∃ r ∈ t.cmu.events,
          r.body = .serviceEnded (peerPosition s.position l) .aborted)) ∧
      (Claim.pullDue u →
        t.cju.chan = some .restoring ∧ t.rse.pull.phase = .receiving ∧ t.rse.pull.kind = some .full ∧
        t.rse.pull.attempts = s.rse.pull.attempts) ∧
      (¬ends → ¬Claim.pullDue u → (s.cju.chan = some .voting → p.heard = true ∨ ∃ m, Claim.awaits u m) →
        EndOfStep u t) ∧
      (s.cju.chan ≠ some .voting → s.cju.chan ≠ some .excluded →
        t.rgt = s.rgt ∧ t.vtu = s.vtu ∧ t.ptu = s.ptu ∧ t.cju = { s.cju with resend := t.cju.resend } ∧
        t.lkc.peers.get (match l with | .one => .two | .two => .one) =
          s.lkc.peers.get (match l with | .one => .two | .two => .one))) ∧
    (s.cju.chan = some .voting → s.vtu.timer.isSome = true → p.heard = false → (∀ m, ¬Claim.awaits u m) →
      ∃ w, exec (.helloReceived l fp f) s = exec .voteTimerExpiry w ∧
        w = { u with rse.service := w.rse.service, cju.resend := w.cju.resend, lkc.tx := w.lkc.tx, cmu := w.cmu } ∧
        (¬ends → w = u) ∧ (ends → w.rse.service.phase = .idle ∧ w.cju.resend = []))

/-- A VOTE frame of a HEARD peer is put by its cycle: for v or v + 1 it takes the slot of that cycle, for an older one it is
discarded, LATE if the peer was a member, and a channel that does not vote keeps the two most recent. A frame for v in
VOTING after which no HEARD peer's frame is missing brings the decision, as at the vote timer's expiry (R125); otherwise
nothing is decided. Before that R110 and R118 are done: in CONFIGURING, and with another fingerprint, a HEARD peer's frame
only refreshes its presence; a SILENT peer's frame makes it HEARD, with its PEER_STATE event, a decision or a FULL pull that
this brings comes first (notes/assumptions/27), and the frame is then met as that of a HEARD peer. -/
def Obligations.VoteFramesArePlaced : Prop :=
  (∀ (l : Link) (fp : BitVec 16) (f : VoteFrame), Claim.refreshes (.voteReceived l fp f) l fp) ∧
  ∀ (l : Link) (fp : BitVec 16) (f : VoteFrame) (s : State),
    Claim.hears fp s → (s.lkc.peers.get l).heard = true →
    let u : State :=
      { s with
        lkc.peers := s.lkc.peers.put l { s.lkc.peers.get l with lastFrame := some s.cmu.ms }
        vtu.table :=
          if s.cju.chan = none ∨ s.cju.chan = some .catchup ∨ s.cju.chan = some .excluded ∨ s.cju.chan = some .restoring then
            s.vtu.table.put l ((s.vtu.table.get l ++ [f]).drop ((s.vtu.table.get l).length + 1 - 2))
          else if f.cycle = s.cju.cycle + 1 ∨ f.cycle = s.cju.cycle + 2 then
            s.vtu.table.put l ((s.vtu.table.get l).filter (fun g => g.cycle != f.cycle) ++ [f])
          else s.vtu.table
        cmu :=
          if (s.cju.chan = some .ready ∨ s.cju.chan = some .opened ∨ s.cju.chan = some .closing ∨
                s.cju.chan = some .voting ∨ s.cju.chan = some .rollingBack) ∧
              2 ^ 31 ≤ (f.cycle - (s.cju.cycle + 1)).toNat ∧ (s.lkc.peers.get l).view = .member then
            (recordEvent (.late (peerPosition s.position l) f.cycle) s).cmu
          else s.cmu }
    ((s.cju.chan = some .voting → f.cycle = s.cju.cycle + 1 → ∃ m, Claim.awaits u m) → ∃ t,
      exec (.voteReceived l fp f) s = .next t ∧ EndOfStep u t) ∧
    (s.cju.chan = some .voting → s.vtu.timer.isSome = true → f.cycle = s.cju.cycle + 1 → (∀ m, ¬Claim.awaits u m) →
      exec (.voteReceived l fp f) s = exec .voteTimerExpiry u)

/-- A PULL of a HEARD peer starts a service in the serving condition, with the requester's credits, or is answered with the
first check of R152 that it fails: BUSY, NOT_MEMBER, BAD_REQUEST for a credit count outside 1 to 8, a region set without a
VITAL slot or with a slot of no signed region, or a repair block outside every VITAL region, and STALE. The PULL_END is
queued, but for a BUSY one that the PULL_END of the active service, ending in the same step for the same peer, replaces. In
CONFIGURING, and with another fingerprint, a PULL only refreshes its peer's presence, and one of a SILENT peer first makes
it HEARD, with what that brings (R110, R118; notes/assumptions/27). -/
def Obligations.PullsStartServices : Prop :=
  (∀ s : State, servingCondition s = true ↔
    s.dev = .running ∧ s.vtu.agreedBase = true ∧
      (s.cju.chan = some .ready ∨ s.cju.chan = some .opened ∨ s.cju.chan = some .closing ∨ s.cju.chan = some .voting ∨
        s.cju.chan = some .rollingBack)) ∧
  (∀ (l : Link) (fp : BitVec 16) (f : PullFrame), Claim.refreshes (.pullReceived l fp f) l fp) ∧
  ∀ (l : Link) (fp : BitVec 16) (f : PullFrame) (s : State),
    Claim.hears fp s → (s.lkc.peers.get l).heard = true →
    let credited := 1 ≤ f.credits.toNat ∧ f.credits.toNat ≤ 8
    let setOk := ∀ k, k < 16 →
      (∀ e, slotRegion s k = some e → e.2.desc.kind = .vital → f.regionSet.getLsbD k = true) ∧
      (slotRegion s k = none → f.regionSet.getLsbD k = false)
    let listOk := ∀ b ∈ f.repair, vitalBlock s b.toNat = true
    let fits := credited ∧ (f.kind = .full → setOk) ∧ (f.kind = .delta → listOk)
    (∀ result,
      (serving s = true ∧ result = .busy ∨
       serving s = false ∧ servingCondition s = false ∧ result = .notMember ∨
       serving s = false ∧ servingCondition s = true ∧ ¬fits ∧ result = .badRequest ∨
       serving s = false ∧ servingCondition s = true ∧ fits ∧ f.kind = .delta ∧
         (f.target ≠ s.cju.cycle ∨ s.cju.wPrevValid = false) ∧ result = PullResult.stale) → ∃ t,
      exec (.pullReceived l fp f) s = .next t ∧
      t.rse.pull = s.rse.pull ∧ t.rse.service.requester = s.rse.service.requester ∧
      t.rse.service.sent = s.rse.service.sent ∧ t.rse.service.credits = s.rse.service.credits ∧
      (serving s = false → t.rse.service.phase = .idle) ∧
      (serving s = false ∨ s.rse.service.requester ≠ some l ∨ t.rse.service.phase ≠ .idle →
        Claim.queued l (.pullEnd ⟨result, s.cju.cycle, 0, none⟩) s t) ∧
      (s.cmu.events.length < 64 → ∃ r ∈ t.cmu.events,
        r.body = .serviceEnded (peerPosition s.position l) result)) ∧
    (serving s = false → servingCondition s = true → fits →
      (f.kind = .delta → f.target = s.cju.cycle ∧ s.cju.wPrevValid = true) → ∃ t,
      exec (.pullReceived l fp f) s = .next t ∧
      t.rse.service.requester = some l ∧ t.rse.service.kind = some f.kind ∧
      t.rse.service.credits = f.credits.toNat ∧ t.rse.service.sent = 0 ∧
      (f.kind = .full → t.rse.service.regionSet = f.regionSet) ∧
      (f.kind = .delta → t.rse.service.repair = f.repair.map BitVec.toNat) ∧
      t.rse.pull = s.rse.pull ∧ t.mpu = s.mpu ∧ t.rgt = s.rgt ∧ t.vtu = s.vtu ∧ t.sgu = s.sgu ∧
      (s.cmu.events.length < 64 → ∃ r ∈ t.cmu.events,
        r.body = .serviceStarted (peerPosition s.position l) f.kind))

/-- A BLOCK of the active pull's server restarts the pull silence timer and, when it is part of the pull and a buffer is
free, fills the lowest free buffer; otherwise it is discarded with UNEXPECTED_BLOCK or NO_BUFFER. With no pull RECEIVING,
and from the other peer, it is discarded without an event (R145). That UNEXPECTED_BLOCK goes before NO_BUFFER is the model's
choice (notes/assumptions/19). In CONFIGURING, and with another fingerprint, a BLOCK only refreshes its peer's presence, and
one of a SILENT peer first makes it HEARD, with what that brings (R110, R118; notes/assumptions/27). -/
def Obligations.BlocksFillBuffers : Prop :=
  (∀ (l : Link) (fp : BitVec 16) (f : BlockFrame), Claim.refreshes (.blockReceived l fp f) l fp) ∧
  (∀ (f : BlockFrame) (s : State), partOfPull s f = true ↔
    s.rse.pull.kind = some .delta ∧ vitalBlock s f.block.toNat = true ∧ f.tag = s.rse.pull.target ∨
    s.rse.pull.kind = some .full ∧ ∃ e, regionOf s f.block.toNat = some e ∧ e.2.desc.signed = true ∧
      s.rse.pull.regionSet.getLsbD e.2.desc.slot = true) ∧
  (∀ (l : Link) (fp : BitVec 16) (f : BlockFrame) (s : State),
    Claim.hears fp s → (s.lkc.peers.get l).heard = true →
    ¬(s.rse.pull.phase = .receiving ∧ s.rse.pull.server = some l) → ∃ t,
    exec (.blockReceived l fp f) s = .next t ∧ Claim.discarded l s t) ∧
  ∀ (l : Link) (fp : BitVec 16) (f : BlockFrame) (s : State),
    Claim.hears fp s → (s.lkc.peers.get l).heard = true → s.rse.pull.phase = .receiving → s.rse.pull.server = some l →
    ∃ t, exec (.blockReceived l fp f) s = .next t ∧
      (∀ k, partOfPull s f = true → k < 8 → (∀ b ∈ s.rse.pull.buffers, b.slot ≠ k) →
        (∀ j, j < k → ∃ b ∈ s.rse.pull.buffers, b.slot = j) →
        EndOfStep
          { s with
            lkc.peers := s.lkc.peers.put l { s.lkc.peers.get l with lastFrame := some s.cmu.ms }
            rse.pull := { s.rse.pull with
              buffers := s.rse.pull.buffers ++ [⟨k, f.block.toNat, f.words⟩]
              received := if s.rse.pull.received < 4294967295 then s.rse.pull.received + 1 else s.rse.pull.received
              timer := some s.times.pullSilence } } t) ∧
      (∀ reason,
        (partOfPull s f = false ∧ reason = .unexpectedBlock ∨
         partOfPull s f = true ∧ (∀ k, k < 8 → ∃ b ∈ s.rse.pull.buffers, b.slot = k) ∧ reason = LinkReason.noBuffer) →
        t.rse.pull = { s.rse.pull with timer := some s.times.pullSilence } ∧
        ((s.lkc.peers.get l).window ≠ some (s.cmu.ms.toNat / 100) → s.cmu.events.length < 64 →
          ∃ r ∈ t.cmu.events,
            r.body = .linkError (peerPosition s.position l) reason (some (64 * f.block.toNat))))

/-- A CREDIT of the active service's requester adds its count up to 8, and any other is ignored. A PULL_END of the active
pull's server with DONE: with a buffer still full the timer stops and the pull is COMPLETING, and with none the checks of
R148 follow at once, and then the pass over the SUSPECT regions or the completion check of R149, by which the pull succeeds
or fails. With another result it fails the pull. Any other PULL_END is discarded without an event (R148). In CONFIGURING,
and with another fingerprint, frames of both kinds only refresh their peer's presence, and those of a SILENT peer first make
it HEARD, with what that brings (R110, R118; notes/assumptions/27). -/
def Obligations.CreditsAndPullEndsAreTaken : Prop :=
  (∀ (l : Link) (fp : BitVec 16) (n : Byte), Claim.refreshes (.creditReceived l fp n) l fp) ∧
  (∀ (l : Link) (fp : BitVec 16) (f : PullEndFrame), Claim.refreshes (.pullEndReceived l fp f) l fp) ∧
  (∀ (l : Link) (fp : BitVec 16) (n : Byte) (s : State), Claim.hears fp s → (s.lkc.peers.get l).heard = true → ∃ t,
    exec (.creditReceived l fp n) s = .next t ∧
    EndOfStep
      { s with
        lkc.peers := s.lkc.peers.put l { s.lkc.peers.get l with lastFrame := some s.cmu.ms }
        rse.service.credits :=
          if serving s = true ∧ s.rse.service.requester = some l then min 8 (s.rse.service.credits + n.toNat)
          else s.rse.service.credits } t) ∧
  (∀ (l : Link) (fp : BitVec 16) (f : PullEndFrame) (s : State),
    Claim.hears fp s → (s.lkc.peers.get l).heard = true →
    ¬(s.rse.pull.phase = .receiving ∧ s.rse.pull.server = some l) → ∃ t,
    exec (.pullEndReceived l fp f) s = .next t ∧ Claim.discarded l s t) ∧
  ∀ (l : Link) (fp : BitVec 16) (f : PullEndFrame) (s : State),
    Claim.hears fp s → (s.lkc.peers.get l).heard = true → s.rse.pull.phase = .receiving → s.rse.pull.server = some l →
    (f.entries.isSome = true ↔ f.result = .done) → ∃ t,
    exec (.pullEndReceived l fp f) s = .next t ∧
    (f.result = .done → s.rse.pull.buffers ≠ [] →
      EndOfStep
        { s with
          lkc.peers := s.lkc.peers.put l { s.lkc.peers.get l with lastFrame := some s.cmu.ms }
          rse.pull := { s.rse.pull with
            phase := .completing, timer := none, ending := some f, clean := t.rse.pull.clean } } t ∧
      ∀ k, k < 16 → (t.rse.pull.clean.getLsbD k = true ↔
        ∃ e, slotRegion s k = some e ∧ e.2.state = .normal)) ∧
    (f.result = .done → s.rse.pull.buffers = [] → s.sgu.pass = none → ∀ es clean, f.entries = some es →
      (∀ k, k < 16 → (clean.getLsbD k = true ↔ ∃ e, slotRegion s k = some e ∧ e.2.state = .normal)) →
      Claim.buffersWritten 1 l f es { s with rse.pull.clean := clean } t) ∧
    (f.result ≠ .done → Claim.pullFails 1 l .serverResult (some f.result) s t)

/-- When a transmission ends, the first waiting control frame begins, else the first waiting BLOCK, with the part's
fingerprint of the moment; with neither the transmitter is free. So it is while no service is active, while BLOCK frames
wait on the requester's link, and at every end of a transmission that leaves the service active. One that ends the service,
its last BLOCK sent, queues the PULL_END with DONE on the requester's link and a HELLO behind it, and then the first waiting
frame begins. With no transmission in progress nothing happens. The next frame begins at the end of the step
(notes/assumptions/25). -/
def Obligations.TransmissionGoesOn : Prop :=
  (∀ (l : Link) (s : State), s.resetLow = false → (s.lkc.tx.get l).sending = none →
    exec (.frameTransmitEnd l) s = .next s) ∧
  ∀ (l : Link) (f : SentFrame) (s : State), s.resetLow = false → s.position ≠ 3 → (s.lkc.tx.get l).sending = some f →
    ∃ t, exec (.frameTransmitEnd l) s = .next t ∧
      EndOfStep { s with lkc.tx := t.lkc.tx } t ∧
      (serving s = false ∨ (∃ r, s.rse.service.requester = some r ∧ (s.lkc.tx.get r).blocks ≠ []) ∨
          t.rse.service.phase ≠ .idle →
        t.lkc.tx.get l =
          match (s.lkc.tx.get l).ctrl, (s.lkc.tx.get l).blocks with
          | c :: rest, bs =>
            ⟨rest, bs, some ⟨if s.dev = .configuring then 0 else s.rgt.fingerprint, ctrlBody s c⟩, false⟩
          | [], b :: rest =>
            ⟨[], rest, some ⟨if s.dev = .configuring then 0 else s.rgt.fingerprint, .block b⟩, false⟩
          | [], [] => ⟨[], [], none, false⟩) ∧
      (serving s = true → t.rse.service.phase = .idle → ∃ r, s.rse.service.requester = some r ∧
        (let done : PullEndFrame :=
           ⟨.done, s.cju.cycle, BitVec.ofNat 32 s.rse.service.sent, some s.vtu.closedSet⟩
         (s.lkc.tx.get r).blocks = [] ∧ Claim.queued r (.pullEnd done) s t ∧
         (s.cmu.events.length < 48 → ∃ v ∈ t.cmu.events,
           v.body = .serviceEnded (peerPosition s.position r) .done) ∧
         ∃ c rest, queueCtrl .hello
             (if l = r then queueCtrl (.pullEnd done) (s.lkc.tx.get l).ctrl else (s.lkc.tx.get l).ctrl) = c :: rest ∧
           t.lkc.tx.get l =
             ⟨rest, (s.lkc.tx.get l).blocks, some ⟨if s.dev = .configuring then 0 else s.rgt.fingerprint, ctrlBody t c⟩,
               false⟩))

/-! ### The array and the arithmetic -/

/-- A disturbance inverts bits of one word as it stands in the array and leaves its stored value, every other word and every
record as they are. The check code then finds no bit in error GOOD, one CORRECTABLE with the data as written, and two
UNCORRECTABLE with the raw data bits. -/
def Obligations.DisturbanceKeepsTheStoredValue : Prop :=
  ∀ (word : BitVec 20) (flips : BitVec 40) (verdict : Verdict) (s : State), ∃ t,
    exec (.arrayDisturbance word flips verdict) s = .next t ∧
    t = { s with mpu.mem := t.mpu.mem } ∧
    (∀ a, a ≠ word.toNat → memGet t.mpu.mem a = memGet s.mpu.mem a) ∧
    (memGet t.mpu.mem word.toNat).stored = (memGet s.mpu.mem word.toNat).stored ∧
    (memGet t.mpu.mem word.toNat).written = (memGet s.mpu.mem word.toNat).written ∧
    (memGet t.mpu.mem word.toNat).flips = (memGet s.mpu.mem word.toNat).flips ^^^ flips ∧
    ∀ w, w = memGet t.mpu.mem word.toNat →
      (countBits w.flips = 0 → readWord t word.toNat = ⟨.good, w.written⟩) ∧
      (countBits w.flips = 1 → readWord t word.toNat = ⟨.correctable, w.written⟩) ∧
      (countBits w.flips = 2 →
        readWord t word.toNat = ⟨.uncorrectable, w.written ^^^ w.flips.extractLsb' 0 32⟩)

/-- The residue of every word value, as the table of R56 gives it. -/
def Obligations.ResiduesAreModuloP : Prop :=
  ∀ v : Word,
    residue v = v.toNat % 2147483647 ∧
    (v.toNat ≤ 2147483646 → residue v = v.toNat) ∧
    (2147483647 ≤ v.toNat → v.toNat ≤ 4294967293 → residue v = v.toNat - 2147483647) ∧
    (v = 0xFFFFFFFE → residue v = 0) ∧ (v = 0xFFFFFFFF → residue v = 1)

/-! ### Encodings and invariants -/

/-- Every command frame that fits, written to the request area, is read back as the command, the tag and the parameter words
it was formed from, whatever the area held before. -/
def Obligations.CommandFramesReadBack : Prop :=
  ∀ (cmd : Command) (tag : Byte) (ps : List Word) (area : List (Nat × Word)), ps.length ≤ 253 →
    parseCommand (putWords area 0 (commandFrame cmd tag ps)) = .command cmd tag ps

/-- Every frame of every kind that 12.5 allows, laid out as bytes with its check, passes the checks of R108 at the peer and
is read as the fingerprint and the fields it was formed from. -/
def Obligations.LinkFramesReadBack : Prop :=
  ∀ (sender : Nat) (fp : BitVec 16) (body : FrameBody), sender < 3 →
    (match body with
     | .vote f => entriesFit f.entries = true
     | .pull f => pullFits f = true
     | .block f => blockFits f = true
     | .pullEnd f => pullEndFits f = true
     | _ => True) →
    judgeFrame sender (frameBytes sender ⟨fp, body⟩) = .valid ⟨fp, body⟩

/-- The array keeps its canonical form under every step. The form is the model's own (notes/assumptions/29). -/
def Obligations.ArrayKeepsItsForm : Prop :=
  ∀ s t : State, arrayLaw s = true → step s = .next t → arrayLaw t = true

/-- The event queue, the dropped count, ALERT, the posted-write queue and the held transfers keep their laws under every
step. -/
def Obligations.QueuesKeepTheirLaws : Prop :=
  (∀ s t : State, eventLaw s = true → alertLaw s = true → step s = .next t → eventLaw t = true ∧ alertLaw t = true) ∧
    ∀ s t : State, queueLaw s = true → heldLaw s = true → step s = .next t → queueLaw t = true ∧ heldLaw t = true

/-- The journal keeps its law, and while UNREVERTIBLE is clear every W_CUR block keeps its journal entry, under every step.
-/
def Obligations.JournalKeepsItsLaw : Prop :=
  ∀ s t : State, journalLaw s = true → revertLaw s = true → step s = .next t → journalLaw t = true ∧ revertLaw t = true

/-- PERMIT keeps its law under every step: it toggles only while RUNNING, in READY, OPEN, CLOSING or VOTING, with no signed
region SUSPECT and a last decision of MEMBER_3 or MEMBER_2; a channel state exists exactly while RUNNING; and a service and a
pull are active only in their states and never together. -/
def Obligations.PermitStandsOnItsLaw : Prop :=
  ∀ s t : State, permitInvariant s = true → step s = .next t → permitInvariant t = true

/-- The records keep their laws under every step: the credit count (R153), the pull record (R140), the transmit queues
(R115), the signatures (R54, R66), the table (R1, R2, R6), the command buffer (R168) and the region states (R12); and, with
PERMIT's invariant, the repair list (R88, R91), the RESEND marks (R155), the vote table (R121 to R123) and the decision
completed at a rollback (R130). That the server asks for no block while 8 wait on the link is the model's choice
(notes/assumptions/40). -/
def Obligations.RecordsKeepTheirLaws : Prop :=
  (∀ s t : State, step s = .next t →
    (creditLaw s = true → creditLaw t = true) ∧ (pullLaw s = true → pullLaw t = true) ∧
    ((∀ l, transmitLaw (s.lkc.tx.get l) = true) → ∀ l, transmitLaw (t.lkc.tx.get l) = true) ∧
    (signatureLaw s = true → signatureLaw t = true) ∧ (tableLaw s = true → tableLaw t = true) ∧
    (commandLaw s = true → commandLaw t = true) ∧
    (tableLaw s = true → regionLaw s = true → regionLaw t = true)) ∧
  ∀ s t : State, permitInvariant s = true → step s = .next t →
    (repairLaw s = true → repairLaw t = true) ∧ (resendLaw s = true → resendLaw t = true) ∧
    (voteLaw s = true → voteLaw t = true) ∧ (decidingLaw s = true → decidingLaw t = true)

/-- The law of the device that governs the signatures (R57) is kept under every step: while RUNNING the running signature of
each NORMAL signed region is the sum over its stored values. It stands together with what a signing pass has added up so far,
with the signed entries of the queue and with INIT_MEMORY being over, and on the reading that no disturbance of three or more
bits passes for fewer (`Truthful`; the verdict of R40 is an operand, notes/assumptions/7). The stored value is a field of the
model's own (notes/assumptions/8). -/
def Obligations.SignaturesAccountForStoredValues : Prop :=
  ∀ s t : State,
    permitInvariant s = true → step s = .next t →
    (initLaw s = true → initLaw t = true) ∧ (signedQueueLaw s = true → signedQueueLaw t = true) ∧
    (Truthful s → arrayLaw s = true → tableLaw s = true → signatureLaw s = true → signedQueueLaw s = true →
      initLaw s = true → storedLaw s = true → passSumLaw s = true → storedLaw t = true ∧ passSumLaw t = true)
end

