-- ==== Sys2Proof/Laws/Assoc.lean ====
section
/-! SUPPORT. What the keyed lists answer after an insertion, an erasure or a change, and how their order is kept. -/

namespace Sys2Proof.Machine

open Sys2Proof

theorem assocFind_insert {α : Type} (l : List (Nat × α)) (a b : Nat) (v : α) :
    assocFind (assocInsert l a v) b = if a = b then some v else assocFind l b := by
  induction l with
  | nil => simp [assocInsert, assocFind]
  | cons e l ih => grind [assocInsert, assocFind]

theorem assocFind_erase {α : Type} (l : List (Nat × α)) (a b : Nat) :
    assocFind (assocErase l a) b = if a = b then none else assocFind l b := by
  induction l with
  | nil => simp [assocErase, assocFind]
  | cons e l ih => grind [assocErase, assocFind]

theorem assocFind_modify {α : Type} (l : List (Nat × α)) (a b : Nat) (f : α → α) :
    assocFind (assocModify l a f) b = if a = b then (assocFind l b).map f else assocFind l b := by
  induction l with
  | nil => simp [assocModify, assocFind]
  | cons e l ih =>
    simp only [assocModify] at ih
    simp only [assocModify, List.map_cons]
    grind [assocFind]

theorem assocGet_put {α : Type} [DecidableEq α] (d : α) (l : List (Nat × α)) (a b : Nat) (v : α) :
    assocGet d (assocPut d l a v) b = if a = b then v else assocGet d l b := by
  unfold assocGet assocPut
  split <;> simp only [assocFind_insert, assocFind_erase] <;> split <;> simp_all

theorem assocRising_lower {α : Type} (l : List (Nat × α)) (low low' : Nat) (h : low' ≤ low)
    (hl : assocRising low l = true) : assocRising low' l = true := by
  cases l with
  | nil => rfl
  | cons e l => grind [assocRising]

theorem assocRising_insert {α : Type} (l : List (Nat × α)) (low a : Nat) (v : α) (ha : low ≤ a)
    (hl : assocRising low l = true) : assocRising low (assocInsert l a v) = true := by
  induction l generalizing low with
  | nil => simp [assocInsert, assocRising, ha]
  | cons e l ih => grind [assocInsert, assocRising]

theorem assocRising_erase {α : Type} (l : List (Nat × α)) (low a : Nat) (hl : assocRising low l = true) :
    assocRising low (assocErase l a) = true := by
  induction l generalizing low with
  | nil => rfl
  | cons e l ih =>
    obtain ⟨k, v⟩ := e
    simp only [assocRising, Bool.and_eq_true, decide_eq_true_eq] at hl
    unfold assocErase
    split
    · exact ih low (assocRising_lower _ (k + 1) low (by omega) hl.2)
    · simpa [assocRising, hl.1] using ih (k + 1) hl.2

theorem assocRising_modify {α : Type} (l : List (Nat × α)) (low a : Nat) (f : α → α) :
    assocRising low (assocModify l a f) = assocRising low l := by
  induction l generalizing low with
  | nil => rfl
  | cons e l ih =>
    simp only [assocModify] at ih
    simp only [assocModify, List.map_cons]
    grind [assocRising]

theorem mem_assocInsert {α : Type} (l : List (Nat × α)) (a : Nat) (v : α) (e : Nat × α)
    (h : e ∈ assocInsert l a v) : e = (a, v) ∨ e ∈ l := by
  induction l with
  | nil => simpa [assocInsert] using h
  | cons x l ih => grind [assocInsert]

theorem mem_assocErase {α : Type} (l : List (Nat × α)) (a : Nat) (e : Nat × α) (h : e ∈ assocErase l a) : e ∈ l := by
  induction l with
  | nil => simp [assocErase] at h
  | cons x l ih => grind [assocErase]

/-- In a rising list a key below every listed one is not listed. -/
theorem assocFind_below {α : Type} (l : List (Nat × α)) (low a : Nat) (hl : assocRising low l = true) (ha : a < low) :
    assocFind l a = none := by
  induction l generalizing low with
  | nil => rfl
  | cons e l ih => grind [assocFind, assocRising]

/-- Two rising lists that answer alike are equal. -/
theorem assocRising_ext {α : Type} (l m : List (Nat × α)) (low : Nat) (hl : assocRising low l = true)
    (hm : assocRising low m = true) (h : ∀ a, assocFind l a = assocFind m a) : l = m := by
  induction l generalizing m low with
  | nil =>
    cases m with
    | nil => rfl
    | cons e m =>
      have := h e.1
      simp [assocFind] at this
  | cons e l ih =>
    cases m with
    | nil =>
      have := h e.1
      simp [assocFind] at this
    | cons x m =>
      obtain ⟨k, v⟩ := e
      obtain ⟨j, w⟩ := x
      simp only [assocRising, Bool.and_eq_true, decide_eq_true_eq] at hl hm
      have hk := h k
      have hj := h j
      have h1 : k = j := by
        rcases Nat.lt_trichotomy k j with hlt | he | hlt
        · have := assocFind_below m (j + 1) k hm.2 (by omega)
          simp [assocFind, this] at hk; omega
        · exact he
        · have := assocFind_below l (k + 1) j hl.2 (by omega)
          simp [assocFind, this] at hj; omega
      subst h1
      have h2 : v = w := by simpa [assocFind] using hk
      subst h2
      have := ih m (k + 1) hl.2 hm.2 (fun a => by
        by_cases ha : k = a
        · subst ha
          rw [assocFind_below l (k + 1) k hl.2 (by omega), assocFind_below m (k + 1) k hm.2 (by omega)]
        · simpa [assocFind, ha] using h a)
      rw [this]

theorem mem_setInsert (l : List Nat) (a b : Nat) : b ∈ setInsert l a ↔ b = a ∨ b ∈ l := by
  induction l with
  | nil => simp [setInsert]
  | cons k l ih => grind [setInsert]

theorem mem_setErase (l : List Nat) (a b : Nat) : b ∈ setErase l a ↔ b ∈ l ∧ b ≠ a := by simp [setErase]

end Sys2Proof.Machine
end

