-- ==== Sys2Proof/Laws/Frames.lean ====
section
/-! SUPPORT. Words and half words survive their way over the line as bytes (12.5). -/

namespace Sys2Proof.Machine

open Sys2Proof

theorem wordOf_wordBytes (w : Word) :
    wordOf (w.extractLsb' 24 8) (w.extractLsb' 16 8) (w.extractLsb' 8 8) (w.extractLsb' 0 8) = w := by
  unfold wordOf
  ext i hi
  simp only [BitVec.getElem_append, BitVec.getElem_extractLsb']
  have h : ∀ k, k = i → w.getLsbD k = w[i] := fun k hk => by subst hk; simp [BitVec.getLsbD_eq_getElem, hi]
  split
  · exact h _ (by omega)
  · split
    · exact h _ (by omega)
    · split
      · exact h _ (by omega)
      · exact h _ (by omega)

theorem halfOf_halfBytes (w : BitVec 16) : halfOf (w.extractLsb' 8 8) (w.extractLsb' 0 8) = w := by
  unfold halfOf
  ext i hi
  simp only [BitVec.getElem_append, BitVec.getElem_extractLsb']
  have h : ∀ k, k = i → w.getLsbD k = w[i] := fun k hk => by subst hk; simp [BitVec.getLsbD_eq_getElem, hi]
  split
  · exact h _ (by omega)
  · exact h _ (by omega)

theorem length_wordsBytes (ws : List Word) : (wordsBytes ws).length = 4 * ws.length := by
  induction ws with
  | nil => rfl
  | cons w ws ih => simp [wordsBytes, wordBytes, ih]; omega

theorem wordsOf_wordsBytes (ws : List Word) : wordsOf (wordsBytes ws) = ws := by
  induction ws with
  | nil => rfl
  | cons w ws ih => simp [wordsBytes, wordBytes, wordsOf, ih, wordOf_wordBytes]

theorem halvesOf_halfBytes (hs : List (BitVec 16)) : halvesOf (hs.flatMap halfBytes) = hs := by
  induction hs with
  | nil => rfl
  | cons h hs ih => simp [halfBytes, halvesOf, ih, halfOf_halfBytes]

theorem length_flatMap_halfBytes (hs : List (BitVec 16)) : (hs.flatMap halfBytes).length = 2 * hs.length := by
  induction hs with
  | nil => rfl
  | cons h hs ih => rw [List.flatMap_cons, List.length_append, ih, List.length_cons]; simp [halfBytes]; omega

end Sys2Proof.Machine
end

