-- ==== Sys2Proof/Laws/State.lean ====
section
/-! SUPPORT. What each operation leaves as it is, one lemma for each operation, one clause for each field. No later proof
unfolds an operation to see that it leaves a field alone. -/

namespace Sys2Proof.Machine

open Sys2Proof

/-- Two states with equal fields are equal. -/
theorem State.ext_fields (s t : State) (h1 : s.pending = t.pending) (h2 : s.resetLow = t.resetLow)
    (h3 : s.position = t.position) (h4 : s.dev = t.dev) (h5 : s.times = t.times) (h6 : s.start = t.start)
    (h7 : s.rgt = t.rgt) (h8 : s.ppt = t.ppt) (h9 : s.pwq = t.pwq) (h10 : s.mpu = t.mpu) (h11 : s.sgu = t.sgu)
    (h12 : s.cju = t.cju) (h13 : s.ptu = t.ptu) (h14 : s.lkc = t.lkc) (h15 : s.vtu = t.vtu) (h16 : s.rse = t.rse)
    (h17 : s.cmu = t.cmu) : s = t := by
  cases s; cases t; simp_all

@[simp] theorem PerLink.get_put {α : Type} (p : PerLink α) (l m : Link) (a : α) :
    (p.put l a).get m = if l = m then a else p.get m := by
  cases l <;> cases m <;> rfl

@[simp] theorem PerLink.put_get {α : Type} (p : PerLink α) (l : Link) : p.put l (p.get l) = p := by cases l <;> rfl

@[simp] theorem PerInitiator.get_put {α : Type} (p : PerInitiator α) (i j : Initiator) (a : α) :
    (p.put i a).get j = if i = j then a else p.get j := by
  cases i <;> cases j <;> rfl

/-- A fold of steps that each leave a value alone leaves it alone. -/
theorem foldl_keep {α β : Type} (f : State → α → State) (g : State → β) (h : ∀ s a, g (f s a) = g s) (l : List α)
    (s : State) : g (l.foldl f s) = g s := by
  induction l generalizing s with
  | nil => rfl
  | cons a l ih => simp [ih, h]

@[simp] theorem Cmu.retest_keeps (c : Cmu) :
    c.retest.request = c.request ∧ c.retest.header = c.header ∧ c.retest.response = c.response ∧
    c.retest.buffer = c.buffer ∧ c.retest.events = c.events ∧ c.retest.nextSeq = c.nextSeq ∧
    c.retest.dropped = c.dropped ∧ c.retest.mask = c.mask ∧ c.retest.ms = c.ms ∧
    c.retest.alert = alertLevel c.events c.mask := by
  simp [Cmu.retest]

@[simp] theorem Cmu.record_keeps (c : Cmu) (v : BitVec 32) (b : EventBody) :
    (c.record v b).request = c.request ∧ (c.record v b).header = c.header ∧ (c.record v b).response = c.response ∧
    (c.record v b).buffer = c.buffer ∧ (c.record v b).mask = c.mask ∧ (c.record v b).ms = c.ms ∧
    (c.record v b).nextSeq = c.nextSeq + 1 := by
  unfold Cmu.record; split <;> simp

@[simp] theorem recordEvent_keeps (b : EventBody) (s : State) :
    (recordEvent b s).pending = s.pending ∧ (recordEvent b s).resetLow = s.resetLow ∧
    (recordEvent b s).position = s.position ∧ (recordEvent b s).dev = s.dev ∧ (recordEvent b s).times = s.times ∧
    (recordEvent b s).start = s.start ∧ (recordEvent b s).rgt = s.rgt ∧ (recordEvent b s).ppt = s.ppt ∧
    (recordEvent b s).pwq = s.pwq ∧ (recordEvent b s).mpu = s.mpu ∧ (recordEvent b s).sgu = s.sgu ∧
    (recordEvent b s).cju = s.cju ∧ (recordEvent b s).ptu = s.ptu ∧ (recordEvent b s).lkc = s.lkc ∧
    (recordEvent b s).vtu = s.vtu ∧ (recordEvent b s).rse = s.rse ∧ (recordEvent b s).cmu.buffer = s.cmu.buffer ∧
    (recordEvent b s).cmu.header = s.cmu.header ∧ (recordEvent b s).cmu.mask = s.cmu.mask ∧
    (recordEvent b s).cmu.ms = s.cmu.ms ∧ (recordEvent b s).cmu.request = s.cmu.request ∧
    (recordEvent b s).cmu.response = s.cmu.response := by
  simp [recordEvent]

@[simp] theorem recordRefusal_keeps (r : AccessReason) (i : Initiator) (a : Nat) (g : Option Nat) (s : State) :
    (recordRefusal r i a g s).pending = s.pending ∧ (recordRefusal r i a g s).resetLow = s.resetLow ∧
    (recordRefusal r i a g s).position = s.position ∧ (recordRefusal r i a g s).dev = s.dev ∧
    (recordRefusal r i a g s).times = s.times ∧ (recordRefusal r i a g s).start = s.start ∧
    (recordRefusal r i a g s).rgt = s.rgt ∧ (recordRefusal r i a g s).ppt = s.ppt ∧
    (recordRefusal r i a g s).pwq = s.pwq ∧ (recordRefusal r i a g s).mpu = s.mpu ∧
    (recordRefusal r i a g s).sgu = s.sgu ∧ (recordRefusal r i a g s).cju = s.cju ∧
    (recordRefusal r i a g s).ptu = s.ptu ∧ (recordRefusal r i a g s).lkc = s.lkc ∧
    (recordRefusal r i a g s).vtu = s.vtu ∧ (recordRefusal r i a g s).rse = s.rse ∧
    (recordRefusal r i a g s).cmu.buffer = s.cmu.buffer ∧ (recordRefusal r i a g s).cmu.header = s.cmu.header ∧
    (recordRefusal r i a g s).cmu.mask = s.cmu.mask ∧ (recordRefusal r i a g s).cmu.ms = s.cmu.ms ∧
    (recordRefusal r i a g s).cmu.request = s.cmu.request ∧ (recordRefusal r i a g s).cmu.response = s.cmu.response := by
  unfold recordRefusal; (repeat' split) <;> simp

@[simp] theorem dropPermit_keeps (c : PermitCause) (s : State) :
    (dropPermit c s).pending = s.pending ∧ (dropPermit c s).resetLow = s.resetLow ∧
    (dropPermit c s).position = s.position ∧ (dropPermit c s).dev = s.dev ∧ (dropPermit c s).times = s.times ∧
    (dropPermit c s).start = s.start ∧ (dropPermit c s).rgt = s.rgt ∧ (dropPermit c s).ppt = s.ppt ∧
    (dropPermit c s).pwq = s.pwq ∧ (dropPermit c s).mpu = s.mpu ∧ (dropPermit c s).sgu = s.sgu ∧
    (dropPermit c s).cju = s.cju ∧ (dropPermit c s).ptu = s.ptu ∧ (dropPermit c s).lkc = s.lkc ∧
    (dropPermit c s).vtu.agreedBase = s.vtu.agreedBase ∧ (dropPermit c s).vtu.closedSet = s.vtu.closedSet ∧
    (dropPermit c s).vtu.deciding = s.vtu.deciding ∧ (dropPermit c s).vtu.last = s.vtu.last ∧
    (dropPermit c s).vtu.own = s.vtu.own ∧ (dropPermit c s).vtu.table = s.vtu.table ∧
    (dropPermit c s).vtu.timer = s.vtu.timer ∧ (dropPermit c s).rse = s.rse ∧
    (dropPermit c s).cmu.buffer = s.cmu.buffer ∧ (dropPermit c s).cmu.header = s.cmu.header ∧
    (dropPermit c s).cmu.mask = s.cmu.mask ∧ (dropPermit c s).cmu.ms = s.cmu.ms ∧
    (dropPermit c s).cmu.request = s.cmu.request ∧ (dropPermit c s).cmu.response = s.cmu.response := by
  unfold dropPermit; (repeat' split) <;> simp

@[simp] theorem raisePermit_keeps (s : State) :
    (raisePermit s).pending = s.pending ∧ (raisePermit s).resetLow = s.resetLow ∧
    (raisePermit s).position = s.position ∧ (raisePermit s).dev = s.dev ∧ (raisePermit s).times = s.times ∧
    (raisePermit s).start = s.start ∧ (raisePermit s).rgt = s.rgt ∧ (raisePermit s).ppt = s.ppt ∧
    (raisePermit s).pwq = s.pwq ∧ (raisePermit s).mpu = s.mpu ∧ (raisePermit s).sgu = s.sgu ∧
    (raisePermit s).cju = s.cju ∧ (raisePermit s).ptu = s.ptu ∧ (raisePermit s).lkc = s.lkc ∧
    (raisePermit s).vtu.agreedBase = s.vtu.agreedBase ∧ (raisePermit s).vtu.closedSet = s.vtu.closedSet ∧
    (raisePermit s).vtu.deciding = s.vtu.deciding ∧ (raisePermit s).vtu.last = s.vtu.last ∧
    (raisePermit s).vtu.own = s.vtu.own ∧ (raisePermit s).vtu.table = s.vtu.table ∧
    (raisePermit s).vtu.timer = s.vtu.timer ∧ (raisePermit s).rse = s.rse ∧ (raisePermit s).cmu = s.cmu := by
  unfold raisePermit; (repeat' split) <;> simp

@[simp] theorem modifyTx_keeps (l : Link) (f : Transmitter → Transmitter) (s : State) :
    (modifyTx l f s).pending = s.pending ∧ (modifyTx l f s).resetLow = s.resetLow ∧
    (modifyTx l f s).position = s.position ∧ (modifyTx l f s).dev = s.dev ∧ (modifyTx l f s).times = s.times ∧
    (modifyTx l f s).start = s.start ∧ (modifyTx l f s).rgt = s.rgt ∧ (modifyTx l f s).ppt = s.ppt ∧
    (modifyTx l f s).pwq = s.pwq ∧ (modifyTx l f s).mpu = s.mpu ∧ (modifyTx l f s).sgu = s.sgu ∧
    (modifyTx l f s).cju = s.cju ∧ (modifyTx l f s).ptu = s.ptu ∧ (modifyTx l f s).lkc.helloTimer = s.lkc.helloTimer ∧
    (modifyTx l f s).lkc.peers = s.lkc.peers ∧ (modifyTx l f s).vtu = s.vtu ∧ (modifyTx l f s).rse = s.rse ∧
    (modifyTx l f s).cmu = s.cmu := by
  simp [modifyTx]

@[simp] theorem sendCtrl_keeps (f : CtrlFrame) (l : Link) (s : State) :
    (sendCtrl f l s).pending = s.pending ∧ (sendCtrl f l s).resetLow = s.resetLow ∧
    (sendCtrl f l s).position = s.position ∧ (sendCtrl f l s).dev = s.dev ∧ (sendCtrl f l s).times = s.times ∧
    (sendCtrl f l s).start = s.start ∧ (sendCtrl f l s).rgt = s.rgt ∧ (sendCtrl f l s).ppt = s.ppt ∧
    (sendCtrl f l s).pwq = s.pwq ∧ (sendCtrl f l s).mpu = s.mpu ∧ (sendCtrl f l s).sgu = s.sgu ∧
    (sendCtrl f l s).cju = s.cju ∧ (sendCtrl f l s).ptu = s.ptu ∧ (sendCtrl f l s).lkc.helloTimer = s.lkc.helloTimer ∧
    (sendCtrl f l s).lkc.peers = s.lkc.peers ∧ (sendCtrl f l s).vtu = s.vtu ∧ (sendCtrl f l s).rse = s.rse ∧
    (sendCtrl f l s).cmu = s.cmu := by
  unfold sendCtrl; (repeat' split) <;> simp

@[simp] theorem sendBoth_keeps (f : CtrlFrame) (s : State) :
    (sendBoth f s).pending = s.pending ∧ (sendBoth f s).resetLow = s.resetLow ∧ (sendBoth f s).position = s.position ∧
    (sendBoth f s).dev = s.dev ∧ (sendBoth f s).times = s.times ∧ (sendBoth f s).start = s.start ∧
    (sendBoth f s).rgt = s.rgt ∧ (sendBoth f s).ppt = s.ppt ∧ (sendBoth f s).pwq = s.pwq ∧ (sendBoth f s).mpu = s.mpu
    ∧ (sendBoth f s).sgu = s.sgu ∧ (sendBoth f s).cju = s.cju ∧ (sendBoth f s).ptu = s.ptu ∧
    (sendBoth f s).lkc.helloTimer = s.lkc.helloTimer ∧ (sendBoth f s).lkc.peers = s.lkc.peers ∧
    (sendBoth f s).vtu = s.vtu ∧ (sendBoth f s).rse = s.rse ∧ (sendBoth f s).cmu = s.cmu := by
  simp [sendBoth]

@[simp] theorem helloTrigger_keeps (s : State) :
    (helloTrigger s).pending = s.pending ∧ (helloTrigger s).resetLow = s.resetLow ∧
    (helloTrigger s).position = s.position ∧ (helloTrigger s).dev = s.dev ∧ (helloTrigger s).times = s.times ∧
    (helloTrigger s).start = s.start ∧ (helloTrigger s).rgt = s.rgt ∧ (helloTrigger s).ppt = s.ppt ∧
    (helloTrigger s).pwq = s.pwq ∧ (helloTrigger s).mpu = s.mpu ∧ (helloTrigger s).sgu = s.sgu ∧
    (helloTrigger s).cju = s.cju ∧ (helloTrigger s).ptu = s.ptu ∧ (helloTrigger s).lkc.helloTimer = s.lkc.helloTimer ∧
    (helloTrigger s).lkc.peers = s.lkc.peers ∧ (helloTrigger s).vtu = s.vtu ∧ (helloTrigger s).rse = s.rse ∧
    (helloTrigger s).cmu = s.cmu := by
  simp [helloTrigger]

@[simp] theorem setDev_keeps (d : DeviceState) (s : State) :
    (setDev d s).pending = s.pending ∧ (setDev d s).resetLow = s.resetLow ∧ (setDev d s).position = s.position ∧
    (setDev d s).times = s.times ∧ (setDev d s).start = s.start ∧ (setDev d s).rgt = s.rgt ∧ (setDev d s).ppt = s.ppt
    ∧ (setDev d s).pwq = s.pwq ∧ (setDev d s).mpu = s.mpu ∧ (setDev d s).sgu = s.sgu ∧ (setDev d s).cju = s.cju ∧
    (setDev d s).ptu = s.ptu ∧ (setDev d s).lkc.helloTimer = s.lkc.helloTimer ∧ (setDev d s).lkc.peers = s.lkc.peers ∧
    (setDev d s).vtu = s.vtu ∧ (setDev d s).rse = s.rse ∧ (setDev d s).cmu = s.cmu := by
  unfold setDev; (repeat' split) <;> simp

@[simp] theorem setChan_keeps (c : Option ChannelState) (s : State) :
    (setChan c s).pending = s.pending ∧ (setChan c s).resetLow = s.resetLow ∧ (setChan c s).position = s.position ∧
    (setChan c s).dev = s.dev ∧ (setChan c s).times = s.times ∧ (setChan c s).start = s.start ∧
    (setChan c s).rgt = s.rgt ∧ (setChan c s).ppt = s.ppt ∧ (setChan c s).pwq = s.pwq ∧ (setChan c s).mpu = s.mpu ∧
    (setChan c s).sgu = s.sgu ∧ (setChan c s).cju.cycle = s.cju.cycle ∧ (setChan c s).cju.journal = s.cju.journal ∧
    (setChan c s).cju.repair = s.cju.repair ∧ (setChan c s).cju.repairOverflow = s.cju.repairOverflow ∧
    (setChan c s).cju.resend = s.cju.resend ∧ (setChan c s).cju.timer = s.cju.timer ∧
    (setChan c s).cju.unrevertible = s.cju.unrevertible ∧ (setChan c s).cju.wCur = s.cju.wCur ∧
    (setChan c s).cju.wPrev = s.cju.wPrev ∧ (setChan c s).cju.wPrevValid = s.cju.wPrevValid ∧
    (setChan c s).ptu = s.ptu ∧ (setChan c s).lkc.helloTimer = s.lkc.helloTimer ∧
    (setChan c s).lkc.peers = s.lkc.peers ∧ (setChan c s).vtu.agreedBase = s.vtu.agreedBase ∧
    (setChan c s).vtu.closedSet = s.vtu.closedSet ∧ (setChan c s).vtu.deciding = s.vtu.deciding ∧
    (setChan c s).vtu.last = s.vtu.last ∧ (setChan c s).vtu.own = s.vtu.own ∧ (setChan c s).vtu.table = s.vtu.table ∧
    (setChan c s).vtu.timer = s.vtu.timer ∧ (setChan c s).rse = s.rse ∧ (setChan c s).cmu.buffer = s.cmu.buffer ∧
    (setChan c s).cmu.header = s.cmu.header ∧ (setChan c s).cmu.mask = s.cmu.mask ∧ (setChan c s).cmu.ms = s.cmu.ms ∧
    (setChan c s).cmu.request = s.cmu.request ∧ (setChan c s).cmu.response = s.cmu.response := by
  unfold setChan; (repeat' split) <;> simp

@[simp] theorem setAgreed_keeps (b : Bool) (s : State) :
    (setAgreed b s).pending = s.pending ∧ (setAgreed b s).resetLow = s.resetLow ∧
    (setAgreed b s).position = s.position ∧ (setAgreed b s).dev = s.dev ∧ (setAgreed b s).times = s.times ∧
    (setAgreed b s).start = s.start ∧ (setAgreed b s).rgt = s.rgt ∧ (setAgreed b s).ppt = s.ppt ∧
    (setAgreed b s).pwq = s.pwq ∧ (setAgreed b s).mpu = s.mpu ∧ (setAgreed b s).sgu = s.sgu ∧
    (setAgreed b s).cju = s.cju ∧ (setAgreed b s).ptu = s.ptu ∧ (setAgreed b s).lkc.helloTimer = s.lkc.helloTimer ∧
    (setAgreed b s).lkc.peers = s.lkc.peers ∧ (setAgreed b s).vtu.closedSet = s.vtu.closedSet ∧
    (setAgreed b s).vtu.deciding = s.vtu.deciding ∧ (setAgreed b s).vtu.last = s.vtu.last ∧
    (setAgreed b s).vtu.level = s.vtu.level ∧ (setAgreed b s).vtu.own = s.vtu.own ∧
    (setAgreed b s).vtu.permitted = s.vtu.permitted ∧ (setAgreed b s).vtu.table = s.vtu.table ∧
    (setAgreed b s).vtu.timer = s.vtu.timer ∧ (setAgreed b s).rse = s.rse ∧ (setAgreed b s).cmu = s.cmu := by
  unfold setAgreed; (repeat' split) <;> simp

@[simp] theorem emptyJournal_keeps (s : State) :
    (emptyJournal s).pending = s.pending ∧ (emptyJournal s).resetLow = s.resetLow ∧
    (emptyJournal s).position = s.position ∧ (emptyJournal s).dev = s.dev ∧ (emptyJournal s).times = s.times ∧
    (emptyJournal s).start = s.start ∧ (emptyJournal s).rgt = s.rgt ∧ (emptyJournal s).ppt = s.ppt ∧
    (emptyJournal s).pwq = s.pwq ∧ (emptyJournal s).mpu = s.mpu ∧ (emptyJournal s).sgu = s.sgu ∧
    (emptyJournal s).cju.chan = s.cju.chan ∧ (emptyJournal s).cju.cycle = s.cju.cycle ∧
    (emptyJournal s).cju.repair = s.cju.repair ∧ (emptyJournal s).cju.repairOverflow = s.cju.repairOverflow ∧
    (emptyJournal s).cju.resend = s.cju.resend ∧ (emptyJournal s).cju.timer = s.cju.timer ∧
    (emptyJournal s).cju.wPrev = s.cju.wPrev ∧ (emptyJournal s).cju.wPrevValid = s.cju.wPrevValid ∧
    (emptyJournal s).ptu = s.ptu ∧ (emptyJournal s).lkc = s.lkc ∧ (emptyJournal s).vtu = s.vtu ∧
    (emptyJournal s).rse = s.rse ∧ (emptyJournal s).cmu = s.cmu := by
  simp [emptyJournal]

@[simp] theorem enterReady_keeps (s : State) :
    (enterReady s).pending = s.pending ∧ (enterReady s).resetLow = s.resetLow ∧ (enterReady s).position = s.position ∧
    (enterReady s).dev = s.dev ∧ (enterReady s).times = s.times ∧ (enterReady s).start = s.start ∧
    (enterReady s).rgt = s.rgt ∧ (enterReady s).ppt = s.ppt ∧ (enterReady s).pwq = s.pwq ∧ (enterReady s).mpu = s.mpu
    ∧ (enterReady s).sgu = s.sgu ∧ (enterReady s).cju.cycle = s.cju.cycle ∧ (enterReady s).cju.repair = s.cju.repair ∧
    (enterReady s).cju.repairOverflow = s.cju.repairOverflow ∧ (enterReady s).cju.resend = s.cju.resend ∧
    (enterReady s).cju.timer = s.cju.timer ∧ (enterReady s).cju.wPrev = s.cju.wPrev ∧
    (enterReady s).cju.wPrevValid = s.cju.wPrevValid ∧ (enterReady s).ptu = s.ptu ∧
    (enterReady s).lkc.helloTimer = s.lkc.helloTimer ∧ (enterReady s).lkc.peers = s.lkc.peers ∧
    (enterReady s).vtu.agreedBase = s.vtu.agreedBase ∧ (enterReady s).vtu.closedSet = s.vtu.closedSet ∧
    (enterReady s).vtu.deciding = s.vtu.deciding ∧ (enterReady s).vtu.last = s.vtu.last ∧
    (enterReady s).vtu.own = s.vtu.own ∧ (enterReady s).vtu.table = s.vtu.table ∧
    (enterReady s).vtu.timer = s.vtu.timer ∧ (enterReady s).rse = s.rse ∧ (enterReady s).cmu.buffer = s.cmu.buffer ∧
    (enterReady s).cmu.header = s.cmu.header ∧ (enterReady s).cmu.mask = s.cmu.mask ∧ (enterReady s).cmu.ms = s.cmu.ms
    ∧ (enterReady s).cmu.request = s.cmu.request ∧ (enterReady s).cmu.response = s.cmu.response := by
  simp [enterReady]

@[simp] theorem modifyRegion_keeps (i : Nat) (f : Region → Region) (s : State) :
    (modifyRegion i f s).pending = s.pending ∧ (modifyRegion i f s).resetLow = s.resetLow ∧
    (modifyRegion i f s).position = s.position ∧ (modifyRegion i f s).dev = s.dev ∧
    (modifyRegion i f s).times = s.times ∧ (modifyRegion i f s).start = s.start ∧
    (modifyRegion i f s).rgt.fingerprint = s.rgt.fingerprint ∧ (modifyRegion i f s).ppt = s.ppt ∧
    (modifyRegion i f s).pwq = s.pwq ∧ (modifyRegion i f s).mpu = s.mpu ∧ (modifyRegion i f s).sgu = s.sgu ∧
    (modifyRegion i f s).cju = s.cju ∧ (modifyRegion i f s).ptu = s.ptu ∧ (modifyRegion i f s).lkc = s.lkc ∧
    (modifyRegion i f s).vtu = s.vtu ∧ (modifyRegion i f s).rse = s.rse ∧ (modifyRegion i f s).cmu = s.cmu := by
  simp [modifyRegion]

@[simp] theorem setSig_keeps (k v : Nat) (s : State) :
    (setSig k v s).pending = s.pending ∧ (setSig k v s).resetLow = s.resetLow ∧ (setSig k v s).position = s.position ∧
    (setSig k v s).dev = s.dev ∧ (setSig k v s).times = s.times ∧ (setSig k v s).start = s.start ∧
    (setSig k v s).rgt = s.rgt ∧ (setSig k v s).ppt = s.ppt ∧ (setSig k v s).pwq = s.pwq ∧ (setSig k v s).mpu = s.mpu
    ∧ (setSig k v s).sgu.pass = s.sgu.pass ∧ (setSig k v s).cju = s.cju ∧ (setSig k v s).ptu = s.ptu ∧
    (setSig k v s).lkc = s.lkc ∧ (setSig k v s).vtu = s.vtu ∧ (setSig k v s).rse = s.rse ∧ (setSig k v s).cmu = s.cmu := by
  simp [setSig]

@[simp] theorem accountWrite_keeps (a : Nat) (o n : Word) (s : State) :
    (accountWrite a o n s).pending = s.pending ∧ (accountWrite a o n s).resetLow = s.resetLow ∧
    (accountWrite a o n s).position = s.position ∧ (accountWrite a o n s).dev = s.dev ∧
    (accountWrite a o n s).times = s.times ∧ (accountWrite a o n s).start = s.start ∧
    (accountWrite a o n s).rgt = s.rgt ∧ (accountWrite a o n s).ppt = s.ppt ∧ (accountWrite a o n s).pwq = s.pwq ∧
    (accountWrite a o n s).mpu = s.mpu ∧ (accountWrite a o n s).sgu.pass = s.sgu.pass ∧
    (accountWrite a o n s).cju = s.cju ∧ (accountWrite a o n s).ptu.comparable = s.ptu.comparable ∧
    (accountWrite a o n s).ptu.enable = s.ptu.enable ∧ (accountWrite a o n s).ptu.interval = s.ptu.interval ∧
    (accountWrite a o n s).ptu.position = s.ptu.position ∧ (accountWrite a o n s).ptu.request = s.ptu.request ∧
    (accountWrite a o n s).ptu.timer = s.ptu.timer ∧ (accountWrite a o n s).ptu.turned = s.ptu.turned ∧
    (accountWrite a o n s).lkc = s.lkc ∧ (accountWrite a o n s).vtu = s.vtu ∧ (accountWrite a o n s).rse = s.rse ∧
    (accountWrite a o n s).cmu = s.cmu := by
  unfold accountWrite; (repeat' split) <;> simp

@[simp] theorem storeWord_keeps (a : Nat) (v : Word) (s : State) :
    (storeWord a v s).pending = s.pending ∧ (storeWord a v s).resetLow = s.resetLow ∧
    (storeWord a v s).position = s.position ∧ (storeWord a v s).dev = s.dev ∧ (storeWord a v s).times = s.times ∧
    (storeWord a v s).start = s.start ∧ (storeWord a v s).rgt = s.rgt ∧ (storeWord a v s).ppt = s.ppt ∧
    (storeWord a v s).pwq = s.pwq ∧ (storeWord a v s).mpu.initOp = s.mpu.initOp ∧
    (storeWord a v s).mpu.pointer = s.mpu.pointer ∧ (storeWord a v s).mpu.slots = s.mpu.slots ∧
    (storeWord a v s).mpu.writeBack = s.mpu.writeBack ∧ (storeWord a v s).sgu = s.sgu ∧ (storeWord a v s).cju = s.cju
    ∧ (storeWord a v s).ptu = s.ptu ∧ (storeWord a v s).lkc = s.lkc ∧ (storeWord a v s).vtu = s.vtu ∧
    (storeWord a v s).rse = s.rse ∧ (storeWord a v s).cmu = s.cmu := by
  simp [storeWord]

@[simp] theorem writeWord_keeps (a : Nat) (o n : Word) (s : State) :
    (writeWord a o n s).pending = s.pending ∧ (writeWord a o n s).resetLow = s.resetLow ∧
    (writeWord a o n s).position = s.position ∧ (writeWord a o n s).dev = s.dev ∧ (writeWord a o n s).times = s.times
    ∧ (writeWord a o n s).start = s.start ∧ (writeWord a o n s).rgt = s.rgt ∧ (writeWord a o n s).ppt = s.ppt ∧
    (writeWord a o n s).pwq = s.pwq ∧ (writeWord a o n s).mpu.initOp = s.mpu.initOp ∧
    (writeWord a o n s).mpu.pointer = s.mpu.pointer ∧ (writeWord a o n s).mpu.slots = s.mpu.slots ∧
    (writeWord a o n s).mpu.writeBack = s.mpu.writeBack ∧ (writeWord a o n s).sgu.pass = s.sgu.pass ∧
    (writeWord a o n s).cju = s.cju ∧ (writeWord a o n s).ptu.comparable = s.ptu.comparable ∧
    (writeWord a o n s).ptu.enable = s.ptu.enable ∧ (writeWord a o n s).ptu.interval = s.ptu.interval ∧
    (writeWord a o n s).ptu.position = s.ptu.position ∧ (writeWord a o n s).ptu.request = s.ptu.request ∧
    (writeWord a o n s).ptu.timer = s.ptu.timer ∧ (writeWord a o n s).ptu.turned = s.ptu.turned ∧
    (writeWord a o n s).lkc = s.lkc ∧ (writeWord a o n s).vtu = s.vtu ∧ (writeWord a o n s).rse = s.rse ∧
    (writeWord a o n s).cmu = s.cmu := by
  simp [writeWord]

@[simp] theorem countCorrected_keeps (i : Nat) (s : State) :
    (countCorrected i s).pending = s.pending ∧ (countCorrected i s).resetLow = s.resetLow ∧
    (countCorrected i s).position = s.position ∧ (countCorrected i s).dev = s.dev ∧
    (countCorrected i s).times = s.times ∧ (countCorrected i s).start = s.start ∧
    (countCorrected i s).rgt.fingerprint = s.rgt.fingerprint ∧ (countCorrected i s).ppt = s.ppt ∧
    (countCorrected i s).pwq = s.pwq ∧ (countCorrected i s).mpu = s.mpu ∧ (countCorrected i s).sgu = s.sgu ∧
    (countCorrected i s).cju = s.cju ∧ (countCorrected i s).ptu = s.ptu ∧ (countCorrected i s).lkc = s.lkc ∧
    (countCorrected i s).vtu = s.vtu ∧ (countCorrected i s).rse = s.rse ∧ (countCorrected i s).cmu = s.cmu := by
  simp [countCorrected]

@[simp] theorem countUncorrectable_keeps (i : Nat) (s : State) :
    (countUncorrectable i s).pending = s.pending ∧ (countUncorrectable i s).resetLow = s.resetLow ∧
    (countUncorrectable i s).position = s.position ∧ (countUncorrectable i s).dev = s.dev ∧
    (countUncorrectable i s).times = s.times ∧ (countUncorrectable i s).start = s.start ∧
    (countUncorrectable i s).rgt.fingerprint = s.rgt.fingerprint ∧ (countUncorrectable i s).ppt = s.ppt ∧
    (countUncorrectable i s).pwq = s.pwq ∧ (countUncorrectable i s).mpu = s.mpu ∧ (countUncorrectable i s).sgu = s.sgu
    ∧ (countUncorrectable i s).cju = s.cju ∧ (countUncorrectable i s).ptu = s.ptu ∧
    (countUncorrectable i s).lkc = s.lkc ∧ (countUncorrectable i s).vtu = s.vtu ∧ (countUncorrectable i s).rse = s.rse
    ∧ (countUncorrectable i s).cmu = s.cmu := by
  simp [countUncorrectable]

@[simp] theorem markSuspect_keeps (i : Nat) (b : Bool) (s : State) :
    (markSuspect i b s).pending = s.pending ∧ (markSuspect i b s).resetLow = s.resetLow ∧
    (markSuspect i b s).position = s.position ∧ (markSuspect i b s).dev = s.dev ∧ (markSuspect i b s).times = s.times
    ∧ (markSuspect i b s).start = s.start ∧ (markSuspect i b s).rgt.fingerprint = s.rgt.fingerprint ∧
    (markSuspect i b s).ppt = s.ppt ∧ (markSuspect i b s).pwq = s.pwq ∧ (markSuspect i b s).mpu = s.mpu ∧
    (markSuspect i b s).sgu = s.sgu ∧ (markSuspect i b s).cju = s.cju ∧ (markSuspect i b s).ptu.enable = s.ptu.enable
    ∧ (markSuspect i b s).ptu.interval = s.ptu.interval ∧ (markSuspect i b s).ptu.position = s.ptu.position ∧
    (markSuspect i b s).ptu.acc = s.ptu.acc ∧ (markSuspect i b s).ptu.timer = s.ptu.timer ∧
    (markSuspect i b s).ptu.comparable = s.ptu.comparable ∧ (markSuspect i b s).ptu.request = s.ptu.request ∧
    (markSuspect i b s).lkc = s.lkc ∧ (markSuspect i b s).vtu = s.vtu ∧
    (markSuspect i b s).rse.pull.attempts = s.rse.pull.attempts ∧
    (markSuspect i b s).rse.pull.buffers = s.rse.pull.buffers ∧
    (markSuspect i b s).rse.pull.ending = s.rse.pull.ending ∧ (markSuspect i b s).rse.pull.kind = s.rse.pull.kind ∧
    (markSuspect i b s).rse.pull.phase = s.rse.pull.phase ∧
    (markSuspect i b s).rse.pull.received = s.rse.pull.received ∧
    (markSuspect i b s).rse.pull.regionSet = s.rse.pull.regionSet ∧
    (markSuspect i b s).rse.pull.server = s.rse.pull.server ∧ (markSuspect i b s).rse.pull.target = s.rse.pull.target
    ∧ (markSuspect i b s).rse.pull.timer = s.rse.pull.timer ∧ (markSuspect i b s).rse.service = s.rse.service ∧
    (markSuspect i b s).cmu = s.cmu := by
  unfold markSuspect; (repeat' split) <;> simp

@[simp] theorem suspectPermit_keeps (i : Nat) (s : State) :
    (suspectPermit i s).pending = s.pending ∧ (suspectPermit i s).resetLow = s.resetLow ∧
    (suspectPermit i s).position = s.position ∧ (suspectPermit i s).dev = s.dev ∧ (suspectPermit i s).times = s.times
    ∧ (suspectPermit i s).start = s.start ∧ (suspectPermit i s).rgt = s.rgt ∧ (suspectPermit i s).ppt = s.ppt ∧
    (suspectPermit i s).pwq = s.pwq ∧ (suspectPermit i s).mpu = s.mpu ∧ (suspectPermit i s).sgu = s.sgu ∧
    (suspectPermit i s).cju = s.cju ∧ (suspectPermit i s).ptu = s.ptu ∧ (suspectPermit i s).lkc = s.lkc ∧
    (suspectPermit i s).vtu.agreedBase = s.vtu.agreedBase ∧ (suspectPermit i s).vtu.closedSet = s.vtu.closedSet ∧
    (suspectPermit i s).vtu.deciding = s.vtu.deciding ∧ (suspectPermit i s).vtu.last = s.vtu.last ∧
    (suspectPermit i s).vtu.own = s.vtu.own ∧ (suspectPermit i s).vtu.table = s.vtu.table ∧
    (suspectPermit i s).vtu.timer = s.vtu.timer ∧ (suspectPermit i s).rse = s.rse ∧
    (suspectPermit i s).cmu.buffer = s.cmu.buffer ∧ (suspectPermit i s).cmu.header = s.cmu.header ∧
    (suspectPermit i s).cmu.mask = s.cmu.mask ∧ (suspectPermit i s).cmu.ms = s.cmu.ms ∧
    (suspectPermit i s).cmu.request = s.cmu.request ∧ (suspectPermit i s).cmu.response = s.cmu.response := by
  unfold suspectPermit; (repeat' split) <;> simp

@[simp] theorem offerRepair_keeps (i a : Nat) (s : State) :
    (offerRepair i a s).pending = s.pending ∧ (offerRepair i a s).resetLow = s.resetLow ∧
    (offerRepair i a s).position = s.position ∧ (offerRepair i a s).dev = s.dev ∧ (offerRepair i a s).times = s.times
    ∧ (offerRepair i a s).start = s.start ∧ (offerRepair i a s).rgt.fingerprint = s.rgt.fingerprint ∧
    (offerRepair i a s).ppt = s.ppt ∧ (offerRepair i a s).pwq = s.pwq ∧ (offerRepair i a s).mpu = s.mpu ∧
    (offerRepair i a s).sgu = s.sgu ∧ (offerRepair i a s).cju.chan = s.cju.chan ∧
    (offerRepair i a s).cju.cycle = s.cju.cycle ∧ (offerRepair i a s).cju.journal = s.cju.journal ∧
    (offerRepair i a s).cju.resend = s.cju.resend ∧ (offerRepair i a s).cju.timer = s.cju.timer ∧
    (offerRepair i a s).cju.unrevertible = s.cju.unrevertible ∧ (offerRepair i a s).cju.wCur = s.cju.wCur ∧
    (offerRepair i a s).cju.wPrev = s.cju.wPrev ∧ (offerRepair i a s).cju.wPrevValid = s.cju.wPrevValid ∧
    (offerRepair i a s).ptu.enable = s.ptu.enable ∧ (offerRepair i a s).ptu.interval = s.ptu.interval ∧
    (offerRepair i a s).ptu.position = s.ptu.position ∧ (offerRepair i a s).ptu.acc = s.ptu.acc ∧
    (offerRepair i a s).ptu.timer = s.ptu.timer ∧ (offerRepair i a s).ptu.comparable = s.ptu.comparable ∧
    (offerRepair i a s).ptu.request = s.ptu.request ∧ (offerRepair i a s).lkc = s.lkc ∧
    (offerRepair i a s).vtu.agreedBase = s.vtu.agreedBase ∧ (offerRepair i a s).vtu.closedSet = s.vtu.closedSet ∧
    (offerRepair i a s).vtu.deciding = s.vtu.deciding ∧ (offerRepair i a s).vtu.last = s.vtu.last ∧
    (offerRepair i a s).vtu.own = s.vtu.own ∧ (offerRepair i a s).vtu.table = s.vtu.table ∧
    (offerRepair i a s).vtu.timer = s.vtu.timer ∧ (offerRepair i a s).rse.pull.attempts = s.rse.pull.attempts ∧
    (offerRepair i a s).rse.pull.buffers = s.rse.pull.buffers ∧
    (offerRepair i a s).rse.pull.ending = s.rse.pull.ending ∧ (offerRepair i a s).rse.pull.kind = s.rse.pull.kind ∧
    (offerRepair i a s).rse.pull.phase = s.rse.pull.phase ∧
    (offerRepair i a s).rse.pull.received = s.rse.pull.received ∧
    (offerRepair i a s).rse.pull.regionSet = s.rse.pull.regionSet ∧
    (offerRepair i a s).rse.pull.server = s.rse.pull.server ∧ (offerRepair i a s).rse.pull.target = s.rse.pull.target
    ∧ (offerRepair i a s).rse.pull.timer = s.rse.pull.timer ∧ (offerRepair i a s).rse.service = s.rse.service ∧
    (offerRepair i a s).cmu.buffer = s.cmu.buffer ∧ (offerRepair i a s).cmu.header = s.cmu.header ∧
    (offerRepair i a s).cmu.mask = s.cmu.mask ∧ (offerRepair i a s).cmu.ms = s.cmu.ms ∧
    (offerRepair i a s).cmu.request = s.cmu.request ∧ (offerRepair i a s).cmu.response = s.cmu.response := by
  unfold offerRepair; (repeat' split) <;> simp

@[simp] theorem damaged_keeps (i : Nat) (k : RegionKind) (a : Nat) (s : State) :
    (damaged i k a s).pending = s.pending ∧ (damaged i k a s).resetLow = s.resetLow ∧
    (damaged i k a s).position = s.position ∧ (damaged i k a s).dev = s.dev ∧ (damaged i k a s).times = s.times ∧
    (damaged i k a s).start = s.start ∧ (damaged i k a s).rgt.fingerprint = s.rgt.fingerprint ∧
    (damaged i k a s).ppt = s.ppt ∧ (damaged i k a s).pwq = s.pwq ∧ (damaged i k a s).mpu = s.mpu ∧
    (damaged i k a s).sgu = s.sgu ∧ (damaged i k a s).cju.chan = s.cju.chan ∧
    (damaged i k a s).cju.cycle = s.cju.cycle ∧ (damaged i k a s).cju.journal = s.cju.journal ∧
    (damaged i k a s).cju.resend = s.cju.resend ∧ (damaged i k a s).cju.timer = s.cju.timer ∧
    (damaged i k a s).cju.unrevertible = s.cju.unrevertible ∧ (damaged i k a s).cju.wCur = s.cju.wCur ∧
    (damaged i k a s).cju.wPrev = s.cju.wPrev ∧ (damaged i k a s).cju.wPrevValid = s.cju.wPrevValid ∧
    (damaged i k a s).ptu.enable = s.ptu.enable ∧ (damaged i k a s).ptu.interval = s.ptu.interval ∧
    (damaged i k a s).ptu.position = s.ptu.position ∧ (damaged i k a s).ptu.acc = s.ptu.acc ∧
    (damaged i k a s).ptu.timer = s.ptu.timer ∧ (damaged i k a s).ptu.comparable = s.ptu.comparable ∧
    (damaged i k a s).ptu.request = s.ptu.request ∧ (damaged i k a s).lkc = s.lkc ∧
    (damaged i k a s).vtu.agreedBase = s.vtu.agreedBase ∧ (damaged i k a s).vtu.closedSet = s.vtu.closedSet ∧
    (damaged i k a s).vtu.deciding = s.vtu.deciding ∧ (damaged i k a s).vtu.last = s.vtu.last ∧
    (damaged i k a s).vtu.own = s.vtu.own ∧ (damaged i k a s).vtu.table = s.vtu.table ∧
    (damaged i k a s).vtu.timer = s.vtu.timer ∧ (damaged i k a s).rse.pull.attempts = s.rse.pull.attempts ∧
    (damaged i k a s).rse.pull.buffers = s.rse.pull.buffers ∧ (damaged i k a s).rse.pull.ending = s.rse.pull.ending ∧
    (damaged i k a s).rse.pull.kind = s.rse.pull.kind ∧ (damaged i k a s).rse.pull.phase = s.rse.pull.phase ∧
    (damaged i k a s).rse.pull.received = s.rse.pull.received ∧
    (damaged i k a s).rse.pull.regionSet = s.rse.pull.regionSet ∧
    (damaged i k a s).rse.pull.server = s.rse.pull.server ∧ (damaged i k a s).rse.pull.target = s.rse.pull.target ∧
    (damaged i k a s).rse.pull.timer = s.rse.pull.timer ∧ (damaged i k a s).rse.service = s.rse.service ∧
    (damaged i k a s).cmu.buffer = s.cmu.buffer ∧ (damaged i k a s).cmu.header = s.cmu.header ∧
    (damaged i k a s).cmu.mask = s.cmu.mask ∧ (damaged i k a s).cmu.ms = s.cmu.ms ∧
    (damaged i k a s).cmu.request = s.cmu.request ∧ (damaged i k a s).cmu.response = s.cmu.response := by
  unfold damaged; (repeat' split) <;> simp

@[simp] theorem findUncorrectable_keeps (i : Option Initiator) (a : Nat) (s : State) :
    (findUncorrectable i a s).pending = s.pending ∧ (findUncorrectable i a s).resetLow = s.resetLow ∧
    (findUncorrectable i a s).position = s.position ∧ (findUncorrectable i a s).dev = s.dev ∧
    (findUncorrectable i a s).times = s.times ∧ (findUncorrectable i a s).start = s.start ∧
    (findUncorrectable i a s).rgt.fingerprint = s.rgt.fingerprint ∧ (findUncorrectable i a s).ppt = s.ppt ∧
    (findUncorrectable i a s).pwq = s.pwq ∧ (findUncorrectable i a s).mpu = s.mpu ∧
    (findUncorrectable i a s).sgu = s.sgu ∧ (findUncorrectable i a s).cju.chan = s.cju.chan ∧
    (findUncorrectable i a s).cju.cycle = s.cju.cycle ∧ (findUncorrectable i a s).cju.journal = s.cju.journal ∧
    (findUncorrectable i a s).cju.resend = s.cju.resend ∧ (findUncorrectable i a s).cju.timer = s.cju.timer ∧
    (findUncorrectable i a s).cju.unrevertible = s.cju.unrevertible ∧ (findUncorrectable i a s).cju.wCur = s.cju.wCur
    ∧ (findUncorrectable i a s).cju.wPrev = s.cju.wPrev ∧ (findUncorrectable i a s).cju.wPrevValid = s.cju.wPrevValid
    ∧ (findUncorrectable i a s).ptu.enable = s.ptu.enable ∧ (findUncorrectable i a s).ptu.interval = s.ptu.interval ∧
    (findUncorrectable i a s).ptu.position = s.ptu.position ∧ (findUncorrectable i a s).ptu.acc = s.ptu.acc ∧
    (findUncorrectable i a s).ptu.timer = s.ptu.timer ∧ (findUncorrectable i a s).ptu.comparable = s.ptu.comparable ∧
    (findUncorrectable i a s).ptu.request = s.ptu.request ∧ (findUncorrectable i a s).lkc = s.lkc ∧
    (findUncorrectable i a s).vtu.agreedBase = s.vtu.agreedBase ∧
    (findUncorrectable i a s).vtu.closedSet = s.vtu.closedSet ∧
    (findUncorrectable i a s).vtu.deciding = s.vtu.deciding ∧ (findUncorrectable i a s).vtu.last = s.vtu.last ∧
    (findUncorrectable i a s).vtu.own = s.vtu.own ∧ (findUncorrectable i a s).vtu.table = s.vtu.table ∧
    (findUncorrectable i a s).vtu.timer = s.vtu.timer ∧
    (findUncorrectable i a s).rse.pull.attempts = s.rse.pull.attempts ∧
    (findUncorrectable i a s).rse.pull.buffers = s.rse.pull.buffers ∧
    (findUncorrectable i a s).rse.pull.ending = s.rse.pull.ending ∧
    (findUncorrectable i a s).rse.pull.kind = s.rse.pull.kind ∧
    (findUncorrectable i a s).rse.pull.phase = s.rse.pull.phase ∧
    (findUncorrectable i a s).rse.pull.received = s.rse.pull.received ∧
    (findUncorrectable i a s).rse.pull.regionSet = s.rse.pull.regionSet ∧
    (findUncorrectable i a s).rse.pull.server = s.rse.pull.server ∧
    (findUncorrectable i a s).rse.pull.target = s.rse.pull.target ∧
    (findUncorrectable i a s).rse.pull.timer = s.rse.pull.timer ∧
    (findUncorrectable i a s).rse.service = s.rse.service ∧ (findUncorrectable i a s).cmu.buffer = s.cmu.buffer ∧
    (findUncorrectable i a s).cmu.header = s.cmu.header ∧ (findUncorrectable i a s).cmu.mask = s.cmu.mask ∧
    (findUncorrectable i a s).cmu.ms = s.cmu.ms ∧ (findUncorrectable i a s).cmu.request = s.cmu.request ∧
    (findUncorrectable i a s).cmu.response = s.cmu.response := by
  unfold findUncorrectable; (repeat' split) <;> simp

@[simp] theorem findInPass_keeps (a : Nat) (s : State) :
    (findInPass a s).pending = s.pending ∧ (findInPass a s).resetLow = s.resetLow ∧
    (findInPass a s).position = s.position ∧ (findInPass a s).dev = s.dev ∧ (findInPass a s).times = s.times ∧
    (findInPass a s).start = s.start ∧ (findInPass a s).rgt.fingerprint = s.rgt.fingerprint ∧
    (findInPass a s).ppt = s.ppt ∧ (findInPass a s).pwq = s.pwq ∧ (findInPass a s).mpu = s.mpu ∧
    (findInPass a s).sgu = s.sgu ∧ (findInPass a s).cju = s.cju ∧ (findInPass a s).ptu.enable = s.ptu.enable ∧
    (findInPass a s).ptu.interval = s.ptu.interval ∧ (findInPass a s).ptu.position = s.ptu.position ∧
    (findInPass a s).ptu.acc = s.ptu.acc ∧ (findInPass a s).ptu.timer = s.ptu.timer ∧
    (findInPass a s).ptu.comparable = s.ptu.comparable ∧ (findInPass a s).ptu.request = s.ptu.request ∧
    (findInPass a s).lkc = s.lkc ∧ (findInPass a s).vtu.agreedBase = s.vtu.agreedBase ∧
    (findInPass a s).vtu.closedSet = s.vtu.closedSet ∧ (findInPass a s).vtu.deciding = s.vtu.deciding ∧
    (findInPass a s).vtu.last = s.vtu.last ∧ (findInPass a s).vtu.own = s.vtu.own ∧
    (findInPass a s).vtu.table = s.vtu.table ∧ (findInPass a s).vtu.timer = s.vtu.timer ∧
    (findInPass a s).rse.pull.attempts = s.rse.pull.attempts ∧ (findInPass a s).rse.pull.buffers = s.rse.pull.buffers
    ∧ (findInPass a s).rse.pull.ending = s.rse.pull.ending ∧ (findInPass a s).rse.pull.kind = s.rse.pull.kind ∧
    (findInPass a s).rse.pull.phase = s.rse.pull.phase ∧ (findInPass a s).rse.pull.received = s.rse.pull.received ∧
    (findInPass a s).rse.pull.regionSet = s.rse.pull.regionSet ∧ (findInPass a s).rse.pull.server = s.rse.pull.server
    ∧ (findInPass a s).rse.pull.target = s.rse.pull.target ∧ (findInPass a s).rse.pull.timer = s.rse.pull.timer ∧
    (findInPass a s).rse.service = s.rse.service ∧ (findInPass a s).cmu.buffer = s.cmu.buffer ∧
    (findInPass a s).cmu.header = s.cmu.header ∧ (findInPass a s).cmu.mask = s.cmu.mask ∧
    (findInPass a s).cmu.ms = s.cmu.ms ∧ (findInPass a s).cmu.request = s.cmu.request ∧
    (findInPass a s).cmu.response = s.cmu.response := by
  unfold findInPass; (repeat' split) <;> simp

@[simp] theorem findOverwritten_keeps (a : Nat) (s : State) :
    (findOverwritten a s).pending = s.pending ∧ (findOverwritten a s).resetLow = s.resetLow ∧
    (findOverwritten a s).position = s.position ∧ (findOverwritten a s).dev = s.dev ∧
    (findOverwritten a s).times = s.times ∧ (findOverwritten a s).start = s.start ∧
    (findOverwritten a s).rgt.fingerprint = s.rgt.fingerprint ∧ (findOverwritten a s).ppt = s.ppt ∧
    (findOverwritten a s).pwq = s.pwq ∧ (findOverwritten a s).mpu = s.mpu ∧ (findOverwritten a s).sgu = s.sgu ∧
    (findOverwritten a s).cju = s.cju ∧ (findOverwritten a s).ptu.enable = s.ptu.enable ∧
    (findOverwritten a s).ptu.interval = s.ptu.interval ∧ (findOverwritten a s).ptu.position = s.ptu.position ∧
    (findOverwritten a s).ptu.acc = s.ptu.acc ∧ (findOverwritten a s).ptu.timer = s.ptu.timer ∧
    (findOverwritten a s).ptu.comparable = s.ptu.comparable ∧ (findOverwritten a s).ptu.request = s.ptu.request ∧
    (findOverwritten a s).lkc = s.lkc ∧ (findOverwritten a s).vtu.agreedBase = s.vtu.agreedBase ∧
    (findOverwritten a s).vtu.closedSet = s.vtu.closedSet ∧ (findOverwritten a s).vtu.deciding = s.vtu.deciding ∧
    (findOverwritten a s).vtu.last = s.vtu.last ∧ (findOverwritten a s).vtu.own = s.vtu.own ∧
    (findOverwritten a s).vtu.table = s.vtu.table ∧ (findOverwritten a s).vtu.timer = s.vtu.timer ∧
    (findOverwritten a s).rse.pull.attempts = s.rse.pull.attempts ∧
    (findOverwritten a s).rse.pull.buffers = s.rse.pull.buffers ∧
    (findOverwritten a s).rse.pull.ending = s.rse.pull.ending ∧ (findOverwritten a s).rse.pull.kind = s.rse.pull.kind
    ∧ (findOverwritten a s).rse.pull.phase = s.rse.pull.phase ∧
    (findOverwritten a s).rse.pull.received = s.rse.pull.received ∧
    (findOverwritten a s).rse.pull.regionSet = s.rse.pull.regionSet ∧
    (findOverwritten a s).rse.pull.server = s.rse.pull.server ∧
    (findOverwritten a s).rse.pull.target = s.rse.pull.target ∧
    (findOverwritten a s).rse.pull.timer = s.rse.pull.timer ∧ (findOverwritten a s).rse.service = s.rse.service ∧
    (findOverwritten a s).cmu.buffer = s.cmu.buffer ∧ (findOverwritten a s).cmu.header = s.cmu.header ∧
    (findOverwritten a s).cmu.mask = s.cmu.mask ∧ (findOverwritten a s).cmu.ms = s.cmu.ms ∧
    (findOverwritten a s).cmu.request = s.cmu.request ∧ (findOverwritten a s).cmu.response = s.cmu.response := by
  unfold findOverwritten; (repeat' split) <;> simp

@[simp] theorem overwriteWord_keeps (a : Nat) (v : Word) (s : State) :
    (overwriteWord a v s).pending = s.pending ∧ (overwriteWord a v s).resetLow = s.resetLow ∧
    (overwriteWord a v s).position = s.position ∧ (overwriteWord a v s).dev = s.dev ∧
    (overwriteWord a v s).times = s.times ∧ (overwriteWord a v s).start = s.start ∧
    (overwriteWord a v s).rgt.fingerprint = s.rgt.fingerprint ∧ (overwriteWord a v s).ppt = s.ppt ∧
    (overwriteWord a v s).pwq = s.pwq ∧ (overwriteWord a v s).mpu.initOp = s.mpu.initOp ∧
    (overwriteWord a v s).mpu.pointer = s.mpu.pointer ∧ (overwriteWord a v s).mpu.slots = s.mpu.slots ∧
    (overwriteWord a v s).mpu.writeBack = s.mpu.writeBack ∧ (overwriteWord a v s).sgu.pass = s.sgu.pass ∧
    (overwriteWord a v s).cju = s.cju ∧ (overwriteWord a v s).ptu.enable = s.ptu.enable ∧
    (overwriteWord a v s).ptu.interval = s.ptu.interval ∧ (overwriteWord a v s).ptu.position = s.ptu.position ∧
    (overwriteWord a v s).ptu.request = s.ptu.request ∧ (overwriteWord a v s).ptu.timer = s.ptu.timer ∧
    (overwriteWord a v s).ptu.comparable = s.ptu.comparable ∧ (overwriteWord a v s).lkc = s.lkc ∧
    (overwriteWord a v s).vtu.agreedBase = s.vtu.agreedBase ∧ (overwriteWord a v s).vtu.closedSet = s.vtu.closedSet ∧
    (overwriteWord a v s).vtu.deciding = s.vtu.deciding ∧ (overwriteWord a v s).vtu.last = s.vtu.last ∧
    (overwriteWord a v s).vtu.own = s.vtu.own ∧ (overwriteWord a v s).vtu.table = s.vtu.table ∧
    (overwriteWord a v s).vtu.timer = s.vtu.timer ∧ (overwriteWord a v s).rse.pull.attempts = s.rse.pull.attempts ∧
    (overwriteWord a v s).rse.pull.buffers = s.rse.pull.buffers ∧
    (overwriteWord a v s).rse.pull.ending = s.rse.pull.ending ∧ (overwriteWord a v s).rse.pull.kind = s.rse.pull.kind
    ∧ (overwriteWord a v s).rse.pull.phase = s.rse.pull.phase ∧
    (overwriteWord a v s).rse.pull.received = s.rse.pull.received ∧
    (overwriteWord a v s).rse.pull.regionSet = s.rse.pull.regionSet ∧
    (overwriteWord a v s).rse.pull.server = s.rse.pull.server ∧
    (overwriteWord a v s).rse.pull.target = s.rse.pull.target ∧
    (overwriteWord a v s).rse.pull.timer = s.rse.pull.timer ∧ (overwriteWord a v s).rse.service = s.rse.service ∧
    (overwriteWord a v s).cmu.buffer = s.cmu.buffer ∧ (overwriteWord a v s).cmu.header = s.cmu.header ∧
    (overwriteWord a v s).cmu.mask = s.cmu.mask ∧ (overwriteWord a v s).cmu.ms = s.cmu.ms ∧
    (overwriteWord a v s).cmu.request = s.cmu.request ∧ (overwriteWord a v s).cmu.response = s.cmu.response := by
  simp only [overwriteWord]; (repeat' split) <;> simp

@[simp] theorem overwriteAll_keeps (ws : List (Nat × Word)) (s : State) :
    (overwriteAll ws s).pending = s.pending ∧ (overwriteAll ws s).resetLow = s.resetLow ∧
    (overwriteAll ws s).position = s.position ∧ (overwriteAll ws s).dev = s.dev ∧ (overwriteAll ws s).times = s.times
    ∧ (overwriteAll ws s).start = s.start ∧ (overwriteAll ws s).rgt.fingerprint = s.rgt.fingerprint ∧
    (overwriteAll ws s).ppt = s.ppt ∧ (overwriteAll ws s).pwq = s.pwq ∧ (overwriteAll ws s).mpu.initOp = s.mpu.initOp
    ∧ (overwriteAll ws s).mpu.pointer = s.mpu.pointer ∧ (overwriteAll ws s).mpu.slots = s.mpu.slots ∧
    (overwriteAll ws s).mpu.writeBack = s.mpu.writeBack ∧ (overwriteAll ws s).sgu.pass = s.sgu.pass ∧
    (overwriteAll ws s).cju = s.cju ∧ (overwriteAll ws s).ptu.enable = s.ptu.enable ∧
    (overwriteAll ws s).ptu.interval = s.ptu.interval ∧ (overwriteAll ws s).ptu.position = s.ptu.position ∧
    (overwriteAll ws s).ptu.request = s.ptu.request ∧ (overwriteAll ws s).ptu.timer = s.ptu.timer ∧
    (overwriteAll ws s).ptu.comparable = s.ptu.comparable ∧ (overwriteAll ws s).lkc = s.lkc ∧
    (overwriteAll ws s).vtu.agreedBase = s.vtu.agreedBase ∧ (overwriteAll ws s).vtu.closedSet = s.vtu.closedSet ∧
    (overwriteAll ws s).vtu.deciding = s.vtu.deciding ∧ (overwriteAll ws s).vtu.last = s.vtu.last ∧
    (overwriteAll ws s).vtu.own = s.vtu.own ∧ (overwriteAll ws s).vtu.table = s.vtu.table ∧
    (overwriteAll ws s).vtu.timer = s.vtu.timer ∧ (overwriteAll ws s).rse.pull.attempts = s.rse.pull.attempts ∧
    (overwriteAll ws s).rse.pull.buffers = s.rse.pull.buffers ∧
    (overwriteAll ws s).rse.pull.ending = s.rse.pull.ending ∧ (overwriteAll ws s).rse.pull.kind = s.rse.pull.kind ∧
    (overwriteAll ws s).rse.pull.phase = s.rse.pull.phase ∧
    (overwriteAll ws s).rse.pull.received = s.rse.pull.received ∧
    (overwriteAll ws s).rse.pull.regionSet = s.rse.pull.regionSet ∧
    (overwriteAll ws s).rse.pull.server = s.rse.pull.server ∧ (overwriteAll ws s).rse.pull.target = s.rse.pull.target
    ∧ (overwriteAll ws s).rse.pull.timer = s.rse.pull.timer ∧ (overwriteAll ws s).rse.service = s.rse.service ∧
    (overwriteAll ws s).cmu.buffer = s.cmu.buffer ∧ (overwriteAll ws s).cmu.header = s.cmu.header ∧
    (overwriteAll ws s).cmu.mask = s.cmu.mask ∧ (overwriteAll ws s).cmu.ms = s.cmu.ms ∧
    (overwriteAll ws s).cmu.request = s.cmu.request ∧ (overwriteAll ws s).cmu.response = s.cmu.response := by
  unfold overwriteAll
  induction ws generalizing s with
  | nil => simp
  | cons w ws ih => simp [ih]

@[simp] theorem giveAnswer_keeps (i : Initiator) (r : Resp) (d : Word) (s : State) :
    (giveAnswer i r d s).pending = s.pending ∧ (giveAnswer i r d s).resetLow = s.resetLow ∧
    (giveAnswer i r d s).position = s.position ∧ (giveAnswer i r d s).dev = s.dev ∧
    (giveAnswer i r d s).times = s.times ∧ (giveAnswer i r d s).start = s.start ∧ (giveAnswer i r d s).rgt = s.rgt ∧
    (giveAnswer i r d s).ppt.held = s.ppt.held ∧ (giveAnswer i r d s).pwq = s.pwq ∧ (giveAnswer i r d s).mpu = s.mpu ∧
    (giveAnswer i r d s).sgu = s.sgu ∧ (giveAnswer i r d s).cju = s.cju ∧ (giveAnswer i r d s).ptu = s.ptu ∧
    (giveAnswer i r d s).lkc = s.lkc ∧ (giveAnswer i r d s).vtu = s.vtu ∧ (giveAnswer i r d s).rse = s.rse ∧
    (giveAnswer i r d s).cmu = s.cmu := by
  simp [giveAnswer]

@[simp] theorem raiseHold_keeps (s : State) :
    (raiseHold s).pending = s.pending ∧ (raiseHold s).resetLow = s.resetLow ∧ (raiseHold s).position = s.position ∧
    (raiseHold s).dev = s.dev ∧ (raiseHold s).times = s.times ∧ (raiseHold s).start = s.start ∧
    (raiseHold s).rgt = s.rgt ∧ (raiseHold s).ppt = s.ppt ∧ (raiseHold s).pwq.entries = s.pwq.entries ∧
    (raiseHold s).pwq.lower = s.pwq.lower ∧ (raiseHold s).pwq.upper = s.pwq.upper ∧ (raiseHold s).mpu = s.mpu ∧
    (raiseHold s).sgu = s.sgu ∧ (raiseHold s).cju = s.cju ∧ (raiseHold s).ptu = s.ptu ∧ (raiseHold s).lkc = s.lkc ∧
    (raiseHold s).vtu = s.vtu ∧ (raiseHold s).rse = s.rse ∧ (raiseHold s).cmu = s.cmu := by
  unfold raiseHold; (repeat' split) <;> simp

@[simp] theorem lowerHold_keeps (s : State) :
    (lowerHold s).pending = s.pending ∧ (lowerHold s).resetLow = s.resetLow ∧ (lowerHold s).position = s.position ∧
    (lowerHold s).dev = s.dev ∧ (lowerHold s).times = s.times ∧ (lowerHold s).start = s.start ∧
    (lowerHold s).rgt = s.rgt ∧ (lowerHold s).ppt = s.ppt ∧ (lowerHold s).pwq.entries = s.pwq.entries ∧
    (lowerHold s).pwq.lower = s.pwq.lower ∧ (lowerHold s).pwq.upper = s.pwq.upper ∧ (lowerHold s).mpu = s.mpu ∧
    (lowerHold s).sgu = s.sgu ∧ (lowerHold s).cju = s.cju ∧ (lowerHold s).ptu = s.ptu ∧ (lowerHold s).lkc = s.lkc ∧
    (lowerHold s).vtu = s.vtu ∧ (lowerHold s).rse = s.rse ∧ (lowerHold s).cmu = s.cmu := by
  unfold lowerHold; (repeat' split) <;> simp

@[simp] theorem acceptWrite_keeps (t : Transfer) (s : State) :
    (acceptWrite t s).pending = s.pending ∧ (acceptWrite t s).resetLow = s.resetLow ∧
    (acceptWrite t s).position = s.position ∧ (acceptWrite t s).dev = s.dev ∧ (acceptWrite t s).times = s.times ∧
    (acceptWrite t s).start = s.start ∧ (acceptWrite t s).rgt = s.rgt ∧ (acceptWrite t s).ppt = s.ppt ∧
    (acceptWrite t s).pwq.lower = s.pwq.lower ∧ (acceptWrite t s).pwq.upper = s.pwq.upper ∧
    (acceptWrite t s).mpu = s.mpu ∧ (acceptWrite t s).sgu = s.sgu ∧ (acceptWrite t s).cju = s.cju ∧
    (acceptWrite t s).ptu = s.ptu ∧ (acceptWrite t s).lkc = s.lkc ∧ (acceptWrite t s).vtu = s.vtu ∧
    (acceptWrite t s).rse = s.rse ∧ (acceptWrite t s).cmu = s.cmu := by
  unfold acceptWrite; (repeat' split) <;> simp

@[simp] theorem judge_keeps (w : Bool) (t : Transfer) (s : State) :
    ((judge w t s).1).pending = s.pending ∧ ((judge w t s).1).resetLow = s.resetLow ∧
    ((judge w t s).1).position = s.position ∧ ((judge w t s).1).dev = s.dev ∧ ((judge w t s).1).times = s.times ∧
    ((judge w t s).1).start = s.start ∧ ((judge w t s).1).rgt = s.rgt ∧ ((judge w t s).1).ppt.held = s.ppt.held ∧
    ((judge w t s).1).pwq.lower = s.pwq.lower ∧ ((judge w t s).1).pwq.upper = s.pwq.upper ∧
    ((judge w t s).1).mpu = s.mpu ∧ ((judge w t s).1).sgu = s.sgu ∧ ((judge w t s).1).cju = s.cju ∧
    ((judge w t s).1).ptu = s.ptu ∧ ((judge w t s).1).lkc = s.lkc ∧ ((judge w t s).1).vtu = s.vtu ∧
    ((judge w t s).1).rse = s.rse ∧ ((judge w t s).1).cmu.buffer = s.cmu.buffer ∧
    ((judge w t s).1).cmu.header = s.cmu.header ∧ ((judge w t s).1).cmu.mask = s.cmu.mask ∧
    ((judge w t s).1).cmu.ms = s.cmu.ms ∧ ((judge w t s).1).cmu.request = s.cmu.request ∧
    ((judge w t s).1).cmu.response = s.cmu.response := by
  unfold judge; (repeat' split) <;> simp

@[simp] theorem arrive_keeps (t : Transfer) (s : State) :
    (arrive t s).pending = s.pending ∧ (arrive t s).resetLow = s.resetLow ∧ (arrive t s).position = s.position ∧
    (arrive t s).dev = s.dev ∧ (arrive t s).times = s.times ∧ (arrive t s).start = s.start ∧ (arrive t s).rgt = s.rgt
    ∧ (arrive t s).pwq.lower = s.pwq.lower ∧ (arrive t s).pwq.upper = s.pwq.upper ∧ (arrive t s).mpu = s.mpu ∧
    (arrive t s).sgu = s.sgu ∧ (arrive t s).cju = s.cju ∧ (arrive t s).ptu = s.ptu ∧ (arrive t s).lkc = s.lkc ∧
    (arrive t s).vtu = s.vtu ∧ (arrive t s).rse = s.rse ∧ (arrive t s).cmu.buffer = s.cmu.buffer ∧
    (arrive t s).cmu.header = s.cmu.header ∧ (arrive t s).cmu.mask = s.cmu.mask ∧ (arrive t s).cmu.ms = s.cmu.ms ∧
    (arrive t s).cmu.request = s.cmu.request ∧ (arrive t s).cmu.response = s.cmu.response := by
  unfold arrive; (repeat' split) <;> simp

@[simp] theorem unhold_keeps (i : Initiator) (s : State) :
    (unhold i s).pending = s.pending ∧ (unhold i s).resetLow = s.resetLow ∧ (unhold i s).position = s.position ∧
    (unhold i s).dev = s.dev ∧ (unhold i s).times = s.times ∧ (unhold i s).start = s.start ∧ (unhold i s).rgt = s.rgt
    ∧ (unhold i s).ppt.answers = s.ppt.answers ∧ (unhold i s).pwq = s.pwq ∧ (unhold i s).mpu = s.mpu ∧
    (unhold i s).sgu = s.sgu ∧ (unhold i s).cju = s.cju ∧ (unhold i s).ptu = s.ptu ∧ (unhold i s).lkc = s.lkc ∧
    (unhold i s).vtu = s.vtu ∧ (unhold i s).rse = s.rse ∧ (unhold i s).cmu = s.cmu := by
  simp [unhold]

@[simp] theorem rehold_keeps (i : Initiator) (k : Hold) (s : State) :
    (rehold i k s).pending = s.pending ∧ (rehold i k s).resetLow = s.resetLow ∧ (rehold i k s).position = s.position ∧
    (rehold i k s).dev = s.dev ∧ (rehold i k s).times = s.times ∧ (rehold i k s).start = s.start ∧
    (rehold i k s).rgt = s.rgt ∧ (rehold i k s).ppt.answers = s.ppt.answers ∧ (rehold i k s).pwq = s.pwq ∧
    (rehold i k s).mpu = s.mpu ∧ (rehold i k s).sgu = s.sgu ∧ (rehold i k s).cju = s.cju ∧ (rehold i k s).ptu = s.ptu
    ∧ (rehold i k s).lkc = s.lkc ∧ (rehold i k s).vtu = s.vtu ∧ (rehold i k s).rse = s.rse ∧
    (rehold i k s).cmu = s.cmu := by
  simp [rehold]

@[simp] theorem releaseOne_keeps (h : Held) (s : State) :
    (releaseOne h s).pending = s.pending ∧ (releaseOne h s).resetLow = s.resetLow ∧
    (releaseOne h s).position = s.position ∧ (releaseOne h s).dev = s.dev ∧ (releaseOne h s).times = s.times ∧
    (releaseOne h s).start = s.start ∧ (releaseOne h s).rgt = s.rgt ∧ (releaseOne h s).pwq.lower = s.pwq.lower ∧
    (releaseOne h s).pwq.upper = s.pwq.upper ∧ (releaseOne h s).mpu = s.mpu ∧ (releaseOne h s).sgu = s.sgu ∧
    (releaseOne h s).cju = s.cju ∧ (releaseOne h s).ptu = s.ptu ∧ (releaseOne h s).lkc = s.lkc ∧
    (releaseOne h s).vtu = s.vtu ∧ (releaseOne h s).rse = s.rse ∧ (releaseOne h s).cmu.buffer = s.cmu.buffer ∧
    (releaseOne h s).cmu.header = s.cmu.header ∧ (releaseOne h s).cmu.mask = s.cmu.mask ∧
    (releaseOne h s).cmu.ms = s.cmu.ms ∧ (releaseOne h s).cmu.request = s.cmu.request ∧
    (releaseOne h s).cmu.response = s.cmu.response := by
  unfold releaseOne; (repeat' split) <;> simp

@[simp] theorem releaseHeld_keeps (s : State) :
    (releaseHeld s).pending = s.pending ∧ (releaseHeld s).resetLow = s.resetLow ∧
    (releaseHeld s).position = s.position ∧ (releaseHeld s).dev = s.dev ∧ (releaseHeld s).times = s.times ∧
    (releaseHeld s).start = s.start ∧ (releaseHeld s).rgt = s.rgt ∧ (releaseHeld s).pwq.lower = s.pwq.lower ∧
    (releaseHeld s).pwq.upper = s.pwq.upper ∧ (releaseHeld s).mpu = s.mpu ∧ (releaseHeld s).sgu = s.sgu ∧
    (releaseHeld s).cju = s.cju ∧ (releaseHeld s).ptu = s.ptu ∧ (releaseHeld s).lkc = s.lkc ∧
    (releaseHeld s).vtu = s.vtu ∧ (releaseHeld s).rse = s.rse ∧ (releaseHeld s).cmu.buffer = s.cmu.buffer ∧
    (releaseHeld s).cmu.header = s.cmu.header ∧ (releaseHeld s).cmu.mask = s.cmu.mask ∧
    (releaseHeld s).cmu.ms = s.cmu.ms ∧ (releaseHeld s).cmu.request = s.cmu.request ∧
    (releaseHeld s).cmu.response = s.cmu.response := by
  unfold releaseHeld
  split
  · simp
  · rename_i hp
    clear hp
    generalize s.ppt.held = l
    induction l generalizing s with
    | nil => simp
    | cons h l ih => simp [ih]

@[simp] theorem leaveQueue_keeps (g st : List PwqEntry) (s : State) :
    (leaveQueue g st s).pending = s.pending ∧ (leaveQueue g st s).resetLow = s.resetLow ∧
    (leaveQueue g st s).position = s.position ∧ (leaveQueue g st s).dev = s.dev ∧ (leaveQueue g st s).times = s.times
    ∧ (leaveQueue g st s).start = s.start ∧ (leaveQueue g st s).rgt = s.rgt ∧
    (leaveQueue g st s).ppt.answers = s.ppt.answers ∧ (leaveQueue g st s).pwq.lower = s.pwq.lower ∧
    (leaveQueue g st s).pwq.upper = s.pwq.upper ∧ (leaveQueue g st s).mpu = s.mpu ∧ (leaveQueue g st s).sgu = s.sgu ∧
    (leaveQueue g st s).cju = s.cju ∧ (leaveQueue g st s).ptu = s.ptu ∧ (leaveQueue g st s).lkc = s.lkc ∧
    (leaveQueue g st s).vtu = s.vtu ∧ (leaveQueue g st s).rse = s.rse ∧ (leaveQueue g st s).cmu = s.cmu := by
  simp [leaveQueue]

@[simp] theorem dropSigned_keeps (s : State) :
    (dropSigned s).pending = s.pending ∧ (dropSigned s).resetLow = s.resetLow ∧ (dropSigned s).position = s.position ∧
    (dropSigned s).dev = s.dev ∧ (dropSigned s).times = s.times ∧ (dropSigned s).start = s.start ∧
    (dropSigned s).rgt = s.rgt ∧ (dropSigned s).ppt.answers = s.ppt.answers ∧ (dropSigned s).pwq.lower = s.pwq.lower ∧
    (dropSigned s).pwq.upper = s.pwq.upper ∧ (dropSigned s).mpu = s.mpu ∧ (dropSigned s).sgu = s.sgu ∧
    (dropSigned s).cju = s.cju ∧ (dropSigned s).ptu = s.ptu ∧ (dropSigned s).lkc = s.lkc ∧ (dropSigned s).vtu = s.vtu
    ∧ (dropSigned s).rse = s.rse ∧ (dropSigned s).cmu = s.cmu := by
  simp [dropSigned]

@[simp] theorem startSend_keeps (l : Link) (s : State) :
    (startSend l s).pending = s.pending ∧ (startSend l s).resetLow = s.resetLow ∧
    (startSend l s).position = s.position ∧ (startSend l s).dev = s.dev ∧ (startSend l s).times = s.times ∧
    (startSend l s).start = s.start ∧ (startSend l s).rgt = s.rgt ∧ (startSend l s).ppt = s.ppt ∧
    (startSend l s).pwq = s.pwq ∧ (startSend l s).mpu = s.mpu ∧ (startSend l s).sgu = s.sgu ∧
    (startSend l s).cju = s.cju ∧ (startSend l s).ptu = s.ptu ∧ (startSend l s).lkc.helloTimer = s.lkc.helloTimer ∧
    (startSend l s).lkc.peers = s.lkc.peers ∧ (startSend l s).vtu = s.vtu ∧ (startSend l s).rse = s.rse ∧
    (startSend l s).cmu = s.cmu := by
  unfold startSend; (repeat' split) <;> simp

@[simp] theorem kick_keeps (s : State) :
    (kick s).pending = s.pending ∧ (kick s).resetLow = s.resetLow ∧ (kick s).position = s.position ∧
    (kick s).dev = s.dev ∧ (kick s).times = s.times ∧ (kick s).start = s.start ∧ (kick s).rgt = s.rgt ∧
    (kick s).ppt = s.ppt ∧ (kick s).pwq = s.pwq ∧ (kick s).mpu = s.mpu ∧ (kick s).sgu = s.sgu ∧ (kick s).cju = s.cju ∧
    (kick s).ptu = s.ptu ∧ (kick s).lkc.helloTimer = s.lkc.helloTimer ∧ (kick s).lkc.peers = s.lkc.peers ∧
    (kick s).vtu = s.vtu ∧ (kick s).rse = s.rse ∧ (kick s).cmu = s.cmu := by
  simp [kick]

@[simp] theorem endService_keeps (r : PullResult) (e : Option (List SigEntry)) (s : State) :
    (endService r e s).pending = s.pending ∧ (endService r e s).resetLow = s.resetLow ∧
    (endService r e s).position = s.position ∧ (endService r e s).dev = s.dev ∧ (endService r e s).times = s.times ∧
    (endService r e s).start = s.start ∧ (endService r e s).rgt = s.rgt ∧ (endService r e s).ppt = s.ppt ∧
    (endService r e s).pwq = s.pwq ∧ (endService r e s).mpu = s.mpu ∧ (endService r e s).sgu = s.sgu ∧
    (endService r e s).cju.chan = s.cju.chan ∧ (endService r e s).cju.cycle = s.cju.cycle ∧
    (endService r e s).cju.journal = s.cju.journal ∧ (endService r e s).cju.repair = s.cju.repair ∧
    (endService r e s).cju.repairOverflow = s.cju.repairOverflow ∧ (endService r e s).cju.timer = s.cju.timer ∧
    (endService r e s).cju.unrevertible = s.cju.unrevertible ∧ (endService r e s).cju.wCur = s.cju.wCur ∧
    (endService r e s).cju.wPrev = s.cju.wPrev ∧ (endService r e s).cju.wPrevValid = s.cju.wPrevValid ∧
    (endService r e s).ptu = s.ptu ∧ (endService r e s).lkc.helloTimer = s.lkc.helloTimer ∧
    (endService r e s).lkc.peers = s.lkc.peers ∧ (endService r e s).vtu = s.vtu ∧
    (endService r e s).rse.pull = s.rse.pull ∧ (endService r e s).rse.service.credits = s.rse.service.credits ∧
    (endService r e s).rse.service.kind = s.rse.service.kind ∧
    (endService r e s).rse.service.regionSet = s.rse.service.regionSet ∧
    (endService r e s).rse.service.repair = s.rse.service.repair ∧
    (endService r e s).rse.service.requester = s.rse.service.requester ∧
    (endService r e s).rse.service.sendPos = s.rse.service.sendPos ∧
    (endService r e s).rse.service.sent = s.rse.service.sent ∧
    (endService r e s).rse.service.walkPos = s.rse.service.walkPos ∧ (endService r e s).cmu.buffer = s.cmu.buffer ∧
    (endService r e s).cmu.header = s.cmu.header ∧ (endService r e s).cmu.mask = s.cmu.mask ∧
    (endService r e s).cmu.ms = s.cmu.ms ∧ (endService r e s).cmu.request = s.cmu.request ∧
    (endService r e s).cmu.response = s.cmu.response := by
  unfold endService; (repeat' split) <;> simp

@[simp] theorem endIfLost_keeps (s : State) :
    (endIfLost s).pending = s.pending ∧ (endIfLost s).resetLow = s.resetLow ∧ (endIfLost s).position = s.position ∧
    (endIfLost s).dev = s.dev ∧ (endIfLost s).times = s.times ∧ (endIfLost s).start = s.start ∧
    (endIfLost s).rgt = s.rgt ∧ (endIfLost s).ppt = s.ppt ∧ (endIfLost s).pwq = s.pwq ∧ (endIfLost s).mpu = s.mpu ∧
    (endIfLost s).sgu = s.sgu ∧ (endIfLost s).cju.chan = s.cju.chan ∧ (endIfLost s).cju.cycle = s.cju.cycle ∧
    (endIfLost s).cju.journal = s.cju.journal ∧ (endIfLost s).cju.repair = s.cju.repair ∧
    (endIfLost s).cju.repairOverflow = s.cju.repairOverflow ∧ (endIfLost s).cju.timer = s.cju.timer ∧
    (endIfLost s).cju.unrevertible = s.cju.unrevertible ∧ (endIfLost s).cju.wCur = s.cju.wCur ∧
    (endIfLost s).cju.wPrev = s.cju.wPrev ∧ (endIfLost s).cju.wPrevValid = s.cju.wPrevValid ∧
    (endIfLost s).ptu = s.ptu ∧ (endIfLost s).lkc.helloTimer = s.lkc.helloTimer ∧
    (endIfLost s).lkc.peers = s.lkc.peers ∧ (endIfLost s).vtu = s.vtu ∧ (endIfLost s).rse.pull = s.rse.pull ∧
    (endIfLost s).rse.service.credits = s.rse.service.credits ∧ (endIfLost s).rse.service.kind = s.rse.service.kind ∧
    (endIfLost s).rse.service.regionSet = s.rse.service.regionSet ∧
    (endIfLost s).rse.service.repair = s.rse.service.repair ∧
    (endIfLost s).rse.service.requester = s.rse.service.requester ∧
    (endIfLost s).rse.service.sendPos = s.rse.service.sendPos ∧ (endIfLost s).rse.service.sent = s.rse.service.sent ∧
    (endIfLost s).rse.service.walkPos = s.rse.service.walkPos ∧ (endIfLost s).cmu.buffer = s.cmu.buffer ∧
    (endIfLost s).cmu.header = s.cmu.header ∧ (endIfLost s).cmu.mask = s.cmu.mask ∧ (endIfLost s).cmu.ms = s.cmu.ms ∧
    (endIfLost s).cmu.request = s.cmu.request ∧ (endIfLost s).cmu.response = s.cmu.response := by
  unfold endIfLost; (repeat' split) <;> simp

@[simp] theorem reconsiderMarks_keeps (s : State) :
    (reconsiderMarks s).pending = s.pending ∧ (reconsiderMarks s).resetLow = s.resetLow ∧
    (reconsiderMarks s).position = s.position ∧ (reconsiderMarks s).dev = s.dev ∧ (reconsiderMarks s).times = s.times
    ∧ (reconsiderMarks s).start = s.start ∧ (reconsiderMarks s).rgt = s.rgt ∧ (reconsiderMarks s).ppt = s.ppt ∧
    (reconsiderMarks s).pwq = s.pwq ∧ (reconsiderMarks s).mpu = s.mpu ∧ (reconsiderMarks s).sgu = s.sgu ∧
    (reconsiderMarks s).cju = s.cju ∧ (reconsiderMarks s).ptu = s.ptu ∧ (reconsiderMarks s).lkc = s.lkc ∧
    (reconsiderMarks s).vtu = s.vtu ∧ (reconsiderMarks s).rse.pull = s.rse.pull ∧
    (reconsiderMarks s).rse.service.credits = s.rse.service.credits ∧
    (reconsiderMarks s).rse.service.kind = s.rse.service.kind ∧
    (reconsiderMarks s).rse.service.phase = s.rse.service.phase ∧
    (reconsiderMarks s).rse.service.regionSet = s.rse.service.regionSet ∧
    (reconsiderMarks s).rse.service.repair = s.rse.service.repair ∧
    (reconsiderMarks s).rse.service.requester = s.rse.service.requester ∧
    (reconsiderMarks s).rse.service.sendPos = s.rse.service.sendPos ∧
    (reconsiderMarks s).rse.service.sent = s.rse.service.sent ∧
    (reconsiderMarks s).rse.service.timer = s.rse.service.timer ∧
    (reconsiderMarks s).rse.service.walkPos = s.rse.service.walkPos ∧ (reconsiderMarks s).cmu = s.cmu := by
  simp [reconsiderMarks]

@[simp] theorem forgetTried_keeps (s : State) :
    (forgetTried s).pending = s.pending ∧ (forgetTried s).resetLow = s.resetLow ∧
    (forgetTried s).position = s.position ∧ (forgetTried s).dev = s.dev ∧ (forgetTried s).times = s.times ∧
    (forgetTried s).start = s.start ∧ (forgetTried s).rgt = s.rgt ∧ (forgetTried s).ppt = s.ppt ∧
    (forgetTried s).pwq = s.pwq ∧ (forgetTried s).mpu = s.mpu ∧ (forgetTried s).sgu = s.sgu ∧
    (forgetTried s).cju = s.cju ∧ (forgetTried s).ptu = s.ptu ∧ (forgetTried s).lkc = s.lkc ∧
    (forgetTried s).vtu = s.vtu ∧ (forgetTried s).rse.pull = s.rse.pull ∧
    (forgetTried s).rse.service.credits = s.rse.service.credits ∧
    (forgetTried s).rse.service.kind = s.rse.service.kind ∧ (forgetTried s).rse.service.phase = s.rse.service.phase ∧
    (forgetTried s).rse.service.regionSet = s.rse.service.regionSet ∧
    (forgetTried s).rse.service.repair = s.rse.service.repair ∧
    (forgetTried s).rse.service.requester = s.rse.service.requester ∧
    (forgetTried s).rse.service.sendPos = s.rse.service.sendPos ∧
    (forgetTried s).rse.service.sent = s.rse.service.sent ∧ (forgetTried s).rse.service.timer = s.rse.service.timer ∧
    (forgetTried s).rse.service.waiting = s.rse.service.waiting ∧
    (forgetTried s).rse.service.walkPos = s.rse.service.walkPos ∧ (forgetTried s).cmu = s.cmu := by
  unfold forgetTried; (repeat' split) <;> simp

@[simp] theorem walkEnds_keeps (s : State) :
    (walkEnds s).pending = s.pending ∧ (walkEnds s).resetLow = s.resetLow ∧ (walkEnds s).position = s.position ∧
    (walkEnds s).dev = s.dev ∧ (walkEnds s).times = s.times ∧ (walkEnds s).start = s.start ∧ (walkEnds s).rgt = s.rgt
    ∧ (walkEnds s).ppt = s.ppt ∧ (walkEnds s).pwq = s.pwq ∧ (walkEnds s).mpu = s.mpu ∧ (walkEnds s).sgu = s.sgu ∧
    (walkEnds s).cju = s.cju ∧ (walkEnds s).ptu = s.ptu ∧ (walkEnds s).lkc = s.lkc ∧ (walkEnds s).vtu = s.vtu ∧
    (walkEnds s).rse.pull = s.rse.pull ∧ (walkEnds s).rse.service.credits = s.rse.service.credits ∧
    (walkEnds s).rse.service.kind = s.rse.service.kind ∧ (walkEnds s).rse.service.regionSet = s.rse.service.regionSet
    ∧ (walkEnds s).rse.service.repair = s.rse.service.repair ∧
    (walkEnds s).rse.service.requester = s.rse.service.requester ∧ (walkEnds s).rse.service.sent = s.rse.service.sent
    ∧ (walkEnds s).rse.service.timer = s.rse.service.timer ∧ (walkEnds s).rse.service.walkPos = s.rse.service.walkPos
    ∧ (walkEnds s).cmu = s.cmu := by
  unfold walkEnds; (repeat' split) <;> simp

@[simp] theorem marksReturn_keeps (s : State) :
    (marksReturn s).pending = s.pending ∧ (marksReturn s).resetLow = s.resetLow ∧
    (marksReturn s).position = s.position ∧ (marksReturn s).dev = s.dev ∧ (marksReturn s).times = s.times ∧
    (marksReturn s).start = s.start ∧ (marksReturn s).rgt = s.rgt ∧ (marksReturn s).ppt = s.ppt ∧
    (marksReturn s).pwq = s.pwq ∧ (marksReturn s).mpu = s.mpu ∧ (marksReturn s).sgu = s.sgu ∧
    (marksReturn s).cju = s.cju ∧ (marksReturn s).ptu = s.ptu ∧ (marksReturn s).lkc = s.lkc ∧
    (marksReturn s).vtu = s.vtu ∧ (marksReturn s).rse.pull = s.rse.pull ∧
    (marksReturn s).rse.service.credits = s.rse.service.credits ∧
    (marksReturn s).rse.service.kind = s.rse.service.kind ∧
    (marksReturn s).rse.service.regionSet = s.rse.service.regionSet ∧
    (marksReturn s).rse.service.repair = s.rse.service.repair ∧
    (marksReturn s).rse.service.requester = s.rse.service.requester ∧
    (marksReturn s).rse.service.sendPos = s.rse.service.sendPos ∧
    (marksReturn s).rse.service.sent = s.rse.service.sent ∧ (marksReturn s).rse.service.timer = s.rse.service.timer ∧
    (marksReturn s).rse.service.walkPos = s.rse.service.walkPos ∧ (marksReturn s).cmu = s.cmu := by
  unfold marksReturn; (repeat' split) <;> simp

@[simp] theorem nothingLeft_keeps (s : State) :
    (nothingLeft s).pending = s.pending ∧ (nothingLeft s).resetLow = s.resetLow ∧
    (nothingLeft s).position = s.position ∧ (nothingLeft s).dev = s.dev ∧ (nothingLeft s).times = s.times ∧
    (nothingLeft s).start = s.start ∧ (nothingLeft s).rgt = s.rgt ∧ (nothingLeft s).ppt = s.ppt ∧
    (nothingLeft s).pwq = s.pwq ∧ (nothingLeft s).mpu = s.mpu ∧ (nothingLeft s).sgu = s.sgu ∧
    (nothingLeft s).cju = s.cju ∧ (nothingLeft s).ptu = s.ptu ∧ (nothingLeft s).lkc = s.lkc ∧
    (nothingLeft s).vtu = s.vtu ∧ (nothingLeft s).rse.pull = s.rse.pull ∧
    (nothingLeft s).rse.service.credits = s.rse.service.credits ∧
    (nothingLeft s).rse.service.kind = s.rse.service.kind ∧
    (nothingLeft s).rse.service.regionSet = s.rse.service.regionSet ∧
    (nothingLeft s).rse.service.repair = s.rse.service.repair ∧
    (nothingLeft s).rse.service.requester = s.rse.service.requester ∧
    (nothingLeft s).rse.service.sendPos = s.rse.service.sendPos ∧
    (nothingLeft s).rse.service.sent = s.rse.service.sent ∧ (nothingLeft s).rse.service.timer = s.rse.service.timer ∧
    (nothingLeft s).rse.service.tried = s.rse.service.tried ∧
    (nothingLeft s).rse.service.waiting = s.rse.service.waiting ∧
    (nothingLeft s).rse.service.walkPos = s.rse.service.walkPos ∧ (nothingLeft s).cmu = s.cmu := by
  unfold nothingLeft; (repeat' split) <;> simp

@[simp] theorem finishService_keeps (s : State) :
    (finishService s).pending = s.pending ∧ (finishService s).resetLow = s.resetLow ∧
    (finishService s).position = s.position ∧ (finishService s).dev = s.dev ∧ (finishService s).times = s.times ∧
    (finishService s).start = s.start ∧ (finishService s).rgt = s.rgt ∧ (finishService s).ppt = s.ppt ∧
    (finishService s).pwq = s.pwq ∧ (finishService s).mpu = s.mpu ∧ (finishService s).sgu = s.sgu ∧
    (finishService s).cju.chan = s.cju.chan ∧ (finishService s).cju.cycle = s.cju.cycle ∧
    (finishService s).cju.journal = s.cju.journal ∧ (finishService s).cju.repair = s.cju.repair ∧
    (finishService s).cju.repairOverflow = s.cju.repairOverflow ∧ (finishService s).cju.timer = s.cju.timer ∧
    (finishService s).cju.unrevertible = s.cju.unrevertible ∧ (finishService s).cju.wCur = s.cju.wCur ∧
    (finishService s).cju.wPrev = s.cju.wPrev ∧ (finishService s).cju.wPrevValid = s.cju.wPrevValid ∧
    (finishService s).ptu = s.ptu ∧ (finishService s).lkc.helloTimer = s.lkc.helloTimer ∧
    (finishService s).lkc.peers = s.lkc.peers ∧ (finishService s).vtu = s.vtu ∧
    (finishService s).rse.pull = s.rse.pull ∧ (finishService s).rse.service.credits = s.rse.service.credits ∧
    (finishService s).rse.service.kind = s.rse.service.kind ∧
    (finishService s).rse.service.regionSet = s.rse.service.regionSet ∧
    (finishService s).rse.service.repair = s.rse.service.repair ∧
    (finishService s).rse.service.requester = s.rse.service.requester ∧
    (finishService s).rse.service.sendPos = s.rse.service.sendPos ∧
    (finishService s).rse.service.sent = s.rse.service.sent ∧
    (finishService s).rse.service.walkPos = s.rse.service.walkPos ∧ (finishService s).cmu.buffer = s.cmu.buffer ∧
    (finishService s).cmu.header = s.cmu.header ∧ (finishService s).cmu.mask = s.cmu.mask ∧
    (finishService s).cmu.ms = s.cmu.ms ∧ (finishService s).cmu.request = s.cmu.request ∧
    (finishService s).cmu.response = s.cmu.response := by
  unfold finishService; (repeat' split) <;> simp

@[simp] theorem creditTimer_keeps (s : State) :
    (creditTimer s).pending = s.pending ∧ (creditTimer s).resetLow = s.resetLow ∧
    (creditTimer s).position = s.position ∧ (creditTimer s).dev = s.dev ∧ (creditTimer s).times = s.times ∧
    (creditTimer s).start = s.start ∧ (creditTimer s).rgt = s.rgt ∧ (creditTimer s).ppt = s.ppt ∧
    (creditTimer s).pwq = s.pwq ∧ (creditTimer s).mpu = s.mpu ∧ (creditTimer s).sgu = s.sgu ∧
    (creditTimer s).cju = s.cju ∧ (creditTimer s).ptu = s.ptu ∧ (creditTimer s).lkc = s.lkc ∧
    (creditTimer s).vtu = s.vtu ∧ (creditTimer s).rse.pull = s.rse.pull ∧
    (creditTimer s).rse.service.credits = s.rse.service.credits ∧
    (creditTimer s).rse.service.kind = s.rse.service.kind ∧ (creditTimer s).rse.service.phase = s.rse.service.phase ∧
    (creditTimer s).rse.service.regionSet = s.rse.service.regionSet ∧
    (creditTimer s).rse.service.repair = s.rse.service.repair ∧
    (creditTimer s).rse.service.requester = s.rse.service.requester ∧
    (creditTimer s).rse.service.sendPos = s.rse.service.sendPos ∧
    (creditTimer s).rse.service.sent = s.rse.service.sent ∧ (creditTimer s).rse.service.tried = s.rse.service.tried ∧
    (creditTimer s).rse.service.waiting = s.rse.service.waiting ∧
    (creditTimer s).rse.service.walkPos = s.rse.service.walkPos ∧ (creditTimer s).cmu = s.cmu := by
  unfold creditTimer; (repeat' split) <;> simp

@[simp] theorem serviceTick_keeps (s : State) :
    (serviceTick s).pending = s.pending ∧ (serviceTick s).resetLow = s.resetLow ∧
    (serviceTick s).position = s.position ∧ (serviceTick s).dev = s.dev ∧ (serviceTick s).times = s.times ∧
    (serviceTick s).start = s.start ∧ (serviceTick s).rgt = s.rgt ∧ (serviceTick s).ppt = s.ppt ∧
    (serviceTick s).pwq = s.pwq ∧ (serviceTick s).mpu = s.mpu ∧ (serviceTick s).sgu = s.sgu ∧
    (serviceTick s).cju.chan = s.cju.chan ∧ (serviceTick s).cju.cycle = s.cju.cycle ∧
    (serviceTick s).cju.journal = s.cju.journal ∧ (serviceTick s).cju.repair = s.cju.repair ∧
    (serviceTick s).cju.repairOverflow = s.cju.repairOverflow ∧ (serviceTick s).cju.timer = s.cju.timer ∧
    (serviceTick s).cju.unrevertible = s.cju.unrevertible ∧ (serviceTick s).cju.wCur = s.cju.wCur ∧
    (serviceTick s).cju.wPrev = s.cju.wPrev ∧ (serviceTick s).cju.wPrevValid = s.cju.wPrevValid ∧
    (serviceTick s).ptu = s.ptu ∧ (serviceTick s).lkc.helloTimer = s.lkc.helloTimer ∧
    (serviceTick s).lkc.peers = s.lkc.peers ∧ (serviceTick s).vtu = s.vtu ∧ (serviceTick s).rse.pull = s.rse.pull ∧
    (serviceTick s).rse.service.credits = s.rse.service.credits ∧
    (serviceTick s).rse.service.kind = s.rse.service.kind ∧
    (serviceTick s).rse.service.regionSet = s.rse.service.regionSet ∧
    (serviceTick s).rse.service.repair = s.rse.service.repair ∧
    (serviceTick s).rse.service.requester = s.rse.service.requester ∧
    (serviceTick s).rse.service.sent = s.rse.service.sent ∧
    (serviceTick s).rse.service.walkPos = s.rse.service.walkPos ∧ (serviceTick s).cmu.buffer = s.cmu.buffer ∧
    (serviceTick s).cmu.header = s.cmu.header ∧ (serviceTick s).cmu.mask = s.cmu.mask ∧
    (serviceTick s).cmu.ms = s.cmu.ms ∧ (serviceTick s).cmu.request = s.cmu.request ∧
    (serviceTick s).cmu.response = s.cmu.response := by
  simp [serviceTick]

@[simp] theorem settle_keeps (s : State) :
    (settle s).pending = s.pending ∧ (settle s).resetLow = s.resetLow ∧ (settle s).position = s.position ∧
    (settle s).dev = s.dev ∧ (settle s).times = s.times ∧ (settle s).start = s.start ∧ (settle s).rgt = s.rgt ∧
    (settle s).pwq.lower = s.pwq.lower ∧ (settle s).pwq.upper = s.pwq.upper ∧ (settle s).mpu = s.mpu ∧
    (settle s).sgu = s.sgu ∧ (settle s).cju.chan = s.cju.chan ∧ (settle s).cju.cycle = s.cju.cycle ∧
    (settle s).cju.journal = s.cju.journal ∧ (settle s).cju.repair = s.cju.repair ∧
    (settle s).cju.repairOverflow = s.cju.repairOverflow ∧ (settle s).cju.timer = s.cju.timer ∧
    (settle s).cju.unrevertible = s.cju.unrevertible ∧ (settle s).cju.wCur = s.cju.wCur ∧
    (settle s).cju.wPrev = s.cju.wPrev ∧ (settle s).cju.wPrevValid = s.cju.wPrevValid ∧ (settle s).ptu = s.ptu ∧
    (settle s).lkc.helloTimer = s.lkc.helloTimer ∧ (settle s).lkc.peers = s.lkc.peers ∧ (settle s).vtu = s.vtu ∧
    (settle s).rse.pull = s.rse.pull ∧ (settle s).rse.service.credits = s.rse.service.credits ∧
    (settle s).rse.service.kind = s.rse.service.kind ∧ (settle s).rse.service.regionSet = s.rse.service.regionSet ∧
    (settle s).rse.service.repair = s.rse.service.repair ∧ (settle s).rse.service.requester = s.rse.service.requester
    ∧ (settle s).rse.service.sent = s.rse.service.sent ∧ (settle s).rse.service.walkPos = s.rse.service.walkPos ∧
    (settle s).cmu.buffer = s.cmu.buffer ∧ (settle s).cmu.header = s.cmu.header ∧ (settle s).cmu.mask = s.cmu.mask ∧
    (settle s).cmu.ms = s.cmu.ms ∧ (settle s).cmu.request = s.cmu.request ∧ (settle s).cmu.response = s.cmu.response := by
  simp [settle]

@[simp] theorem takePull_keeps (l : Link) (f : PullFrame) (s : State) :
    (takePull l f s).pending = s.pending ∧ (takePull l f s).resetLow = s.resetLow ∧
    (takePull l f s).position = s.position ∧ (takePull l f s).dev = s.dev ∧ (takePull l f s).times = s.times ∧
    (takePull l f s).start = s.start ∧ (takePull l f s).rgt = s.rgt ∧ (takePull l f s).ppt = s.ppt ∧
    (takePull l f s).pwq = s.pwq ∧ (takePull l f s).mpu = s.mpu ∧ (takePull l f s).sgu = s.sgu ∧
    (takePull l f s).cju = s.cju ∧ (takePull l f s).ptu = s.ptu ∧ (takePull l f s).lkc.helloTimer = s.lkc.helloTimer ∧
    (takePull l f s).lkc.peers = s.lkc.peers ∧ (takePull l f s).vtu = s.vtu ∧ (takePull l f s).rse.pull = s.rse.pull ∧
    (takePull l f s).cmu.buffer = s.cmu.buffer ∧ (takePull l f s).cmu.header = s.cmu.header ∧
    (takePull l f s).cmu.mask = s.cmu.mask ∧ (takePull l f s).cmu.ms = s.cmu.ms ∧
    (takePull l f s).cmu.request = s.cmu.request ∧ (takePull l f s).cmu.response = s.cmu.response := by
  unfold takePull; (repeat' split) <;> simp

@[simp] theorem takeCredit_keeps (l : Link) (n : Byte) (s : State) :
    (takeCredit l n s).pending = s.pending ∧ (takeCredit l n s).resetLow = s.resetLow ∧
    (takeCredit l n s).position = s.position ∧ (takeCredit l n s).dev = s.dev ∧ (takeCredit l n s).times = s.times ∧
    (takeCredit l n s).start = s.start ∧ (takeCredit l n s).rgt = s.rgt ∧ (takeCredit l n s).ppt = s.ppt ∧
    (takeCredit l n s).pwq = s.pwq ∧ (takeCredit l n s).mpu = s.mpu ∧ (takeCredit l n s).sgu = s.sgu ∧
    (takeCredit l n s).cju = s.cju ∧ (takeCredit l n s).ptu = s.ptu ∧ (takeCredit l n s).lkc = s.lkc ∧
    (takeCredit l n s).vtu = s.vtu ∧ (takeCredit l n s).rse.pull = s.rse.pull ∧
    (takeCredit l n s).rse.service.kind = s.rse.service.kind ∧
    (takeCredit l n s).rse.service.phase = s.rse.service.phase ∧
    (takeCredit l n s).rse.service.regionSet = s.rse.service.regionSet ∧
    (takeCredit l n s).rse.service.repair = s.rse.service.repair ∧
    (takeCredit l n s).rse.service.requester = s.rse.service.requester ∧
    (takeCredit l n s).rse.service.sendPos = s.rse.service.sendPos ∧
    (takeCredit l n s).rse.service.sent = s.rse.service.sent ∧
    (takeCredit l n s).rse.service.timer = s.rse.service.timer ∧
    (takeCredit l n s).rse.service.tried = s.rse.service.tried ∧
    (takeCredit l n s).rse.service.waiting = s.rse.service.waiting ∧
    (takeCredit l n s).rse.service.walkPos = s.rse.service.walkPos ∧ (takeCredit l n s).cmu = s.cmu := by
  unfold takeCredit; (repeat' split) <;> simp

@[simp] theorem afterBlock_keeps (b : Nat) (s : State) :
    (afterBlock b s).pending = s.pending ∧ (afterBlock b s).resetLow = s.resetLow ∧
    (afterBlock b s).position = s.position ∧ (afterBlock b s).dev = s.dev ∧ (afterBlock b s).times = s.times ∧
    (afterBlock b s).start = s.start ∧ (afterBlock b s).rgt = s.rgt ∧ (afterBlock b s).ppt = s.ppt ∧
    (afterBlock b s).pwq = s.pwq ∧ (afterBlock b s).mpu = s.mpu ∧ (afterBlock b s).sgu = s.sgu ∧
    (afterBlock b s).cju = s.cju ∧ (afterBlock b s).ptu = s.ptu ∧ (afterBlock b s).lkc = s.lkc ∧
    (afterBlock b s).vtu = s.vtu ∧ (afterBlock b s).rse.pull = s.rse.pull ∧
    (afterBlock b s).rse.service.credits = s.rse.service.credits ∧
    (afterBlock b s).rse.service.kind = s.rse.service.kind ∧ (afterBlock b s).rse.service.phase = s.rse.service.phase
    ∧ (afterBlock b s).rse.service.regionSet = s.rse.service.regionSet ∧
    (afterBlock b s).rse.service.repair = s.rse.service.repair ∧
    (afterBlock b s).rse.service.requester = s.rse.service.requester ∧
    (afterBlock b s).rse.service.sent = s.rse.service.sent ∧ (afterBlock b s).rse.service.timer = s.rse.service.timer
    ∧ (afterBlock b s).rse.service.tried = s.rse.service.tried ∧
    (afterBlock b s).rse.service.waiting = s.rse.service.waiting ∧ (afterBlock b s).cmu = s.cmu := by
  unfold afterBlock; (repeat' split) <;> simp

@[simp] theorem markWaiting_keeps (s : State) :
    (markWaiting s).pending = s.pending ∧ (markWaiting s).resetLow = s.resetLow ∧
    (markWaiting s).position = s.position ∧ (markWaiting s).dev = s.dev ∧ (markWaiting s).times = s.times ∧
    (markWaiting s).start = s.start ∧ (markWaiting s).rgt = s.rgt ∧ (markWaiting s).ppt = s.ppt ∧
    (markWaiting s).pwq = s.pwq ∧ (markWaiting s).mpu = s.mpu ∧ (markWaiting s).sgu = s.sgu ∧
    (markWaiting s).cju = s.cju ∧ (markWaiting s).ptu = s.ptu ∧ (markWaiting s).lkc = s.lkc ∧
    (markWaiting s).vtu = s.vtu ∧ (markWaiting s).rse.pull = s.rse.pull ∧
    (markWaiting s).rse.service.credits = s.rse.service.credits ∧
    (markWaiting s).rse.service.kind = s.rse.service.kind ∧ (markWaiting s).rse.service.phase = s.rse.service.phase ∧
    (markWaiting s).rse.service.regionSet = s.rse.service.regionSet ∧
    (markWaiting s).rse.service.repair = s.rse.service.repair ∧
    (markWaiting s).rse.service.requester = s.rse.service.requester ∧
    (markWaiting s).rse.service.sendPos = s.rse.service.sendPos ∧
    (markWaiting s).rse.service.sent = s.rse.service.sent ∧ (markWaiting s).rse.service.timer = s.rse.service.timer ∧
    (markWaiting s).rse.service.tried = s.rse.service.tried ∧
    (markWaiting s).rse.service.walkPos = s.rse.service.walkPos ∧ (markWaiting s).cmu = s.cmu := by
  simp [markWaiting]

@[simp] theorem sendBlock_keeps (b : Nat) (ws : List Word) (s : State) :
    (sendBlock b ws s).pending = s.pending ∧ (sendBlock b ws s).resetLow = s.resetLow ∧
    (sendBlock b ws s).position = s.position ∧ (sendBlock b ws s).dev = s.dev ∧ (sendBlock b ws s).times = s.times ∧
    (sendBlock b ws s).start = s.start ∧ (sendBlock b ws s).rgt = s.rgt ∧ (sendBlock b ws s).ppt = s.ppt ∧
    (sendBlock b ws s).pwq = s.pwq ∧ (sendBlock b ws s).mpu = s.mpu ∧ (sendBlock b ws s).sgu = s.sgu ∧
    (sendBlock b ws s).cju.chan = s.cju.chan ∧ (sendBlock b ws s).cju.cycle = s.cju.cycle ∧
    (sendBlock b ws s).cju.journal = s.cju.journal ∧ (sendBlock b ws s).cju.repair = s.cju.repair ∧
    (sendBlock b ws s).cju.repairOverflow = s.cju.repairOverflow ∧ (sendBlock b ws s).cju.timer = s.cju.timer ∧
    (sendBlock b ws s).cju.unrevertible = s.cju.unrevertible ∧ (sendBlock b ws s).cju.wCur = s.cju.wCur ∧
    (sendBlock b ws s).cju.wPrev = s.cju.wPrev ∧ (sendBlock b ws s).cju.wPrevValid = s.cju.wPrevValid ∧
    (sendBlock b ws s).ptu = s.ptu ∧ (sendBlock b ws s).lkc.helloTimer = s.lkc.helloTimer ∧
    (sendBlock b ws s).lkc.peers = s.lkc.peers ∧ (sendBlock b ws s).vtu = s.vtu ∧
    (sendBlock b ws s).rse.pull = s.rse.pull ∧ (sendBlock b ws s).rse.service.kind = s.rse.service.kind ∧
    (sendBlock b ws s).rse.service.phase = s.rse.service.phase ∧
    (sendBlock b ws s).rse.service.regionSet = s.rse.service.regionSet ∧
    (sendBlock b ws s).rse.service.repair = s.rse.service.repair ∧
    (sendBlock b ws s).rse.service.requester = s.rse.service.requester ∧
    (sendBlock b ws s).rse.service.timer = s.rse.service.timer ∧ (sendBlock b ws s).cmu = s.cmu := by
  unfold sendBlock; (repeat' split) <;> simp

@[simp] theorem blockUnavailable_keeps (b : Nat) (s : State) :
    (blockUnavailable b s).pending = s.pending ∧ (blockUnavailable b s).resetLow = s.resetLow ∧
    (blockUnavailable b s).position = s.position ∧ (blockUnavailable b s).dev = s.dev ∧
    (blockUnavailable b s).times = s.times ∧ (blockUnavailable b s).start = s.start ∧
    (blockUnavailable b s).rgt = s.rgt ∧ (blockUnavailable b s).ppt = s.ppt ∧ (blockUnavailable b s).pwq = s.pwq ∧
    (blockUnavailable b s).mpu = s.mpu ∧ (blockUnavailable b s).sgu = s.sgu ∧
    (blockUnavailable b s).cju.chan = s.cju.chan ∧ (blockUnavailable b s).cju.cycle = s.cju.cycle ∧
    (blockUnavailable b s).cju.journal = s.cju.journal ∧ (blockUnavailable b s).cju.repair = s.cju.repair ∧
    (blockUnavailable b s).cju.repairOverflow = s.cju.repairOverflow ∧ (blockUnavailable b s).cju.timer = s.cju.timer
    ∧ (blockUnavailable b s).cju.unrevertible = s.cju.unrevertible ∧ (blockUnavailable b s).cju.wCur = s.cju.wCur ∧
    (blockUnavailable b s).cju.wPrev = s.cju.wPrev ∧ (blockUnavailable b s).cju.wPrevValid = s.cju.wPrevValid ∧
    (blockUnavailable b s).ptu = s.ptu ∧ (blockUnavailable b s).lkc.helloTimer = s.lkc.helloTimer ∧
    (blockUnavailable b s).lkc.peers = s.lkc.peers ∧ (blockUnavailable b s).vtu = s.vtu ∧
    (blockUnavailable b s).rse.pull = s.rse.pull ∧ (blockUnavailable b s).rse.service.credits = s.rse.service.credits
    ∧ (blockUnavailable b s).rse.service.kind = s.rse.service.kind ∧
    (blockUnavailable b s).rse.service.regionSet = s.rse.service.regionSet ∧
    (blockUnavailable b s).rse.service.repair = s.rse.service.repair ∧
    (blockUnavailable b s).rse.service.requester = s.rse.service.requester ∧
    (blockUnavailable b s).rse.service.sent = s.rse.service.sent ∧ (blockUnavailable b s).cmu.buffer = s.cmu.buffer ∧
    (blockUnavailable b s).cmu.header = s.cmu.header ∧ (blockUnavailable b s).cmu.mask = s.cmu.mask ∧
    (blockUnavailable b s).cmu.ms = s.cmu.ms ∧ (blockUnavailable b s).cmu.request = s.cmu.request ∧
    (blockUnavailable b s).cmu.response = s.cmu.response := by
  unfold blockUnavailable; (repeat' split) <;> simp

@[simp] theorem sortKept_keeps (s : State) :
    (sortKept s).pending = s.pending ∧ (sortKept s).resetLow = s.resetLow ∧ (sortKept s).position = s.position ∧
    (sortKept s).dev = s.dev ∧ (sortKept s).times = s.times ∧ (sortKept s).start = s.start ∧ (sortKept s).rgt = s.rgt
    ∧ (sortKept s).ppt = s.ppt ∧ (sortKept s).pwq = s.pwq ∧ (sortKept s).mpu = s.mpu ∧ (sortKept s).sgu = s.sgu ∧
    (sortKept s).cju = s.cju ∧ (sortKept s).ptu = s.ptu ∧ (sortKept s).lkc = s.lkc ∧
    (sortKept s).vtu.agreedBase = s.vtu.agreedBase ∧ (sortKept s).vtu.closedSet = s.vtu.closedSet ∧
    (sortKept s).vtu.deciding = s.vtu.deciding ∧ (sortKept s).vtu.last = s.vtu.last ∧
    (sortKept s).vtu.level = s.vtu.level ∧ (sortKept s).vtu.own = s.vtu.own ∧
    (sortKept s).vtu.permitted = s.vtu.permitted ∧ (sortKept s).vtu.timer = s.vtu.timer ∧ (sortKept s).rse = s.rse ∧
    (sortKept s).cmu = s.cmu := by
  simp [sortKept]

@[simp] theorem clearPrev_keeps (s : State) :
    (clearPrev s).pending = s.pending ∧ (clearPrev s).resetLow = s.resetLow ∧ (clearPrev s).position = s.position ∧
    (clearPrev s).dev = s.dev ∧ (clearPrev s).times = s.times ∧ (clearPrev s).start = s.start ∧
    (clearPrev s).rgt = s.rgt ∧ (clearPrev s).ppt = s.ppt ∧ (clearPrev s).pwq = s.pwq ∧ (clearPrev s).mpu = s.mpu ∧
    (clearPrev s).sgu = s.sgu ∧ (clearPrev s).cju.chan = s.cju.chan ∧ (clearPrev s).cju.cycle = s.cju.cycle ∧
    (clearPrev s).cju.journal = s.cju.journal ∧ (clearPrev s).cju.repair = s.cju.repair ∧
    (clearPrev s).cju.repairOverflow = s.cju.repairOverflow ∧ (clearPrev s).cju.resend = s.cju.resend ∧
    (clearPrev s).cju.timer = s.cju.timer ∧ (clearPrev s).cju.unrevertible = s.cju.unrevertible ∧
    (clearPrev s).cju.wCur = s.cju.wCur ∧ (clearPrev s).ptu = s.ptu ∧ (clearPrev s).lkc = s.lkc ∧
    (clearPrev s).vtu = s.vtu ∧ (clearPrev s).rse = s.rse ∧ (clearPrev s).cmu = s.cmu := by
  simp [clearPrev]

@[simp] theorem beginPull_keeps (k : PullKind) (l : Link) (f : PullFrame) (s : State) :
    (beginPull k l f s).pending = s.pending ∧ (beginPull k l f s).resetLow = s.resetLow ∧
    (beginPull k l f s).position = s.position ∧ (beginPull k l f s).dev = s.dev ∧ (beginPull k l f s).times = s.times
    ∧ (beginPull k l f s).start = s.start ∧ (beginPull k l f s).rgt = s.rgt ∧ (beginPull k l f s).ppt = s.ppt ∧
    (beginPull k l f s).pwq = s.pwq ∧ (beginPull k l f s).mpu = s.mpu ∧ (beginPull k l f s).sgu = s.sgu ∧
    (beginPull k l f s).cju = s.cju ∧ (beginPull k l f s).ptu = s.ptu ∧
    (beginPull k l f s).lkc.helloTimer = s.lkc.helloTimer ∧ (beginPull k l f s).lkc.peers = s.lkc.peers ∧
    (beginPull k l f s).vtu = s.vtu ∧ (beginPull k l f s).rse.pull.attempts = s.rse.pull.attempts ∧
    (beginPull k l f s).rse.service = s.rse.service ∧ (beginPull k l f s).cmu.buffer = s.cmu.buffer ∧
    (beginPull k l f s).cmu.header = s.cmu.header ∧ (beginPull k l f s).cmu.mask = s.cmu.mask ∧
    (beginPull k l f s).cmu.ms = s.cmu.ms ∧ (beginPull k l f s).cmu.request = s.cmu.request ∧
    (beginPull k l f s).cmu.response = s.cmu.response := by
  simp [beginPull]

@[simp] theorem startDelta_keeps (l : Link) (s : State) :
    (startDelta l s).pending = s.pending ∧ (startDelta l s).resetLow = s.resetLow ∧
    (startDelta l s).position = s.position ∧ (startDelta l s).dev = s.dev ∧ (startDelta l s).times = s.times ∧
    (startDelta l s).start = s.start ∧ (startDelta l s).rgt = s.rgt ∧ (startDelta l s).ppt = s.ppt ∧
    (startDelta l s).pwq = s.pwq ∧ (startDelta l s).mpu = s.mpu ∧ (startDelta l s).sgu = s.sgu ∧
    (startDelta l s).cju.chan = s.cju.chan ∧ (startDelta l s).cju.cycle = s.cju.cycle ∧
    (startDelta l s).cju.journal = s.cju.journal ∧ (startDelta l s).cju.repair = s.cju.repair ∧
    (startDelta l s).cju.repairOverflow = s.cju.repairOverflow ∧ (startDelta l s).cju.resend = s.cju.resend ∧
    (startDelta l s).cju.timer = s.cju.timer ∧ (startDelta l s).cju.unrevertible = s.cju.unrevertible ∧
    (startDelta l s).cju.wCur = s.cju.wCur ∧ (startDelta l s).ptu = s.ptu ∧
    (startDelta l s).lkc.helloTimer = s.lkc.helloTimer ∧ (startDelta l s).lkc.peers = s.lkc.peers ∧
    (startDelta l s).vtu = s.vtu ∧ (startDelta l s).rse.pull.attempts = s.rse.pull.attempts ∧
    (startDelta l s).rse.service = s.rse.service ∧ (startDelta l s).cmu.buffer = s.cmu.buffer ∧
    (startDelta l s).cmu.header = s.cmu.header ∧ (startDelta l s).cmu.mask = s.cmu.mask ∧
    (startDelta l s).cmu.ms = s.cmu.ms ∧ (startDelta l s).cmu.request = s.cmu.request ∧
    (startDelta l s).cmu.response = s.cmu.response := by
  simp [startDelta]

@[simp] theorem startFull_keeps (l : Link) (s : State) :
    (startFull l s).pending = s.pending ∧ (startFull l s).resetLow = s.resetLow ∧
    (startFull l s).position = s.position ∧ (startFull l s).dev = s.dev ∧ (startFull l s).times = s.times ∧
    (startFull l s).start = s.start ∧ (startFull l s).rgt = s.rgt ∧ (startFull l s).ppt = s.ppt ∧
    (startFull l s).pwq = s.pwq ∧ (startFull l s).mpu = s.mpu ∧ (startFull l s).sgu = s.sgu ∧
    (startFull l s).cju.cycle = s.cju.cycle ∧ (startFull l s).cju.journal = s.cju.journal ∧
    (startFull l s).cju.repair = s.cju.repair ∧ (startFull l s).cju.repairOverflow = s.cju.repairOverflow ∧
    (startFull l s).cju.resend = s.cju.resend ∧ (startFull l s).cju.timer = s.cju.timer ∧
    (startFull l s).cju.unrevertible = s.cju.unrevertible ∧ (startFull l s).cju.wCur = s.cju.wCur ∧
    (startFull l s).ptu = s.ptu ∧ (startFull l s).lkc.helloTimer = s.lkc.helloTimer ∧
    (startFull l s).lkc.peers = s.lkc.peers ∧ (startFull l s).vtu.agreedBase = s.vtu.agreedBase ∧
    (startFull l s).vtu.closedSet = s.vtu.closedSet ∧ (startFull l s).vtu.deciding = s.vtu.deciding ∧
    (startFull l s).vtu.last = s.vtu.last ∧ (startFull l s).vtu.own = s.vtu.own ∧
    (startFull l s).vtu.table = s.vtu.table ∧ (startFull l s).vtu.timer = s.vtu.timer ∧
    (startFull l s).rse.pull.attempts = s.rse.pull.attempts ∧ (startFull l s).rse.service = s.rse.service ∧
    (startFull l s).cmu.buffer = s.cmu.buffer ∧ (startFull l s).cmu.header = s.cmu.header ∧
    (startFull l s).cmu.mask = s.cmu.mask ∧ (startFull l s).cmu.ms = s.cmu.ms ∧
    (startFull l s).cmu.request = s.cmu.request ∧ (startFull l s).cmu.response = s.cmu.response := by
  simp [startFull]

@[simp] theorem testFull_keeps (s : State) :
    (testFull s).pending = s.pending ∧ (testFull s).resetLow = s.resetLow ∧ (testFull s).position = s.position ∧
    (testFull s).dev = s.dev ∧ (testFull s).times = s.times ∧ (testFull s).start = s.start ∧ (testFull s).rgt = s.rgt
    ∧ (testFull s).ppt = s.ppt ∧ (testFull s).pwq = s.pwq ∧ (testFull s).mpu = s.mpu ∧ (testFull s).sgu = s.sgu ∧
    (testFull s).cju.cycle = s.cju.cycle ∧ (testFull s).cju.journal = s.cju.journal ∧
    (testFull s).cju.repair = s.cju.repair ∧ (testFull s).cju.repairOverflow = s.cju.repairOverflow ∧
    (testFull s).cju.resend = s.cju.resend ∧ (testFull s).cju.timer = s.cju.timer ∧
    (testFull s).cju.unrevertible = s.cju.unrevertible ∧ (testFull s).cju.wCur = s.cju.wCur ∧ (testFull s).ptu = s.ptu
    ∧ (testFull s).lkc.helloTimer = s.lkc.helloTimer ∧ (testFull s).lkc.peers = s.lkc.peers ∧
    (testFull s).vtu.agreedBase = s.vtu.agreedBase ∧ (testFull s).vtu.closedSet = s.vtu.closedSet ∧
    (testFull s).vtu.deciding = s.vtu.deciding ∧ (testFull s).vtu.last = s.vtu.last ∧ (testFull s).vtu.own = s.vtu.own
    ∧ (testFull s).vtu.table = s.vtu.table ∧ (testFull s).vtu.timer = s.vtu.timer ∧
    (testFull s).rse.pull.attempts = s.rse.pull.attempts ∧ (testFull s).rse.service = s.rse.service ∧
    (testFull s).cmu.buffer = s.cmu.buffer ∧ (testFull s).cmu.header = s.cmu.header ∧
    (testFull s).cmu.mask = s.cmu.mask ∧ (testFull s).cmu.ms = s.cmu.ms ∧ (testFull s).cmu.request = s.cmu.request ∧
    (testFull s).cmu.response = s.cmu.response := by
  unfold testFull; (repeat' split) <;> simp

@[simp] theorem failPull_keeps (c : PullCause) (r : Option PullResult) (s : State) :
    (failPull c r s).pending = s.pending ∧ (failPull c r s).resetLow = s.resetLow ∧
    (failPull c r s).position = s.position ∧ (failPull c r s).dev = s.dev ∧ (failPull c r s).times = s.times ∧
    (failPull c r s).start = s.start ∧ (failPull c r s).rgt = s.rgt ∧ (failPull c r s).ppt = s.ppt ∧
    (failPull c r s).pwq = s.pwq ∧ (failPull c r s).mpu = s.mpu ∧ (failPull c r s).sgu = s.sgu ∧
    (failPull c r s).cju.cycle = s.cju.cycle ∧ (failPull c r s).cju.journal = s.cju.journal ∧
    (failPull c r s).cju.repair = s.cju.repair ∧ (failPull c r s).cju.repairOverflow = s.cju.repairOverflow ∧
    (failPull c r s).cju.resend = s.cju.resend ∧ (failPull c r s).cju.timer = s.cju.timer ∧
    (failPull c r s).cju.unrevertible = s.cju.unrevertible ∧ (failPull c r s).cju.wCur = s.cju.wCur ∧
    (failPull c r s).ptu = s.ptu ∧ (failPull c r s).lkc.helloTimer = s.lkc.helloTimer ∧
    (failPull c r s).lkc.peers = s.lkc.peers ∧ (failPull c r s).vtu.closedSet = s.vtu.closedSet ∧
    (failPull c r s).vtu.deciding = s.vtu.deciding ∧ (failPull c r s).vtu.last = s.vtu.last ∧
    (failPull c r s).vtu.own = s.vtu.own ∧ (failPull c r s).vtu.table = s.vtu.table ∧
    (failPull c r s).vtu.timer = s.vtu.timer ∧ (failPull c r s).rse.service = s.rse.service ∧
    (failPull c r s).cmu.buffer = s.cmu.buffer ∧ (failPull c r s).cmu.header = s.cmu.header ∧
    (failPull c r s).cmu.mask = s.cmu.mask ∧ (failPull c r s).cmu.ms = s.cmu.ms ∧
    (failPull c r s).cmu.request = s.cmu.request ∧ (failPull c r s).cmu.response = s.cmu.response := by
  unfold failPull; (repeat' split) <;> simp

@[simp] theorem mendRegions_keeps (s : State) :
    (mendRegions s).pending = s.pending ∧ (mendRegions s).resetLow = s.resetLow ∧
    (mendRegions s).position = s.position ∧ (mendRegions s).dev = s.dev ∧ (mendRegions s).times = s.times ∧
    (mendRegions s).start = s.start ∧ (mendRegions s).rgt.fingerprint = s.rgt.fingerprint ∧
    (mendRegions s).ppt = s.ppt ∧ (mendRegions s).pwq = s.pwq ∧ (mendRegions s).mpu = s.mpu ∧
    (mendRegions s).sgu = s.sgu ∧ (mendRegions s).cju = s.cju ∧ (mendRegions s).ptu = s.ptu ∧
    (mendRegions s).lkc = s.lkc ∧ (mendRegions s).vtu = s.vtu ∧ (mendRegions s).rse = s.rse ∧
    (mendRegions s).cmu = s.cmu := by
  simp [mendRegions]

@[simp] theorem succeedPull_keeps (f : PullEndFrame) (e : List SigEntry) (s : State) :
    (succeedPull f e s).pending = s.pending ∧ (succeedPull f e s).resetLow = s.resetLow ∧
    (succeedPull f e s).position = s.position ∧ (succeedPull f e s).dev = s.dev ∧ (succeedPull f e s).times = s.times
    ∧ (succeedPull f e s).start = s.start ∧ (succeedPull f e s).rgt.fingerprint = s.rgt.fingerprint ∧
    (succeedPull f e s).ppt = s.ppt ∧ (succeedPull f e s).pwq = s.pwq ∧ (succeedPull f e s).mpu = s.mpu ∧
    (succeedPull f e s).sgu = s.sgu ∧ (succeedPull f e s).cju.resend = s.cju.resend ∧
    (succeedPull f e s).cju.timer = s.cju.timer ∧ (succeedPull f e s).ptu = s.ptu ∧
    (succeedPull f e s).lkc.helloTimer = s.lkc.helloTimer ∧ (succeedPull f e s).lkc.peers = s.lkc.peers ∧
    (succeedPull f e s).vtu.deciding = s.vtu.deciding ∧ (succeedPull f e s).vtu.last = s.vtu.last ∧
    (succeedPull f e s).vtu.own = s.vtu.own ∧ (succeedPull f e s).vtu.timer = s.vtu.timer ∧
    (succeedPull f e s).rse.pull.buffers = s.rse.pull.buffers ∧ (succeedPull f e s).rse.pull.clean = s.rse.pull.clean
    ∧ (succeedPull f e s).rse.pull.kind = s.rse.pull.kind ∧
    (succeedPull f e s).rse.pull.received = s.rse.pull.received ∧
    (succeedPull f e s).rse.pull.regionSet = s.rse.pull.regionSet ∧
    (succeedPull f e s).rse.pull.server = s.rse.pull.server ∧ (succeedPull f e s).rse.pull.target = s.rse.pull.target
    ∧ (succeedPull f e s).rse.service = s.rse.service ∧ (succeedPull f e s).cmu.buffer = s.cmu.buffer ∧
    (succeedPull f e s).cmu.header = s.cmu.header ∧ (succeedPull f e s).cmu.mask = s.cmu.mask ∧
    (succeedPull f e s).cmu.ms = s.cmu.ms ∧ (succeedPull f e s).cmu.request = s.cmu.request ∧
    (succeedPull f e s).cmu.response = s.cmu.response := by
  unfold succeedPull; (repeat' split) <;> simp

@[simp] theorem completionCheck_keeps (s : State) :
    (completionCheck s).pending = s.pending ∧ (completionCheck s).resetLow = s.resetLow ∧
    (completionCheck s).position = s.position ∧ (completionCheck s).dev = s.dev ∧ (completionCheck s).times = s.times
    ∧ (completionCheck s).start = s.start ∧ (completionCheck s).rgt.fingerprint = s.rgt.fingerprint ∧
    (completionCheck s).ppt = s.ppt ∧ (completionCheck s).pwq = s.pwq ∧ (completionCheck s).mpu = s.mpu ∧
    (completionCheck s).sgu = s.sgu ∧ (completionCheck s).cju.resend = s.cju.resend ∧
    (completionCheck s).cju.timer = s.cju.timer ∧ (completionCheck s).ptu = s.ptu ∧
    (completionCheck s).lkc.helloTimer = s.lkc.helloTimer ∧ (completionCheck s).lkc.peers = s.lkc.peers ∧
    (completionCheck s).vtu.deciding = s.vtu.deciding ∧ (completionCheck s).vtu.last = s.vtu.last ∧
    (completionCheck s).vtu.own = s.vtu.own ∧ (completionCheck s).vtu.timer = s.vtu.timer ∧
    (completionCheck s).rse.service = s.rse.service ∧ (completionCheck s).cmu.buffer = s.cmu.buffer ∧
    (completionCheck s).cmu.header = s.cmu.header ∧ (completionCheck s).cmu.mask = s.cmu.mask ∧
    (completionCheck s).cmu.ms = s.cmu.ms ∧ (completionCheck s).cmu.request = s.cmu.request ∧
    (completionCheck s).cmu.response = s.cmu.response := by
  unfold completionCheck; (repeat' split) <;> simp

@[simp] theorem beginRegion_keeps (ks : List Nat) (b : Nat) (s : State) :
    (beginRegion ks b s).pending = s.pending ∧ (beginRegion ks b s).resetLow = s.resetLow ∧
    (beginRegion ks b s).position = s.position ∧ (beginRegion ks b s).dev = s.dev ∧
    (beginRegion ks b s).times = s.times ∧ (beginRegion ks b s).start = s.start ∧ (beginRegion ks b s).rgt = s.rgt ∧
    (beginRegion ks b s).ppt = s.ppt ∧ (beginRegion ks b s).pwq = s.pwq ∧ (beginRegion ks b s).mpu = s.mpu ∧
    (beginRegion ks b s).sgu.sigs = s.sgu.sigs ∧ (beginRegion ks b s).cju = s.cju ∧ (beginRegion ks b s).ptu = s.ptu ∧
    (beginRegion ks b s).lkc = s.lkc ∧ (beginRegion ks b s).vtu = s.vtu ∧
    (beginRegion ks b s).rse.pull.attempts = s.rse.pull.attempts ∧
    (beginRegion ks b s).rse.pull.buffers = s.rse.pull.buffers ∧
    (beginRegion ks b s).rse.pull.ending = s.rse.pull.ending ∧ (beginRegion ks b s).rse.pull.kind = s.rse.pull.kind ∧
    (beginRegion ks b s).rse.pull.phase = s.rse.pull.phase ∧
    (beginRegion ks b s).rse.pull.received = s.rse.pull.received ∧
    (beginRegion ks b s).rse.pull.regionSet = s.rse.pull.regionSet ∧
    (beginRegion ks b s).rse.pull.server = s.rse.pull.server ∧
    (beginRegion ks b s).rse.pull.target = s.rse.pull.target ∧ (beginRegion ks b s).rse.pull.timer = s.rse.pull.timer
    ∧ (beginRegion ks b s).rse.service = s.rse.service ∧ (beginRegion ks b s).cmu = s.cmu := by
  unfold beginRegion; (repeat' split) <;> simp

@[simp] theorem takeStored_keeps (a : Nat) (v : Word) (s : State) :
    (takeStored a v s).pending = s.pending ∧ (takeStored a v s).resetLow = s.resetLow ∧
    (takeStored a v s).position = s.position ∧ (takeStored a v s).dev = s.dev ∧ (takeStored a v s).times = s.times ∧
    (takeStored a v s).start = s.start ∧ (takeStored a v s).rgt = s.rgt ∧ (takeStored a v s).ppt = s.ppt ∧
    (takeStored a v s).pwq = s.pwq ∧ (takeStored a v s).mpu.initOp = s.mpu.initOp ∧
    (takeStored a v s).mpu.pointer = s.mpu.pointer ∧ (takeStored a v s).mpu.slots = s.mpu.slots ∧
    (takeStored a v s).mpu.writeBack = s.mpu.writeBack ∧ (takeStored a v s).sgu = s.sgu ∧
    (takeStored a v s).cju = s.cju ∧ (takeStored a v s).ptu = s.ptu ∧ (takeStored a v s).lkc = s.lkc ∧
    (takeStored a v s).vtu = s.vtu ∧ (takeStored a v s).rse = s.rse ∧ (takeStored a v s).cmu = s.cmu := by
  simp [takeStored]

@[simp] theorem linkErrorEvent_keeps (l : Link) (r : LinkReason) (a : Option Nat) (s : State) :
    (linkErrorEvent l r a s).pending = s.pending ∧ (linkErrorEvent l r a s).resetLow = s.resetLow ∧
    (linkErrorEvent l r a s).position = s.position ∧ (linkErrorEvent l r a s).dev = s.dev ∧
    (linkErrorEvent l r a s).times = s.times ∧ (linkErrorEvent l r a s).start = s.start ∧
    (linkErrorEvent l r a s).rgt = s.rgt ∧ (linkErrorEvent l r a s).ppt = s.ppt ∧ (linkErrorEvent l r a s).pwq = s.pwq
    ∧ (linkErrorEvent l r a s).mpu = s.mpu ∧ (linkErrorEvent l r a s).sgu = s.sgu ∧
    (linkErrorEvent l r a s).cju = s.cju ∧ (linkErrorEvent l r a s).ptu = s.ptu ∧
    (linkErrorEvent l r a s).lkc.helloTimer = s.lkc.helloTimer ∧ (linkErrorEvent l r a s).lkc.tx = s.lkc.tx ∧
    (linkErrorEvent l r a s).vtu = s.vtu ∧ (linkErrorEvent l r a s).rse = s.rse ∧
    (linkErrorEvent l r a s).cmu.buffer = s.cmu.buffer ∧ (linkErrorEvent l r a s).cmu.header = s.cmu.header ∧
    (linkErrorEvent l r a s).cmu.mask = s.cmu.mask ∧ (linkErrorEvent l r a s).cmu.ms = s.cmu.ms ∧
    (linkErrorEvent l r a s).cmu.request = s.cmu.request ∧ (linkErrorEvent l r a s).cmu.response = s.cmu.response := by
  simp only [linkErrorEvent]; (repeat' split) <;> simp

@[simp] theorem takeBlock_keeps (l : Link) (f : BlockFrame) (s : State) :
    (takeBlock l f s).pending = s.pending ∧ (takeBlock l f s).resetLow = s.resetLow ∧
    (takeBlock l f s).position = s.position ∧ (takeBlock l f s).dev = s.dev ∧ (takeBlock l f s).times = s.times ∧
    (takeBlock l f s).start = s.start ∧ (takeBlock l f s).rgt = s.rgt ∧ (takeBlock l f s).ppt = s.ppt ∧
    (takeBlock l f s).pwq = s.pwq ∧ (takeBlock l f s).mpu = s.mpu ∧ (takeBlock l f s).sgu = s.sgu ∧
    (takeBlock l f s).cju = s.cju ∧ (takeBlock l f s).ptu = s.ptu ∧
    (takeBlock l f s).lkc.helloTimer = s.lkc.helloTimer ∧ (takeBlock l f s).lkc.tx = s.lkc.tx ∧
    (takeBlock l f s).vtu = s.vtu ∧ (takeBlock l f s).rse.pull.attempts = s.rse.pull.attempts ∧
    (takeBlock l f s).rse.pull.clean = s.rse.pull.clean ∧ (takeBlock l f s).rse.pull.ending = s.rse.pull.ending ∧
    (takeBlock l f s).rse.pull.kind = s.rse.pull.kind ∧ (takeBlock l f s).rse.pull.phase = s.rse.pull.phase ∧
    (takeBlock l f s).rse.pull.regionSet = s.rse.pull.regionSet ∧
    (takeBlock l f s).rse.pull.server = s.rse.pull.server ∧ (takeBlock l f s).rse.pull.target = s.rse.pull.target ∧
    (takeBlock l f s).rse.service = s.rse.service ∧ (takeBlock l f s).cmu.buffer = s.cmu.buffer ∧
    (takeBlock l f s).cmu.header = s.cmu.header ∧ (takeBlock l f s).cmu.mask = s.cmu.mask ∧
    (takeBlock l f s).cmu.ms = s.cmu.ms ∧ (takeBlock l f s).cmu.request = s.cmu.request ∧
    (takeBlock l f s).cmu.response = s.cmu.response := by
  simp only [takeBlock]; (repeat' split) <;> simp

@[simp] theorem pullProgress_keeps (s : State) :
    (pullProgress s).pending = s.pending ∧ (pullProgress s).resetLow = s.resetLow ∧
    (pullProgress s).position = s.position ∧ (pullProgress s).dev = s.dev ∧ (pullProgress s).times = s.times ∧
    (pullProgress s).start = s.start ∧ (pullProgress s).rgt.fingerprint = s.rgt.fingerprint ∧
    (pullProgress s).ppt = s.ppt ∧ (pullProgress s).pwq = s.pwq ∧ (pullProgress s).mpu = s.mpu ∧
    (pullProgress s).sgu.sigs = s.sgu.sigs ∧ (pullProgress s).cju.resend = s.cju.resend ∧
    (pullProgress s).cju.timer = s.cju.timer ∧ (pullProgress s).ptu = s.ptu ∧
    (pullProgress s).lkc.helloTimer = s.lkc.helloTimer ∧ (pullProgress s).lkc.peers = s.lkc.peers ∧
    (pullProgress s).vtu.deciding = s.vtu.deciding ∧ (pullProgress s).vtu.last = s.vtu.last ∧
    (pullProgress s).vtu.own = s.vtu.own ∧ (pullProgress s).vtu.timer = s.vtu.timer ∧
    (pullProgress s).rse.service = s.rse.service ∧ (pullProgress s).cmu.buffer = s.cmu.buffer ∧
    (pullProgress s).cmu.header = s.cmu.header ∧ (pullProgress s).cmu.mask = s.cmu.mask ∧
    (pullProgress s).cmu.ms = s.cmu.ms ∧ (pullProgress s).cmu.request = s.cmu.request ∧
    (pullProgress s).cmu.response = s.cmu.response := by
  unfold pullProgress; (repeat' split) <;> simp

@[simp] theorem takePullEnd_keeps (l : Link) (f : PullEndFrame) (s : State) :
    (takePullEnd l f s).pending = s.pending ∧ (takePullEnd l f s).resetLow = s.resetLow ∧
    (takePullEnd l f s).position = s.position ∧ (takePullEnd l f s).dev = s.dev ∧ (takePullEnd l f s).times = s.times
    ∧ (takePullEnd l f s).start = s.start ∧ (takePullEnd l f s).rgt.fingerprint = s.rgt.fingerprint ∧
    (takePullEnd l f s).ppt = s.ppt ∧ (takePullEnd l f s).pwq = s.pwq ∧ (takePullEnd l f s).mpu = s.mpu ∧
    (takePullEnd l f s).sgu.sigs = s.sgu.sigs ∧ (takePullEnd l f s).cju.resend = s.cju.resend ∧
    (takePullEnd l f s).cju.timer = s.cju.timer ∧ (takePullEnd l f s).ptu = s.ptu ∧
    (takePullEnd l f s).lkc.helloTimer = s.lkc.helloTimer ∧ (takePullEnd l f s).lkc.peers = s.lkc.peers ∧
    (takePullEnd l f s).vtu.deciding = s.vtu.deciding ∧ (takePullEnd l f s).vtu.last = s.vtu.last ∧
    (takePullEnd l f s).vtu.own = s.vtu.own ∧ (takePullEnd l f s).vtu.timer = s.vtu.timer ∧
    (takePullEnd l f s).rse.service = s.rse.service ∧ (takePullEnd l f s).cmu.buffer = s.cmu.buffer ∧
    (takePullEnd l f s).cmu.header = s.cmu.header ∧ (takePullEnd l f s).cmu.mask = s.cmu.mask ∧
    (takePullEnd l f s).cmu.ms = s.cmu.ms ∧ (takePullEnd l f s).cmu.request = s.cmu.request ∧
    (takePullEnd l f s).cmu.response = s.cmu.response := by
  unfold takePullEnd; (repeat' split) <;> simp

@[simp] theorem markResend_keeps (s : State) :
    (markResend s).pending = s.pending ∧ (markResend s).resetLow = s.resetLow ∧ (markResend s).position = s.position ∧
    (markResend s).dev = s.dev ∧ (markResend s).times = s.times ∧ (markResend s).start = s.start ∧
    (markResend s).rgt = s.rgt ∧ (markResend s).ppt = s.ppt ∧ (markResend s).pwq = s.pwq ∧ (markResend s).mpu = s.mpu
    ∧ (markResend s).sgu = s.sgu ∧ (markResend s).cju.chan = s.cju.chan ∧ (markResend s).cju.cycle = s.cju.cycle ∧
    (markResend s).cju.journal = s.cju.journal ∧ (markResend s).cju.repair = s.cju.repair ∧
    (markResend s).cju.repairOverflow = s.cju.repairOverflow ∧ (markResend s).cju.timer = s.cju.timer ∧
    (markResend s).cju.unrevertible = s.cju.unrevertible ∧ (markResend s).cju.wCur = s.cju.wCur ∧
    (markResend s).cju.wPrev = s.cju.wPrev ∧ (markResend s).cju.wPrevValid = s.cju.wPrevValid ∧
    (markResend s).ptu = s.ptu ∧ (markResend s).lkc = s.lkc ∧ (markResend s).vtu = s.vtu ∧ (markResend s).rse = s.rse
    ∧ (markResend s).cmu = s.cmu := by
  unfold markResend; (repeat' split) <;> simp

@[simp] theorem advance_keeps (f : VoteFrame) (s : State) :
    (advance f s).pending = s.pending ∧ (advance f s).resetLow = s.resetLow ∧ (advance f s).position = s.position ∧
    (advance f s).dev = s.dev ∧ (advance f s).times = s.times ∧ (advance f s).start = s.start ∧
    (advance f s).rgt = s.rgt ∧ (advance f s).ppt = s.ppt ∧ (advance f s).pwq = s.pwq ∧ (advance f s).mpu = s.mpu ∧
    (advance f s).sgu = s.sgu ∧ (advance f s).cju.chan = s.cju.chan ∧ (advance f s).cju.repair = s.cju.repair ∧
    (advance f s).cju.repairOverflow = s.cju.repairOverflow ∧ (advance f s).cju.resend = s.cju.resend ∧
    (advance f s).cju.timer = s.cju.timer ∧ (advance f s).ptu = s.ptu ∧ (advance f s).lkc = s.lkc ∧
    (advance f s).vtu.agreedBase = s.vtu.agreedBase ∧ (advance f s).vtu.deciding = s.vtu.deciding ∧
    (advance f s).vtu.last = s.vtu.last ∧ (advance f s).vtu.level = s.vtu.level ∧ (advance f s).vtu.own = s.vtu.own ∧
    (advance f s).vtu.permitted = s.vtu.permitted ∧ (advance f s).vtu.table = s.vtu.table ∧
    (advance f s).vtu.timer = s.vtu.timer ∧ (advance f s).rse = s.rse ∧ (advance f s).cmu = s.cmu := by
  simp [advance]

@[simp] theorem staleDelta_keeps (s : State) :
    (staleDelta s).pending = s.pending ∧ (staleDelta s).resetLow = s.resetLow ∧ (staleDelta s).position = s.position ∧
    (staleDelta s).dev = s.dev ∧ (staleDelta s).times = s.times ∧ (staleDelta s).start = s.start ∧
    (staleDelta s).rgt = s.rgt ∧ (staleDelta s).ppt = s.ppt ∧ (staleDelta s).pwq = s.pwq ∧ (staleDelta s).mpu = s.mpu
    ∧ (staleDelta s).sgu = s.sgu ∧ (staleDelta s).cju.chan = s.cju.chan ∧ (staleDelta s).cju.cycle = s.cju.cycle ∧
    (staleDelta s).cju.journal = s.cju.journal ∧ (staleDelta s).cju.repair = s.cju.repair ∧
    (staleDelta s).cju.repairOverflow = s.cju.repairOverflow ∧ (staleDelta s).cju.timer = s.cju.timer ∧
    (staleDelta s).cju.unrevertible = s.cju.unrevertible ∧ (staleDelta s).cju.wCur = s.cju.wCur ∧
    (staleDelta s).cju.wPrev = s.cju.wPrev ∧ (staleDelta s).cju.wPrevValid = s.cju.wPrevValid ∧
    (staleDelta s).ptu = s.ptu ∧ (staleDelta s).lkc.helloTimer = s.lkc.helloTimer ∧
    (staleDelta s).lkc.peers = s.lkc.peers ∧ (staleDelta s).vtu = s.vtu ∧ (staleDelta s).rse.pull = s.rse.pull ∧
    (staleDelta s).rse.service.credits = s.rse.service.credits ∧ (staleDelta s).rse.service.kind = s.rse.service.kind
    ∧ (staleDelta s).rse.service.regionSet = s.rse.service.regionSet ∧
    (staleDelta s).rse.service.repair = s.rse.service.repair ∧
    (staleDelta s).rse.service.requester = s.rse.service.requester ∧
    (staleDelta s).rse.service.sendPos = s.rse.service.sendPos ∧ (staleDelta s).rse.service.sent = s.rse.service.sent
    ∧ (staleDelta s).rse.service.walkPos = s.rse.service.walkPos ∧ (staleDelta s).cmu.buffer = s.cmu.buffer ∧
    (staleDelta s).cmu.header = s.cmu.header ∧ (staleDelta s).cmu.mask = s.cmu.mask ∧ (staleDelta s).cmu.ms = s.cmu.ms
    ∧ (staleDelta s).cmu.request = s.cmu.request ∧ (staleDelta s).cmu.response = s.cmu.response := by
  unfold staleDelta; (repeat' split) <;> simp

@[simp] theorem memberOutcome_keeps (f : VoteFrame) (s : State) :
    (memberOutcome f s).pending = s.pending ∧ (memberOutcome f s).resetLow = s.resetLow ∧
    (memberOutcome f s).position = s.position ∧ (memberOutcome f s).dev = s.dev ∧ (memberOutcome f s).times = s.times
    ∧ (memberOutcome f s).start = s.start ∧ (memberOutcome f s).rgt = s.rgt ∧ (memberOutcome f s).ppt = s.ppt ∧
    (memberOutcome f s).pwq = s.pwq ∧ (memberOutcome f s).mpu = s.mpu ∧ (memberOutcome f s).sgu = s.sgu ∧
    (memberOutcome f s).cju.repair = s.cju.repair ∧ (memberOutcome f s).cju.repairOverflow = s.cju.repairOverflow ∧
    (memberOutcome f s).cju.timer = s.cju.timer ∧ (memberOutcome f s).ptu = s.ptu ∧
    (memberOutcome f s).lkc.helloTimer = s.lkc.helloTimer ∧ (memberOutcome f s).lkc.peers = s.lkc.peers ∧
    (memberOutcome f s).vtu.deciding = s.vtu.deciding ∧ (memberOutcome f s).vtu.last = s.vtu.last ∧
    (memberOutcome f s).vtu.own = s.vtu.own ∧ (memberOutcome f s).vtu.table = s.vtu.table ∧
    (memberOutcome f s).vtu.timer = s.vtu.timer ∧ (memberOutcome f s).rse.pull = s.rse.pull ∧
    (memberOutcome f s).rse.service.credits = s.rse.service.credits ∧
    (memberOutcome f s).rse.service.kind = s.rse.service.kind ∧
    (memberOutcome f s).rse.service.regionSet = s.rse.service.regionSet ∧
    (memberOutcome f s).rse.service.repair = s.rse.service.repair ∧
    (memberOutcome f s).rse.service.requester = s.rse.service.requester ∧
    (memberOutcome f s).rse.service.sendPos = s.rse.service.sendPos ∧
    (memberOutcome f s).rse.service.sent = s.rse.service.sent ∧
    (memberOutcome f s).rse.service.walkPos = s.rse.service.walkPos ∧ (memberOutcome f s).cmu.buffer = s.cmu.buffer ∧
    (memberOutcome f s).cmu.header = s.cmu.header ∧ (memberOutcome f s).cmu.mask = s.cmu.mask ∧
    (memberOutcome f s).cmu.ms = s.cmu.ms ∧ (memberOutcome f s).cmu.request = s.cmu.request ∧
    (memberOutcome f s).cmu.response = s.cmu.response := by
  simp only [memberOutcome]; (repeat' split) <;> simp

@[simp] theorem emptyNext_keeps (s : State) :
    (emptyNext s).pending = s.pending ∧ (emptyNext s).resetLow = s.resetLow ∧ (emptyNext s).position = s.position ∧
    (emptyNext s).dev = s.dev ∧ (emptyNext s).times = s.times ∧ (emptyNext s).start = s.start ∧
    (emptyNext s).rgt = s.rgt ∧ (emptyNext s).ppt = s.ppt ∧ (emptyNext s).pwq = s.pwq ∧ (emptyNext s).mpu = s.mpu ∧
    (emptyNext s).sgu = s.sgu ∧ (emptyNext s).cju = s.cju ∧ (emptyNext s).ptu = s.ptu ∧ (emptyNext s).lkc = s.lkc ∧
    (emptyNext s).vtu.agreedBase = s.vtu.agreedBase ∧ (emptyNext s).vtu.closedSet = s.vtu.closedSet ∧
    (emptyNext s).vtu.deciding = s.vtu.deciding ∧ (emptyNext s).vtu.last = s.vtu.last ∧
    (emptyNext s).vtu.level = s.vtu.level ∧ (emptyNext s).vtu.own = s.vtu.own ∧
    (emptyNext s).vtu.permitted = s.vtu.permitted ∧ (emptyNext s).vtu.timer = s.vtu.timer ∧ (emptyNext s).rse = s.rse
    ∧ (emptyNext s).cmu = s.cmu := by
  simp [emptyNext]

@[simp] theorem abandonOutcome_keeps (s : State) :
    (abandonOutcome s).pending = s.pending ∧ (abandonOutcome s).resetLow = s.resetLow ∧
    (abandonOutcome s).position = s.position ∧ (abandonOutcome s).dev = s.dev ∧ (abandonOutcome s).times = s.times ∧
    (abandonOutcome s).start = s.start ∧ (abandonOutcome s).rgt = s.rgt ∧ (abandonOutcome s).ppt = s.ppt ∧
    (abandonOutcome s).pwq = s.pwq ∧ (abandonOutcome s).mpu = s.mpu ∧ (abandonOutcome s).sgu = s.sgu ∧
    (abandonOutcome s).cju.cycle = s.cju.cycle ∧ (abandonOutcome s).cju.repair = s.cju.repair ∧
    (abandonOutcome s).cju.repairOverflow = s.cju.repairOverflow ∧ (abandonOutcome s).cju.resend = s.cju.resend ∧
    (abandonOutcome s).cju.timer = s.cju.timer ∧ (abandonOutcome s).cju.wPrev = s.cju.wPrev ∧
    (abandonOutcome s).cju.wPrevValid = s.cju.wPrevValid ∧ (abandonOutcome s).ptu = s.ptu ∧
    (abandonOutcome s).lkc.helloTimer = s.lkc.helloTimer ∧ (abandonOutcome s).lkc.peers = s.lkc.peers ∧
    (abandonOutcome s).vtu.agreedBase = s.vtu.agreedBase ∧ (abandonOutcome s).vtu.closedSet = s.vtu.closedSet ∧
    (abandonOutcome s).vtu.deciding = s.vtu.deciding ∧ (abandonOutcome s).vtu.last = s.vtu.last ∧
    (abandonOutcome s).vtu.own = s.vtu.own ∧ (abandonOutcome s).vtu.timer = s.vtu.timer ∧
    (abandonOutcome s).rse = s.rse ∧ (abandonOutcome s).cmu.buffer = s.cmu.buffer ∧
    (abandonOutcome s).cmu.header = s.cmu.header ∧ (abandonOutcome s).cmu.mask = s.cmu.mask ∧
    (abandonOutcome s).cmu.ms = s.cmu.ms ∧ (abandonOutcome s).cmu.request = s.cmu.request ∧
    (abandonOutcome s).cmu.response = s.cmu.response := by
  simp [abandonOutcome]

@[simp] theorem noQuorumOutcome_keeps (f : VoteFrame) (s : State) :
    (noQuorumOutcome f s).pending = s.pending ∧ (noQuorumOutcome f s).resetLow = s.resetLow ∧
    (noQuorumOutcome f s).position = s.position ∧ (noQuorumOutcome f s).dev = s.dev ∧
    (noQuorumOutcome f s).times = s.times ∧ (noQuorumOutcome f s).start = s.start ∧ (noQuorumOutcome f s).rgt = s.rgt
    ∧ (noQuorumOutcome f s).ppt = s.ppt ∧ (noQuorumOutcome f s).pwq = s.pwq ∧ (noQuorumOutcome f s).mpu = s.mpu ∧
    (noQuorumOutcome f s).sgu = s.sgu ∧ (noQuorumOutcome f s).cju.repair = s.cju.repair ∧
    (noQuorumOutcome f s).cju.repairOverflow = s.cju.repairOverflow ∧ (noQuorumOutcome f s).cju.timer = s.cju.timer ∧
    (noQuorumOutcome f s).ptu = s.ptu ∧ (noQuorumOutcome f s).lkc.helloTimer = s.lkc.helloTimer ∧
    (noQuorumOutcome f s).lkc.peers = s.lkc.peers ∧ (noQuorumOutcome f s).vtu.deciding = s.vtu.deciding ∧
    (noQuorumOutcome f s).vtu.last = s.vtu.last ∧ (noQuorumOutcome f s).vtu.own = s.vtu.own ∧
    (noQuorumOutcome f s).vtu.timer = s.vtu.timer ∧ (noQuorumOutcome f s).rse.pull = s.rse.pull ∧
    (noQuorumOutcome f s).rse.service.credits = s.rse.service.credits ∧
    (noQuorumOutcome f s).rse.service.kind = s.rse.service.kind ∧
    (noQuorumOutcome f s).rse.service.regionSet = s.rse.service.regionSet ∧
    (noQuorumOutcome f s).rse.service.repair = s.rse.service.repair ∧
    (noQuorumOutcome f s).rse.service.requester = s.rse.service.requester ∧
    (noQuorumOutcome f s).rse.service.sendPos = s.rse.service.sendPos ∧
    (noQuorumOutcome f s).rse.service.sent = s.rse.service.sent ∧
    (noQuorumOutcome f s).rse.service.walkPos = s.rse.service.walkPos ∧
    (noQuorumOutcome f s).cmu.buffer = s.cmu.buffer ∧ (noQuorumOutcome f s).cmu.header = s.cmu.header ∧
    (noQuorumOutcome f s).cmu.mask = s.cmu.mask ∧ (noQuorumOutcome f s).cmu.ms = s.cmu.ms ∧
    (noQuorumOutcome f s).cmu.request = s.cmu.request ∧ (noQuorumOutcome f s).cmu.response = s.cmu.response := by
  unfold noQuorumOutcome; (repeat' split) <;> simp

@[simp] theorem outvotedOutcome_keeps (s : State) :
    (outvotedOutcome s).pending = s.pending ∧ (outvotedOutcome s).resetLow = s.resetLow ∧
    (outvotedOutcome s).position = s.position ∧ (outvotedOutcome s).dev = s.dev ∧ (outvotedOutcome s).times = s.times
    ∧ (outvotedOutcome s).start = s.start ∧ (outvotedOutcome s).rgt = s.rgt ∧ (outvotedOutcome s).ppt = s.ppt ∧
    (outvotedOutcome s).pwq = s.pwq ∧ (outvotedOutcome s).mpu = s.mpu ∧ (outvotedOutcome s).sgu = s.sgu ∧
    (outvotedOutcome s).cju.cycle = s.cju.cycle ∧ (outvotedOutcome s).cju.journal = s.cju.journal ∧
    (outvotedOutcome s).cju.repair = s.cju.repair ∧ (outvotedOutcome s).cju.repairOverflow = s.cju.repairOverflow ∧
    (outvotedOutcome s).cju.timer = s.cju.timer ∧ (outvotedOutcome s).cju.unrevertible = s.cju.unrevertible ∧
    (outvotedOutcome s).cju.wCur = s.cju.wCur ∧ (outvotedOutcome s).cju.wPrev = s.cju.wPrev ∧
    (outvotedOutcome s).cju.wPrevValid = s.cju.wPrevValid ∧ (outvotedOutcome s).ptu = s.ptu ∧
    (outvotedOutcome s).lkc.helloTimer = s.lkc.helloTimer ∧ (outvotedOutcome s).lkc.peers = s.lkc.peers ∧
    (outvotedOutcome s).vtu.agreedBase = s.vtu.agreedBase ∧ (outvotedOutcome s).vtu.closedSet = s.vtu.closedSet ∧
    (outvotedOutcome s).vtu.deciding = s.vtu.deciding ∧ (outvotedOutcome s).vtu.last = s.vtu.last ∧
    (outvotedOutcome s).vtu.own = s.vtu.own ∧ (outvotedOutcome s).vtu.table = s.vtu.table ∧
    (outvotedOutcome s).vtu.timer = s.vtu.timer ∧ (outvotedOutcome s).rse.pull = s.rse.pull ∧
    (outvotedOutcome s).rse.service.credits = s.rse.service.credits ∧
    (outvotedOutcome s).rse.service.kind = s.rse.service.kind ∧
    (outvotedOutcome s).rse.service.regionSet = s.rse.service.regionSet ∧
    (outvotedOutcome s).rse.service.repair = s.rse.service.repair ∧
    (outvotedOutcome s).rse.service.requester = s.rse.service.requester ∧
    (outvotedOutcome s).rse.service.sendPos = s.rse.service.sendPos ∧
    (outvotedOutcome s).rse.service.sent = s.rse.service.sent ∧
    (outvotedOutcome s).rse.service.walkPos = s.rse.service.walkPos ∧ (outvotedOutcome s).cmu.buffer = s.cmu.buffer ∧
    (outvotedOutcome s).cmu.header = s.cmu.header ∧ (outvotedOutcome s).cmu.mask = s.cmu.mask ∧
    (outvotedOutcome s).cmu.ms = s.cmu.ms ∧ (outvotedOutcome s).cmu.request = s.cmu.request ∧
    (outvotedOutcome s).cmu.response = s.cmu.response := by
  simp [outvotedOutcome]

@[simp] theorem excludedOutcome_keeps (s : State) :
    (excludedOutcome s).pending = s.pending ∧ (excludedOutcome s).resetLow = s.resetLow ∧
    (excludedOutcome s).position = s.position ∧ (excludedOutcome s).dev = s.dev ∧ (excludedOutcome s).times = s.times
    ∧ (excludedOutcome s).start = s.start ∧ (excludedOutcome s).rgt = s.rgt ∧ (excludedOutcome s).ppt = s.ppt ∧
    (excludedOutcome s).pwq = s.pwq ∧ (excludedOutcome s).mpu = s.mpu ∧ (excludedOutcome s).sgu = s.sgu ∧
    (excludedOutcome s).cju.cycle = s.cju.cycle ∧ (excludedOutcome s).cju.repair = s.cju.repair ∧
    (excludedOutcome s).cju.repairOverflow = s.cju.repairOverflow ∧ (excludedOutcome s).cju.timer = s.cju.timer ∧
    (excludedOutcome s).ptu = s.ptu ∧ (excludedOutcome s).lkc.helloTimer = s.lkc.helloTimer ∧
    (excludedOutcome s).lkc.peers = s.lkc.peers ∧ (excludedOutcome s).vtu.closedSet = s.vtu.closedSet ∧
    (excludedOutcome s).vtu.deciding = s.vtu.deciding ∧ (excludedOutcome s).vtu.last = s.vtu.last ∧
    (excludedOutcome s).vtu.own = s.vtu.own ∧ (excludedOutcome s).vtu.table = s.vtu.table ∧
    (excludedOutcome s).vtu.timer = s.vtu.timer ∧ (excludedOutcome s).rse.pull = s.rse.pull ∧
    (excludedOutcome s).rse.service.credits = s.rse.service.credits ∧
    (excludedOutcome s).rse.service.kind = s.rse.service.kind ∧
    (excludedOutcome s).rse.service.regionSet = s.rse.service.regionSet ∧
    (excludedOutcome s).rse.service.repair = s.rse.service.repair ∧
    (excludedOutcome s).rse.service.requester = s.rse.service.requester ∧
    (excludedOutcome s).rse.service.sendPos = s.rse.service.sendPos ∧
    (excludedOutcome s).rse.service.sent = s.rse.service.sent ∧
    (excludedOutcome s).rse.service.walkPos = s.rse.service.walkPos ∧ (excludedOutcome s).cmu.buffer = s.cmu.buffer ∧
    (excludedOutcome s).cmu.header = s.cmu.header ∧ (excludedOutcome s).cmu.mask = s.cmu.mask ∧
    (excludedOutcome s).cmu.ms = s.cmu.ms ∧ (excludedOutcome s).cmu.request = s.cmu.request ∧
    (excludedOutcome s).cmu.response = s.cmu.response := by
  simp [excludedOutcome]

@[simp] theorem applyOutcome_keeps (o : VoteOutcome) (f : VoteFrame) (s : State) :
    (applyOutcome o f s).pending = s.pending ∧ (applyOutcome o f s).resetLow = s.resetLow ∧
    (applyOutcome o f s).position = s.position ∧ (applyOutcome o f s).dev = s.dev ∧
    (applyOutcome o f s).times = s.times ∧ (applyOutcome o f s).start = s.start ∧ (applyOutcome o f s).rgt = s.rgt ∧
    (applyOutcome o f s).ppt = s.ppt ∧ (applyOutcome o f s).pwq = s.pwq ∧ (applyOutcome o f s).mpu = s.mpu ∧
    (applyOutcome o f s).sgu = s.sgu ∧ (applyOutcome o f s).cju.repair = s.cju.repair ∧
    (applyOutcome o f s).cju.repairOverflow = s.cju.repairOverflow ∧ (applyOutcome o f s).cju.timer = s.cju.timer ∧
    (applyOutcome o f s).ptu = s.ptu ∧ (applyOutcome o f s).lkc.helloTimer = s.lkc.helloTimer ∧
    (applyOutcome o f s).lkc.peers = s.lkc.peers ∧ (applyOutcome o f s).vtu.deciding = s.vtu.deciding ∧
    (applyOutcome o f s).vtu.last = s.vtu.last ∧ (applyOutcome o f s).vtu.own = s.vtu.own ∧
    (applyOutcome o f s).vtu.timer = s.vtu.timer ∧ (applyOutcome o f s).rse.pull = s.rse.pull ∧
    (applyOutcome o f s).rse.service.credits = s.rse.service.credits ∧
    (applyOutcome o f s).rse.service.kind = s.rse.service.kind ∧
    (applyOutcome o f s).rse.service.regionSet = s.rse.service.regionSet ∧
    (applyOutcome o f s).rse.service.repair = s.rse.service.repair ∧
    (applyOutcome o f s).rse.service.requester = s.rse.service.requester ∧
    (applyOutcome o f s).rse.service.sendPos = s.rse.service.sendPos ∧
    (applyOutcome o f s).rse.service.sent = s.rse.service.sent ∧
    (applyOutcome o f s).rse.service.walkPos = s.rse.service.walkPos ∧ (applyOutcome o f s).cmu.buffer = s.cmu.buffer
    ∧ (applyOutcome o f s).cmu.header = s.cmu.header ∧ (applyOutcome o f s).cmu.mask = s.cmu.mask ∧
    (applyOutcome o f s).cmu.ms = s.cmu.ms ∧ (applyOutcome o f s).cmu.request = s.cmu.request ∧
    (applyOutcome o f s).cmu.response = s.cmu.response := by
  unfold applyOutcome; (repeat' split) <;> simp

@[simp] theorem setViews_keeps (f : VoteFrame) (g : PerLink (Option VoteFrame)) (s : State) :
    (setViews f g s).pending = s.pending ∧ (setViews f g s).resetLow = s.resetLow ∧
    (setViews f g s).position = s.position ∧ (setViews f g s).dev = s.dev ∧ (setViews f g s).times = s.times ∧
    (setViews f g s).start = s.start ∧ (setViews f g s).rgt = s.rgt ∧ (setViews f g s).ppt = s.ppt ∧
    (setViews f g s).pwq = s.pwq ∧ (setViews f g s).mpu = s.mpu ∧ (setViews f g s).sgu = s.sgu ∧
    (setViews f g s).cju = s.cju ∧ (setViews f g s).ptu = s.ptu ∧ (setViews f g s).lkc.helloTimer = s.lkc.helloTimer ∧
    (setViews f g s).lkc.tx = s.lkc.tx ∧ (setViews f g s).vtu = s.vtu ∧ (setViews f g s).rse = s.rse ∧
    (setViews f g s).cmu = s.cmu := by
  simp [setViews]

@[simp] theorem recordDecision_keeps (d : Decision) (s : State) :
    (recordDecision d s).pending = s.pending ∧ (recordDecision d s).resetLow = s.resetLow ∧
    (recordDecision d s).position = s.position ∧ (recordDecision d s).dev = s.dev ∧
    (recordDecision d s).times = s.times ∧ (recordDecision d s).start = s.start ∧ (recordDecision d s).rgt = s.rgt ∧
    (recordDecision d s).ppt = s.ppt ∧ (recordDecision d s).pwq = s.pwq ∧ (recordDecision d s).mpu = s.mpu ∧
    (recordDecision d s).sgu = s.sgu ∧ (recordDecision d s).cju = s.cju ∧ (recordDecision d s).ptu = s.ptu ∧
    (recordDecision d s).lkc = s.lkc ∧ (recordDecision d s).vtu.agreedBase = s.vtu.agreedBase ∧
    (recordDecision d s).vtu.closedSet = s.vtu.closedSet ∧ (recordDecision d s).vtu.deciding = s.vtu.deciding ∧
    (recordDecision d s).vtu.level = s.vtu.level ∧ (recordDecision d s).vtu.own = s.vtu.own ∧
    (recordDecision d s).vtu.permitted = s.vtu.permitted ∧ (recordDecision d s).vtu.table = s.vtu.table ∧
    (recordDecision d s).vtu.timer = s.vtu.timer ∧ (recordDecision d s).rse = s.rse ∧
    (recordDecision d s).cmu.buffer = s.cmu.buffer ∧ (recordDecision d s).cmu.header = s.cmu.header ∧
    (recordDecision d s).cmu.mask = s.cmu.mask ∧ (recordDecision d s).cmu.ms = s.cmu.ms ∧
    (recordDecision d s).cmu.request = s.cmu.request ∧ (recordDecision d s).cmu.response = s.cmu.response := by
  simp only [recordDecision]; (repeat' split) <;> simp

@[simp] theorem afterDecision_keeps (o : VoteOutcome) (l : Option Link) (s : State) :
    (afterDecision o l s).pending = s.pending ∧ (afterDecision o l s).resetLow = s.resetLow ∧
    (afterDecision o l s).position = s.position ∧ (afterDecision o l s).dev = s.dev ∧
    (afterDecision o l s).times = s.times ∧ (afterDecision o l s).start = s.start ∧ (afterDecision o l s).rgt = s.rgt
    ∧ (afterDecision o l s).ppt = s.ppt ∧ (afterDecision o l s).pwq = s.pwq ∧ (afterDecision o l s).mpu = s.mpu ∧
    (afterDecision o l s).sgu = s.sgu ∧ (afterDecision o l s).cju.cycle = s.cju.cycle ∧
    (afterDecision o l s).cju.journal = s.cju.journal ∧ (afterDecision o l s).cju.repair = s.cju.repair ∧
    (afterDecision o l s).cju.repairOverflow = s.cju.repairOverflow ∧ (afterDecision o l s).cju.resend = s.cju.resend
    ∧ (afterDecision o l s).cju.timer = s.cju.timer ∧ (afterDecision o l s).cju.unrevertible = s.cju.unrevertible ∧
    (afterDecision o l s).cju.wCur = s.cju.wCur ∧ (afterDecision o l s).ptu = s.ptu ∧
    (afterDecision o l s).lkc.helloTimer = s.lkc.helloTimer ∧ (afterDecision o l s).lkc.peers = s.lkc.peers ∧
    (afterDecision o l s).vtu.agreedBase = s.vtu.agreedBase ∧ (afterDecision o l s).vtu.closedSet = s.vtu.closedSet ∧
    (afterDecision o l s).vtu.deciding = s.vtu.deciding ∧ (afterDecision o l s).vtu.last = s.vtu.last ∧
    (afterDecision o l s).vtu.own = s.vtu.own ∧ (afterDecision o l s).vtu.table = s.vtu.table ∧
    (afterDecision o l s).vtu.timer = s.vtu.timer ∧ (afterDecision o l s).rse.pull.attempts = s.rse.pull.attempts ∧
    (afterDecision o l s).rse.service = s.rse.service ∧ (afterDecision o l s).cmu.buffer = s.cmu.buffer ∧
    (afterDecision o l s).cmu.header = s.cmu.header ∧ (afterDecision o l s).cmu.mask = s.cmu.mask ∧
    (afterDecision o l s).cmu.ms = s.cmu.ms ∧ (afterDecision o l s).cmu.request = s.cmu.request ∧
    (afterDecision o l s).cmu.response = s.cmu.response := by
  unfold afterDecision; (repeat' split) <;> simp

@[simp] theorem completeDecision_keeps (o : VoteOutcome) (l : Option Link) (f : VoteFrame) (g : PerLink (Option VoteFrame)) (s : State) :
    (completeDecision o l f g s).pending = s.pending ∧ (completeDecision o l f g s).resetLow = s.resetLow ∧
    (completeDecision o l f g s).position = s.position ∧ (completeDecision o l f g s).dev = s.dev ∧
    (completeDecision o l f g s).times = s.times ∧ (completeDecision o l f g s).start = s.start ∧
    (completeDecision o l f g s).rgt = s.rgt ∧ (completeDecision o l f g s).ppt = s.ppt ∧
    (completeDecision o l f g s).pwq = s.pwq ∧ (completeDecision o l f g s).mpu = s.mpu ∧
    (completeDecision o l f g s).sgu = s.sgu ∧ (completeDecision o l f g s).cju.repair = s.cju.repair ∧
    (completeDecision o l f g s).cju.repairOverflow = s.cju.repairOverflow ∧
    (completeDecision o l f g s).cju.timer = s.cju.timer ∧ (completeDecision o l f g s).ptu = s.ptu ∧
    (completeDecision o l f g s).lkc.helloTimer = s.lkc.helloTimer ∧
    (completeDecision o l f g s).vtu.deciding = s.vtu.deciding ∧ (completeDecision o l f g s).vtu.own = s.vtu.own ∧
    (completeDecision o l f g s).vtu.timer = s.vtu.timer ∧
    (completeDecision o l f g s).rse.pull.attempts = s.rse.pull.attempts ∧
    (completeDecision o l f g s).rse.service.credits = s.rse.service.credits ∧
    (completeDecision o l f g s).rse.service.kind = s.rse.service.kind ∧
    (completeDecision o l f g s).rse.service.regionSet = s.rse.service.regionSet ∧
    (completeDecision o l f g s).rse.service.repair = s.rse.service.repair ∧
    (completeDecision o l f g s).rse.service.requester = s.rse.service.requester ∧
    (completeDecision o l f g s).rse.service.sendPos = s.rse.service.sendPos ∧
    (completeDecision o l f g s).rse.service.sent = s.rse.service.sent ∧
    (completeDecision o l f g s).rse.service.walkPos = s.rse.service.walkPos ∧
    (completeDecision o l f g s).cmu.buffer = s.cmu.buffer ∧ (completeDecision o l f g s).cmu.header = s.cmu.header ∧
    (completeDecision o l f g s).cmu.mask = s.cmu.mask ∧ (completeDecision o l f g s).cmu.ms = s.cmu.ms ∧
    (completeDecision o l f g s).cmu.request = s.cmu.request ∧
    (completeDecision o l f g s).cmu.response = s.cmu.response := by
  simp [completeDecision]

@[simp] theorem checkRegion_keeps (e : Nat × Region) (s : State) :
    (checkRegion s e).pending = s.pending ∧ (checkRegion s e).resetLow = s.resetLow ∧
    (checkRegion s e).position = s.position ∧ (checkRegion s e).dev = s.dev ∧ (checkRegion s e).times = s.times ∧
    (checkRegion s e).start = s.start ∧ (checkRegion s e).rgt.fingerprint = s.rgt.fingerprint ∧
    (checkRegion s e).ppt = s.ppt ∧ (checkRegion s e).pwq = s.pwq ∧ (checkRegion s e).mpu = s.mpu ∧
    (checkRegion s e).sgu = s.sgu ∧ (checkRegion s e).cju = s.cju ∧ (checkRegion s e).ptu.enable = s.ptu.enable ∧
    (checkRegion s e).ptu.interval = s.ptu.interval ∧ (checkRegion s e).ptu.position = s.ptu.position ∧
    (checkRegion s e).ptu.acc = s.ptu.acc ∧ (checkRegion s e).ptu.timer = s.ptu.timer ∧
    (checkRegion s e).ptu.comparable = s.ptu.comparable ∧ (checkRegion s e).ptu.request = s.ptu.request ∧
    (checkRegion s e).lkc = s.lkc ∧ (checkRegion s e).vtu.agreedBase = s.vtu.agreedBase ∧
    (checkRegion s e).vtu.closedSet = s.vtu.closedSet ∧ (checkRegion s e).vtu.deciding = s.vtu.deciding ∧
    (checkRegion s e).vtu.last = s.vtu.last ∧ (checkRegion s e).vtu.own = s.vtu.own ∧
    (checkRegion s e).vtu.table = s.vtu.table ∧ (checkRegion s e).vtu.timer = s.vtu.timer ∧
    (checkRegion s e).rse.pull.attempts = s.rse.pull.attempts ∧
    (checkRegion s e).rse.pull.buffers = s.rse.pull.buffers ∧ (checkRegion s e).rse.pull.ending = s.rse.pull.ending ∧
    (checkRegion s e).rse.pull.kind = s.rse.pull.kind ∧ (checkRegion s e).rse.pull.phase = s.rse.pull.phase ∧
    (checkRegion s e).rse.pull.received = s.rse.pull.received ∧
    (checkRegion s e).rse.pull.regionSet = s.rse.pull.regionSet ∧
    (checkRegion s e).rse.pull.server = s.rse.pull.server ∧ (checkRegion s e).rse.pull.target = s.rse.pull.target ∧
    (checkRegion s e).rse.pull.timer = s.rse.pull.timer ∧ (checkRegion s e).rse.service = s.rse.service ∧
    (checkRegion s e).cmu.buffer = s.cmu.buffer ∧ (checkRegion s e).cmu.header = s.cmu.header ∧
    (checkRegion s e).cmu.mask = s.cmu.mask ∧ (checkRegion s e).cmu.ms = s.cmu.ms ∧
    (checkRegion s e).cmu.request = s.cmu.request ∧ (checkRegion s e).cmu.response = s.cmu.response := by
  simp only [checkRegion]; (repeat' split) <;> simp

@[simp] theorem rollbackCheck_keeps (s : State) :
    (rollbackCheck s).pending = s.pending ∧ (rollbackCheck s).resetLow = s.resetLow ∧
    (rollbackCheck s).position = s.position ∧ (rollbackCheck s).dev = s.dev ∧ (rollbackCheck s).times = s.times ∧
    (rollbackCheck s).start = s.start ∧ (rollbackCheck s).rgt.fingerprint = s.rgt.fingerprint ∧
    (rollbackCheck s).ppt = s.ppt ∧ (rollbackCheck s).pwq = s.pwq ∧ (rollbackCheck s).mpu = s.mpu ∧
    (rollbackCheck s).sgu = s.sgu ∧ (rollbackCheck s).cju = s.cju ∧ (rollbackCheck s).ptu.enable = s.ptu.enable ∧
    (rollbackCheck s).ptu.interval = s.ptu.interval ∧ (rollbackCheck s).ptu.position = s.ptu.position ∧
    (rollbackCheck s).ptu.acc = s.ptu.acc ∧ (rollbackCheck s).ptu.timer = s.ptu.timer ∧
    (rollbackCheck s).ptu.comparable = s.ptu.comparable ∧ (rollbackCheck s).ptu.request = s.ptu.request ∧
    (rollbackCheck s).lkc = s.lkc ∧ (rollbackCheck s).vtu.agreedBase = s.vtu.agreedBase ∧
    (rollbackCheck s).vtu.closedSet = s.vtu.closedSet ∧ (rollbackCheck s).vtu.deciding = s.vtu.deciding ∧
    (rollbackCheck s).vtu.last = s.vtu.last ∧ (rollbackCheck s).vtu.own = s.vtu.own ∧
    (rollbackCheck s).vtu.table = s.vtu.table ∧ (rollbackCheck s).vtu.timer = s.vtu.timer ∧
    (rollbackCheck s).rse.pull.attempts = s.rse.pull.attempts ∧
    (rollbackCheck s).rse.pull.buffers = s.rse.pull.buffers ∧ (rollbackCheck s).rse.pull.ending = s.rse.pull.ending ∧
    (rollbackCheck s).rse.pull.kind = s.rse.pull.kind ∧ (rollbackCheck s).rse.pull.phase = s.rse.pull.phase ∧
    (rollbackCheck s).rse.pull.received = s.rse.pull.received ∧
    (rollbackCheck s).rse.pull.regionSet = s.rse.pull.regionSet ∧
    (rollbackCheck s).rse.pull.server = s.rse.pull.server ∧ (rollbackCheck s).rse.pull.target = s.rse.pull.target ∧
    (rollbackCheck s).rse.pull.timer = s.rse.pull.timer ∧ (rollbackCheck s).rse.service = s.rse.service ∧
    (rollbackCheck s).cmu.buffer = s.cmu.buffer ∧ (rollbackCheck s).cmu.header = s.cmu.header ∧
    (rollbackCheck s).cmu.mask = s.cmu.mask ∧ (rollbackCheck s).cmu.ms = s.cmu.ms ∧
    (rollbackCheck s).cmu.request = s.cmu.request ∧ (rollbackCheck s).cmu.response = s.cmu.response := by
  unfold rollbackCheck
  generalize s.rgt.entries = l
  induction l generalizing s with
  | nil => simp
  | cons e l ih => simp [ih]

@[simp] theorem finishDecisionRollback_keeps (d : Deciding) (s : State) :
    (finishDecisionRollback d s).pending = s.pending ∧ (finishDecisionRollback d s).resetLow = s.resetLow ∧
    (finishDecisionRollback d s).position = s.position ∧ (finishDecisionRollback d s).dev = s.dev ∧
    (finishDecisionRollback d s).times = s.times ∧ (finishDecisionRollback d s).start = s.start ∧
    (finishDecisionRollback d s).rgt.fingerprint = s.rgt.fingerprint ∧ (finishDecisionRollback d s).ppt = s.ppt ∧
    (finishDecisionRollback d s).pwq = s.pwq ∧ (finishDecisionRollback d s).mpu = s.mpu ∧
    (finishDecisionRollback d s).sgu = s.sgu ∧ (finishDecisionRollback d s).cju.repair = s.cju.repair ∧
    (finishDecisionRollback d s).cju.repairOverflow = s.cju.repairOverflow ∧
    (finishDecisionRollback d s).cju.timer = s.cju.timer ∧ (finishDecisionRollback d s).ptu.enable = s.ptu.enable ∧
    (finishDecisionRollback d s).ptu.interval = s.ptu.interval ∧
    (finishDecisionRollback d s).ptu.position = s.ptu.position ∧ (finishDecisionRollback d s).ptu.acc = s.ptu.acc ∧
    (finishDecisionRollback d s).ptu.timer = s.ptu.timer ∧
    (finishDecisionRollback d s).ptu.comparable = s.ptu.comparable ∧
    (finishDecisionRollback d s).ptu.request = s.ptu.request ∧
    (finishDecisionRollback d s).lkc.helloTimer = s.lkc.helloTimer ∧
    (finishDecisionRollback d s).vtu.timer = s.vtu.timer ∧
    (finishDecisionRollback d s).rse.pull.attempts = s.rse.pull.attempts ∧
    (finishDecisionRollback d s).rse.service.credits = s.rse.service.credits ∧
    (finishDecisionRollback d s).rse.service.kind = s.rse.service.kind ∧
    (finishDecisionRollback d s).rse.service.regionSet = s.rse.service.regionSet ∧
    (finishDecisionRollback d s).rse.service.repair = s.rse.service.repair ∧
    (finishDecisionRollback d s).rse.service.requester = s.rse.service.requester ∧
    (finishDecisionRollback d s).rse.service.sendPos = s.rse.service.sendPos ∧
    (finishDecisionRollback d s).rse.service.sent = s.rse.service.sent ∧
    (finishDecisionRollback d s).rse.service.walkPos = s.rse.service.walkPos ∧
    (finishDecisionRollback d s).cmu.buffer = s.cmu.buffer ∧ (finishDecisionRollback d s).cmu.header = s.cmu.header ∧
    (finishDecisionRollback d s).cmu.mask = s.cmu.mask ∧ (finishDecisionRollback d s).cmu.ms = s.cmu.ms ∧
    (finishDecisionRollback d s).cmu.request = s.cmu.request ∧
    (finishDecisionRollback d s).cmu.response = s.cmu.response := by
  simp [finishDecisionRollback]

@[simp] theorem takeFrames_keeps (s : State) :
    (takeFrames s).pending = s.pending ∧ (takeFrames s).resetLow = s.resetLow ∧ (takeFrames s).position = s.position ∧
    (takeFrames s).dev = s.dev ∧ (takeFrames s).times = s.times ∧ (takeFrames s).start = s.start ∧
    (takeFrames s).rgt = s.rgt ∧ (takeFrames s).ppt = s.ppt ∧ (takeFrames s).pwq = s.pwq ∧ (takeFrames s).mpu = s.mpu
    ∧ (takeFrames s).sgu = s.sgu ∧ (takeFrames s).cju = s.cju ∧ (takeFrames s).ptu = s.ptu ∧
    (takeFrames s).lkc = s.lkc ∧ (takeFrames s).vtu.agreedBase = s.vtu.agreedBase ∧
    (takeFrames s).vtu.closedSet = s.vtu.closedSet ∧ (takeFrames s).vtu.deciding = s.vtu.deciding ∧
    (takeFrames s).vtu.last = s.vtu.last ∧ (takeFrames s).vtu.level = s.vtu.level ∧ (takeFrames s).vtu.own = s.vtu.own
    ∧ (takeFrames s).vtu.permitted = s.vtu.permitted ∧ (takeFrames s).rse = s.rse ∧ (takeFrames s).cmu = s.cmu := by
  simp [takeFrames]

@[simp] theorem takeDecision_keeps (s : State) :
    (takeDecision s).pending = s.pending ∧ (takeDecision s).resetLow = s.resetLow ∧
    (takeDecision s).position = s.position ∧ (takeDecision s).dev = s.dev ∧ (takeDecision s).times = s.times ∧
    (takeDecision s).start = s.start ∧ (takeDecision s).rgt.fingerprint = s.rgt.fingerprint ∧
    (takeDecision s).ppt = s.ppt ∧ (takeDecision s).pwq = s.pwq ∧ (takeDecision s).mpu = s.mpu ∧
    (takeDecision s).sgu = s.sgu ∧ (takeDecision s).cju.repair = s.cju.repair ∧
    (takeDecision s).cju.repairOverflow = s.cju.repairOverflow ∧ (takeDecision s).cju.timer = s.cju.timer ∧
    (takeDecision s).ptu.enable = s.ptu.enable ∧ (takeDecision s).ptu.interval = s.ptu.interval ∧
    (takeDecision s).ptu.position = s.ptu.position ∧ (takeDecision s).ptu.acc = s.ptu.acc ∧
    (takeDecision s).ptu.timer = s.ptu.timer ∧ (takeDecision s).ptu.comparable = s.ptu.comparable ∧
    (takeDecision s).ptu.request = s.ptu.request ∧ (takeDecision s).lkc.helloTimer = s.lkc.helloTimer ∧
    (takeDecision s).rse.pull.attempts = s.rse.pull.attempts ∧
    (takeDecision s).rse.service.credits = s.rse.service.credits ∧
    (takeDecision s).rse.service.kind = s.rse.service.kind ∧
    (takeDecision s).rse.service.regionSet = s.rse.service.regionSet ∧
    (takeDecision s).rse.service.repair = s.rse.service.repair ∧
    (takeDecision s).rse.service.requester = s.rse.service.requester ∧
    (takeDecision s).rse.service.sendPos = s.rse.service.sendPos ∧
    (takeDecision s).rse.service.sent = s.rse.service.sent ∧
    (takeDecision s).rse.service.walkPos = s.rse.service.walkPos ∧ (takeDecision s).cmu.buffer = s.cmu.buffer ∧
    (takeDecision s).cmu.header = s.cmu.header ∧ (takeDecision s).cmu.mask = s.cmu.mask ∧
    (takeDecision s).cmu.ms = s.cmu.ms ∧ (takeDecision s).cmu.request = s.cmu.request ∧
    (takeDecision s).cmu.response = s.cmu.response := by
  simp only [takeDecision]; (repeat' split) <;> simp

@[simp] theorem testDecision_keeps (s : State) :
    (testDecision s).pending = s.pending ∧ (testDecision s).resetLow = s.resetLow ∧
    (testDecision s).position = s.position ∧ (testDecision s).dev = s.dev ∧ (testDecision s).times = s.times ∧
    (testDecision s).start = s.start ∧ (testDecision s).rgt.fingerprint = s.rgt.fingerprint ∧
    (testDecision s).ppt = s.ppt ∧ (testDecision s).pwq = s.pwq ∧ (testDecision s).mpu = s.mpu ∧
    (testDecision s).sgu = s.sgu ∧ (testDecision s).cju.repair = s.cju.repair ∧
    (testDecision s).cju.repairOverflow = s.cju.repairOverflow ∧ (testDecision s).cju.timer = s.cju.timer ∧
    (testDecision s).ptu.enable = s.ptu.enable ∧ (testDecision s).ptu.interval = s.ptu.interval ∧
    (testDecision s).ptu.position = s.ptu.position ∧ (testDecision s).ptu.acc = s.ptu.acc ∧
    (testDecision s).ptu.timer = s.ptu.timer ∧ (testDecision s).ptu.comparable = s.ptu.comparable ∧
    (testDecision s).ptu.request = s.ptu.request ∧ (testDecision s).lkc.helloTimer = s.lkc.helloTimer ∧
    (testDecision s).rse.pull.attempts = s.rse.pull.attempts ∧
    (testDecision s).rse.service.credits = s.rse.service.credits ∧
    (testDecision s).rse.service.kind = s.rse.service.kind ∧
    (testDecision s).rse.service.regionSet = s.rse.service.regionSet ∧
    (testDecision s).rse.service.repair = s.rse.service.repair ∧
    (testDecision s).rse.service.requester = s.rse.service.requester ∧
    (testDecision s).rse.service.sendPos = s.rse.service.sendPos ∧
    (testDecision s).rse.service.sent = s.rse.service.sent ∧
    (testDecision s).rse.service.walkPos = s.rse.service.walkPos ∧ (testDecision s).cmu.buffer = s.cmu.buffer ∧
    (testDecision s).cmu.header = s.cmu.header ∧ (testDecision s).cmu.mask = s.cmu.mask ∧
    (testDecision s).cmu.ms = s.cmu.ms ∧ (testDecision s).cmu.request = s.cmu.request ∧
    (testDecision s).cmu.response = s.cmu.response := by
  unfold testDecision; (repeat' split) <;> simp

@[simp] theorem linkChanged_keeps (s : State) :
    (linkChanged s).pending = s.pending ∧ (linkChanged s).resetLow = s.resetLow ∧
    (linkChanged s).position = s.position ∧ (linkChanged s).dev = s.dev ∧ (linkChanged s).times = s.times ∧
    (linkChanged s).start = s.start ∧ (linkChanged s).rgt.fingerprint = s.rgt.fingerprint ∧
    (linkChanged s).ppt = s.ppt ∧ (linkChanged s).pwq = s.pwq ∧ (linkChanged s).mpu = s.mpu ∧
    (linkChanged s).sgu = s.sgu ∧ (linkChanged s).cju.repair = s.cju.repair ∧
    (linkChanged s).cju.repairOverflow = s.cju.repairOverflow ∧ (linkChanged s).cju.timer = s.cju.timer ∧
    (linkChanged s).ptu.enable = s.ptu.enable ∧ (linkChanged s).ptu.interval = s.ptu.interval ∧
    (linkChanged s).ptu.position = s.ptu.position ∧ (linkChanged s).ptu.acc = s.ptu.acc ∧
    (linkChanged s).ptu.timer = s.ptu.timer ∧ (linkChanged s).ptu.comparable = s.ptu.comparable ∧
    (linkChanged s).ptu.request = s.ptu.request ∧ (linkChanged s).lkc.helloTimer = s.lkc.helloTimer ∧
    (linkChanged s).rse.pull.attempts = s.rse.pull.attempts ∧
    (linkChanged s).rse.service.credits = s.rse.service.credits ∧
    (linkChanged s).rse.service.kind = s.rse.service.kind ∧
    (linkChanged s).rse.service.regionSet = s.rse.service.regionSet ∧
    (linkChanged s).rse.service.repair = s.rse.service.repair ∧
    (linkChanged s).rse.service.requester = s.rse.service.requester ∧
    (linkChanged s).rse.service.sendPos = s.rse.service.sendPos ∧
    (linkChanged s).rse.service.sent = s.rse.service.sent ∧
    (linkChanged s).rse.service.walkPos = s.rse.service.walkPos ∧ (linkChanged s).cmu.buffer = s.cmu.buffer ∧
    (linkChanged s).cmu.header = s.cmu.header ∧ (linkChanged s).cmu.mask = s.cmu.mask ∧
    (linkChanged s).cmu.ms = s.cmu.ms ∧ (linkChanged s).cmu.request = s.cmu.request ∧
    (linkChanged s).cmu.response = s.cmu.response := by
  simp [linkChanged]

@[simp] theorem handOver_keeps (f : VoteFrame) (s : State) :
    (handOver f s).pending = s.pending ∧ (handOver f s).resetLow = s.resetLow ∧ (handOver f s).position = s.position ∧
    (handOver f s).dev = s.dev ∧ (handOver f s).times = s.times ∧ (handOver f s).start = s.start ∧
    (handOver f s).rgt.fingerprint = s.rgt.fingerprint ∧ (handOver f s).ppt = s.ppt ∧ (handOver f s).pwq = s.pwq ∧
    (handOver f s).mpu = s.mpu ∧ (handOver f s).sgu = s.sgu ∧ (handOver f s).cju.repair = s.cju.repair ∧
    (handOver f s).cju.repairOverflow = s.cju.repairOverflow ∧ (handOver f s).cju.timer = s.cju.timer ∧
    (handOver f s).ptu.enable = s.ptu.enable ∧ (handOver f s).ptu.interval = s.ptu.interval ∧
    (handOver f s).ptu.position = s.ptu.position ∧ (handOver f s).ptu.acc = s.ptu.acc ∧
    (handOver f s).ptu.timer = s.ptu.timer ∧ (handOver f s).ptu.comparable = s.ptu.comparable ∧
    (handOver f s).ptu.request = s.ptu.request ∧ (handOver f s).lkc.helloTimer = s.lkc.helloTimer ∧
    (handOver f s).rse.pull.attempts = s.rse.pull.attempts ∧
    (handOver f s).rse.service.credits = s.rse.service.credits ∧ (handOver f s).rse.service.kind = s.rse.service.kind
    ∧ (handOver f s).rse.service.regionSet = s.rse.service.regionSet ∧
    (handOver f s).rse.service.repair = s.rse.service.repair ∧
    (handOver f s).rse.service.requester = s.rse.service.requester ∧
    (handOver f s).rse.service.sendPos = s.rse.service.sendPos ∧ (handOver f s).rse.service.sent = s.rse.service.sent
    ∧ (handOver f s).rse.service.walkPos = s.rse.service.walkPos ∧ (handOver f s).cmu.buffer = s.cmu.buffer ∧
    (handOver f s).cmu.header = s.cmu.header ∧ (handOver f s).cmu.mask = s.cmu.mask ∧ (handOver f s).cmu.ms = s.cmu.ms
    ∧ (handOver f s).cmu.request = s.cmu.request ∧ (handOver f s).cmu.response = s.cmu.response := by
  simp [handOver]

@[simp] theorem finishRollback_keeps (s : State) :
    (finishRollback s).pending = s.pending ∧ (finishRollback s).resetLow = s.resetLow ∧
    (finishRollback s).position = s.position ∧ (finishRollback s).dev = s.dev ∧ (finishRollback s).times = s.times ∧
    (finishRollback s).start = s.start ∧ (finishRollback s).rgt.fingerprint = s.rgt.fingerprint ∧
    (finishRollback s).ppt = s.ppt ∧ (finishRollback s).pwq = s.pwq ∧ (finishRollback s).mpu = s.mpu ∧
    (finishRollback s).sgu = s.sgu ∧ (finishRollback s).cju.repair = s.cju.repair ∧
    (finishRollback s).cju.repairOverflow = s.cju.repairOverflow ∧ (finishRollback s).cju.timer = s.cju.timer ∧
    (finishRollback s).ptu.enable = s.ptu.enable ∧ (finishRollback s).ptu.interval = s.ptu.interval ∧
    (finishRollback s).ptu.position = s.ptu.position ∧ (finishRollback s).ptu.acc = s.ptu.acc ∧
    (finishRollback s).ptu.timer = s.ptu.timer ∧ (finishRollback s).ptu.comparable = s.ptu.comparable ∧
    (finishRollback s).ptu.request = s.ptu.request ∧ (finishRollback s).lkc.helloTimer = s.lkc.helloTimer ∧
    (finishRollback s).rse.pull.attempts = s.rse.pull.attempts ∧
    (finishRollback s).rse.service.credits = s.rse.service.credits ∧
    (finishRollback s).rse.service.kind = s.rse.service.kind ∧
    (finishRollback s).rse.service.regionSet = s.rse.service.regionSet ∧
    (finishRollback s).rse.service.repair = s.rse.service.repair ∧
    (finishRollback s).rse.service.requester = s.rse.service.requester ∧
    (finishRollback s).rse.service.sendPos = s.rse.service.sendPos ∧
    (finishRollback s).rse.service.sent = s.rse.service.sent ∧
    (finishRollback s).rse.service.walkPos = s.rse.service.walkPos ∧ (finishRollback s).cmu.buffer = s.cmu.buffer ∧
    (finishRollback s).cmu.header = s.cmu.header ∧ (finishRollback s).cmu.mask = s.cmu.mask ∧
    (finishRollback s).cmu.ms = s.cmu.ms ∧ (finishRollback s).cmu.request = s.cmu.request ∧
    (finishRollback s).cmu.response = s.cmu.response := by
  unfold finishRollback; (repeat' split) <;> simp

@[simp] theorem abandon_keeps (c : AbandonCause) (s : State) :
    (abandon c s).pending = s.pending ∧ (abandon c s).resetLow = s.resetLow ∧ (abandon c s).position = s.position ∧
    (abandon c s).dev = s.dev ∧ (abandon c s).times = s.times ∧ (abandon c s).start = s.start ∧
    (abandon c s).rgt.fingerprint = s.rgt.fingerprint ∧ (abandon c s).ppt.answers = s.ppt.answers ∧
    (abandon c s).pwq.lower = s.pwq.lower ∧ (abandon c s).pwq.upper = s.pwq.upper ∧ (abandon c s).mpu = s.mpu ∧
    (abandon c s).sgu = s.sgu ∧ (abandon c s).cju.repair = s.cju.repair ∧
    (abandon c s).cju.repairOverflow = s.cju.repairOverflow ∧ (abandon c s).ptu.enable = s.ptu.enable ∧
    (abandon c s).ptu.interval = s.ptu.interval ∧ (abandon c s).ptu.position = s.ptu.position ∧
    (abandon c s).ptu.acc = s.ptu.acc ∧ (abandon c s).ptu.timer = s.ptu.timer ∧
    (abandon c s).ptu.comparable = s.ptu.comparable ∧ (abandon c s).ptu.request = s.ptu.request ∧
    (abandon c s).lkc.helloTimer = s.lkc.helloTimer ∧ (abandon c s).rse.pull.attempts = s.rse.pull.attempts ∧
    (abandon c s).rse.service.credits = s.rse.service.credits ∧ (abandon c s).rse.service.kind = s.rse.service.kind ∧
    (abandon c s).rse.service.regionSet = s.rse.service.regionSet ∧
    (abandon c s).rse.service.repair = s.rse.service.repair ∧
    (abandon c s).rse.service.requester = s.rse.service.requester ∧
    (abandon c s).rse.service.sendPos = s.rse.service.sendPos ∧ (abandon c s).rse.service.sent = s.rse.service.sent ∧
    (abandon c s).rse.service.walkPos = s.rse.service.walkPos ∧ (abandon c s).cmu.buffer = s.cmu.buffer ∧
    (abandon c s).cmu.header = s.cmu.header ∧ (abandon c s).cmu.mask = s.cmu.mask ∧ (abandon c s).cmu.ms = s.cmu.ms ∧
    (abandon c s).cmu.request = s.cmu.request ∧ (abandon c s).cmu.response = s.cmu.response := by
  simp only [abandon]; (repeat' split) <;> simp

@[simp] theorem abandonFor_keeps (a : Nat) (s : State) :
    (abandonFor a s).pending = s.pending ∧ (abandonFor a s).resetLow = s.resetLow ∧
    (abandonFor a s).position = s.position ∧ (abandonFor a s).dev = s.dev ∧ (abandonFor a s).times = s.times ∧
    (abandonFor a s).start = s.start ∧ (abandonFor a s).rgt.fingerprint = s.rgt.fingerprint ∧
    (abandonFor a s).ppt.answers = s.ppt.answers ∧ (abandonFor a s).pwq.lower = s.pwq.lower ∧
    (abandonFor a s).pwq.upper = s.pwq.upper ∧ (abandonFor a s).mpu = s.mpu ∧ (abandonFor a s).sgu = s.sgu ∧
    (abandonFor a s).cju.repair = s.cju.repair ∧ (abandonFor a s).cju.repairOverflow = s.cju.repairOverflow ∧
    (abandonFor a s).ptu.enable = s.ptu.enable ∧ (abandonFor a s).ptu.interval = s.ptu.interval ∧
    (abandonFor a s).ptu.position = s.ptu.position ∧ (abandonFor a s).ptu.acc = s.ptu.acc ∧
    (abandonFor a s).ptu.timer = s.ptu.timer ∧ (abandonFor a s).ptu.comparable = s.ptu.comparable ∧
    (abandonFor a s).ptu.request = s.ptu.request ∧ (abandonFor a s).lkc.helloTimer = s.lkc.helloTimer ∧
    (abandonFor a s).rse.pull.attempts = s.rse.pull.attempts ∧
    (abandonFor a s).rse.service.credits = s.rse.service.credits ∧
    (abandonFor a s).rse.service.kind = s.rse.service.kind ∧
    (abandonFor a s).rse.service.regionSet = s.rse.service.regionSet ∧
    (abandonFor a s).rse.service.repair = s.rse.service.repair ∧
    (abandonFor a s).rse.service.requester = s.rse.service.requester ∧
    (abandonFor a s).rse.service.sendPos = s.rse.service.sendPos ∧
    (abandonFor a s).rse.service.sent = s.rse.service.sent ∧
    (abandonFor a s).rse.service.walkPos = s.rse.service.walkPos ∧ (abandonFor a s).cmu.buffer = s.cmu.buffer ∧
    (abandonFor a s).cmu.header = s.cmu.header ∧ (abandonFor a s).cmu.mask = s.cmu.mask ∧
    (abandonFor a s).cmu.ms = s.cmu.ms ∧ (abandonFor a s).cmu.request = s.cmu.request ∧
    (abandonFor a s).cmu.response = s.cmu.response := by
  unfold abandonFor; (repeat' split) <;> simp

@[simp] theorem endDrain_keeps (s : State) :
    (endDrain s).pending = s.pending ∧ (endDrain s).resetLow = s.resetLow ∧ (endDrain s).position = s.position ∧
    (endDrain s).dev = s.dev ∧ (endDrain s).times = s.times ∧ (endDrain s).start = s.start ∧
    (endDrain s).rgt.fingerprint = s.rgt.fingerprint ∧ (endDrain s).ppt.answers = s.ppt.answers ∧
    (endDrain s).pwq.lower = s.pwq.lower ∧ (endDrain s).pwq.upper = s.pwq.upper ∧ (endDrain s).mpu = s.mpu ∧
    (endDrain s).sgu = s.sgu ∧ (endDrain s).cju.repair = s.cju.repair ∧
    (endDrain s).cju.repairOverflow = s.cju.repairOverflow ∧ (endDrain s).ptu.enable = s.ptu.enable ∧
    (endDrain s).ptu.interval = s.ptu.interval ∧ (endDrain s).ptu.position = s.ptu.position ∧
    (endDrain s).ptu.acc = s.ptu.acc ∧ (endDrain s).ptu.timer = s.ptu.timer ∧
    (endDrain s).ptu.comparable = s.ptu.comparable ∧ (endDrain s).ptu.request = s.ptu.request ∧
    (endDrain s).lkc.helloTimer = s.lkc.helloTimer ∧ (endDrain s).rse.pull.attempts = s.rse.pull.attempts ∧
    (endDrain s).rse.service.credits = s.rse.service.credits ∧ (endDrain s).rse.service.kind = s.rse.service.kind ∧
    (endDrain s).rse.service.regionSet = s.rse.service.regionSet ∧
    (endDrain s).rse.service.repair = s.rse.service.repair ∧
    (endDrain s).rse.service.requester = s.rse.service.requester ∧
    (endDrain s).rse.service.sendPos = s.rse.service.sendPos ∧ (endDrain s).rse.service.sent = s.rse.service.sent ∧
    (endDrain s).rse.service.walkPos = s.rse.service.walkPos ∧ (endDrain s).cmu.buffer = s.cmu.buffer ∧
    (endDrain s).cmu.header = s.cmu.header ∧ (endDrain s).cmu.mask = s.cmu.mask ∧ (endDrain s).cmu.ms = s.cmu.ms ∧
    (endDrain s).cmu.request = s.cmu.request ∧ (endDrain s).cmu.response = s.cmu.response := by
  unfold endDrain; (repeat' split) <;> simp

@[simp] theorem respond_keeps (st : Status) (d : Nat) (t : Byte) (ws : List Word) (s : State) :
    (respond st d t ws s).pending = s.pending ∧ (respond st d t ws s).resetLow = s.resetLow ∧
    (respond st d t ws s).position = s.position ∧ (respond st d t ws s).dev = s.dev ∧
    (respond st d t ws s).times = s.times ∧ (respond st d t ws s).start = s.start ∧ (respond st d t ws s).rgt = s.rgt
    ∧ (respond st d t ws s).ppt = s.ppt ∧ (respond st d t ws s).pwq = s.pwq ∧ (respond st d t ws s).mpu = s.mpu ∧
    (respond st d t ws s).sgu = s.sgu ∧ (respond st d t ws s).cju = s.cju ∧ (respond st d t ws s).ptu = s.ptu ∧
    (respond st d t ws s).lkc = s.lkc ∧ (respond st d t ws s).vtu = s.vtu ∧ (respond st d t ws s).rse = s.rse ∧
    (respond st d t ws s).cmu.alert = s.cmu.alert ∧ (respond st d t ws s).cmu.dropped = s.cmu.dropped ∧
    (respond st d t ws s).cmu.events = s.cmu.events ∧ (respond st d t ws s).cmu.mask = s.cmu.mask ∧
    (respond st d t ws s).cmu.ms = s.cmu.ms ∧ (respond st d t ws s).cmu.nextSeq = s.cmu.nextSeq ∧
    (respond st d t ws s).cmu.request = s.cmu.request := by
  simp [respond]

@[simp] theorem startWalk_keeps (s : State) :
    (startWalk s).pending = s.pending ∧ (startWalk s).resetLow = s.resetLow ∧ (startWalk s).position = s.position ∧
    (startWalk s).dev = s.dev ∧ (startWalk s).times = s.times ∧ (startWalk s).start = s.start ∧
    (startWalk s).rgt = s.rgt ∧ (startWalk s).ppt = s.ppt ∧ (startWalk s).pwq = s.pwq ∧ (startWalk s).mpu = s.mpu ∧
    (startWalk s).sgu = s.sgu ∧ (startWalk s).cju = s.cju ∧ (startWalk s).ptu.enable = s.ptu.enable ∧
    (startWalk s).ptu.interval = s.ptu.interval ∧ (startWalk s).lkc = s.lkc ∧ (startWalk s).vtu = s.vtu ∧
    (startWalk s).rse = s.rse ∧ (startWalk s).cmu = s.cmu := by
  simp [startWalk]

@[simp] theorem stopWalk_keeps (s : State) :
    (stopWalk s).pending = s.pending ∧ (stopWalk s).resetLow = s.resetLow ∧ (stopWalk s).position = s.position ∧
    (stopWalk s).dev = s.dev ∧ (stopWalk s).times = s.times ∧ (stopWalk s).start = s.start ∧ (stopWalk s).rgt = s.rgt
    ∧ (stopWalk s).ppt = s.ppt ∧ (stopWalk s).pwq = s.pwq ∧ (stopWalk s).mpu = s.mpu ∧ (stopWalk s).sgu = s.sgu ∧
    (stopWalk s).cju = s.cju ∧ (stopWalk s).ptu.enable = s.ptu.enable ∧ (stopWalk s).ptu.interval = s.ptu.interval ∧
    (stopWalk s).lkc = s.lkc ∧ (stopWalk s).vtu = s.vtu ∧ (stopWalk s).rse = s.rse ∧ (stopWalk s).cmu = s.cmu := by
  simp [stopWalk]

@[simp] theorem unloadRegion_keeps (i : Nat) (s : State) :
    (unloadRegion i s).pending = s.pending ∧ (unloadRegion i s).resetLow = s.resetLow ∧
    (unloadRegion i s).position = s.position ∧ (unloadRegion i s).dev = s.dev ∧ (unloadRegion i s).times = s.times ∧
    (unloadRegion i s).start = s.start ∧ (unloadRegion i s).rgt.fingerprint = s.rgt.fingerprint ∧
    (unloadRegion i s).ppt = s.ppt ∧ (unloadRegion i s).pwq = s.pwq ∧ (unloadRegion i s).mpu = s.mpu ∧
    (unloadRegion i s).sgu.pass = s.sgu.pass ∧ (unloadRegion i s).cju = s.cju ∧ (unloadRegion i s).ptu = s.ptu ∧
    (unloadRegion i s).lkc = s.lkc ∧ (unloadRegion i s).vtu = s.vtu ∧ (unloadRegion i s).rse = s.rse ∧
    (unloadRegion i s).cmu = s.cmu := by
  unfold unloadRegion zeroSlot; (repeat' split) <;> simp

@[simp] theorem storeRegion_keeps (i : Nat) (d : Descriptor) (s : State) :
    (storeRegion i d s).pending = s.pending ∧ (storeRegion i d s).resetLow = s.resetLow ∧
    (storeRegion i d s).position = s.position ∧ (storeRegion i d s).dev = s.dev ∧ (storeRegion i d s).times = s.times
    ∧ (storeRegion i d s).start = s.start ∧ (storeRegion i d s).rgt.fingerprint = s.rgt.fingerprint ∧
    (storeRegion i d s).ppt = s.ppt ∧ (storeRegion i d s).pwq = s.pwq ∧ (storeRegion i d s).mpu = s.mpu ∧
    (storeRegion i d s).sgu.pass = s.sgu.pass ∧ (storeRegion i d s).cju = s.cju ∧ (storeRegion i d s).ptu = s.ptu ∧
    (storeRegion i d s).lkc = s.lkc ∧ (storeRegion i d s).vtu = s.vtu ∧ (storeRegion i d s).rse = s.rse ∧
    (storeRegion i d s).cmu = s.cmu := by
  unfold storeRegion zeroSlot; (repeat' split) <;> simp

@[simp] theorem enterSigning_keeps (s : State) :
    (enterSigning s).pending = s.pending ∧ (enterSigning s).resetLow = s.resetLow ∧
    (enterSigning s).position = s.position ∧ (enterSigning s).times = s.times ∧ (enterSigning s).start = s.start ∧
    (enterSigning s).rgt.entries = s.rgt.entries ∧ (enterSigning s).ppt = s.ppt ∧ (enterSigning s).pwq = s.pwq ∧
    (enterSigning s).mpu = s.mpu ∧ (enterSigning s).sgu.sigs = s.sgu.sigs ∧ (enterSigning s).cju = s.cju ∧
    (enterSigning s).ptu = s.ptu ∧ (enterSigning s).lkc.helloTimer = s.lkc.helloTimer ∧
    (enterSigning s).lkc.peers = s.lkc.peers ∧ (enterSigning s).vtu = s.vtu ∧
    (enterSigning s).rse.pull.attempts = s.rse.pull.attempts ∧ (enterSigning s).rse.pull.buffers = s.rse.pull.buffers
    ∧ (enterSigning s).rse.pull.ending = s.rse.pull.ending ∧ (enterSigning s).rse.pull.kind = s.rse.pull.kind ∧
    (enterSigning s).rse.pull.phase = s.rse.pull.phase ∧ (enterSigning s).rse.pull.received = s.rse.pull.received ∧
    (enterSigning s).rse.pull.regionSet = s.rse.pull.regionSet ∧ (enterSigning s).rse.pull.server = s.rse.pull.server
    ∧ (enterSigning s).rse.pull.target = s.rse.pull.target ∧ (enterSigning s).rse.pull.timer = s.rse.pull.timer ∧
    (enterSigning s).rse.service = s.rse.service ∧ (enterSigning s).cmu = s.cmu := by
  simp [enterSigning]

@[simp] theorem overflow_keeps (e : PwqEntry) (s : State) :
    (overflow e s).pending = s.pending ∧ (overflow e s).resetLow = s.resetLow ∧ (overflow e s).position = s.position ∧
    (overflow e s).dev = s.dev ∧ (overflow e s).times = s.times ∧ (overflow e s).start = s.start ∧
    (overflow e s).rgt = s.rgt ∧ (overflow e s).ppt = s.ppt ∧ (overflow e s).pwq = s.pwq ∧ (overflow e s).mpu = s.mpu
    ∧ (overflow e s).sgu = s.sgu ∧ (overflow e s).cju.chan = s.cju.chan ∧ (overflow e s).cju.cycle = s.cju.cycle ∧
    (overflow e s).cju.journal = s.cju.journal ∧ (overflow e s).cju.repair = s.cju.repair ∧
    (overflow e s).cju.repairOverflow = s.cju.repairOverflow ∧ (overflow e s).cju.resend = s.cju.resend ∧
    (overflow e s).cju.timer = s.cju.timer ∧ (overflow e s).cju.wPrev = s.cju.wPrev ∧
    (overflow e s).cju.wPrevValid = s.cju.wPrevValid ∧ (overflow e s).ptu = s.ptu ∧ (overflow e s).lkc = s.lkc ∧
    (overflow e s).vtu = s.vtu ∧ (overflow e s).rse.pull = s.rse.pull ∧
    (overflow e s).rse.service.credits = s.rse.service.credits ∧ (overflow e s).rse.service.kind = s.rse.service.kind
    ∧ (overflow e s).rse.service.phase = s.rse.service.phase ∧
    (overflow e s).rse.service.regionSet = s.rse.service.regionSet ∧
    (overflow e s).rse.service.repair = s.rse.service.repair ∧
    (overflow e s).rse.service.requester = s.rse.service.requester ∧
    (overflow e s).rse.service.sendPos = s.rse.service.sendPos ∧ (overflow e s).rse.service.sent = s.rse.service.sent
    ∧ (overflow e s).rse.service.timer = s.rse.service.timer ∧
    (overflow e s).rse.service.waiting = s.rse.service.waiting ∧
    (overflow e s).rse.service.walkPos = s.rse.service.walkPos ∧ (overflow e s).cmu.buffer = s.cmu.buffer ∧
    (overflow e s).cmu.header = s.cmu.header ∧ (overflow e s).cmu.mask = s.cmu.mask ∧ (overflow e s).cmu.ms = s.cmu.ms
    ∧ (overflow e s).cmu.request = s.cmu.request ∧ (overflow e s).cmu.response = s.cmu.response := by
  unfold overflow; (repeat' split) <;> simp

@[simp] theorem performEntry_keeps (e : PwqEntry) (s : State) :
    (performEntry e s).pending = s.pending ∧ (performEntry e s).resetLow = s.resetLow ∧
    (performEntry e s).position = s.position ∧ (performEntry e s).dev = s.dev ∧ (performEntry e s).times = s.times ∧
    (performEntry e s).start = s.start ∧ (performEntry e s).rgt.fingerprint = s.rgt.fingerprint ∧
    (performEntry e s).ppt = s.ppt ∧ (performEntry e s).pwq = s.pwq ∧ (performEntry e s).mpu.initOp = s.mpu.initOp ∧
    (performEntry e s).mpu.pointer = s.mpu.pointer ∧ (performEntry e s).mpu.slots = s.mpu.slots ∧
    (performEntry e s).mpu.writeBack = s.mpu.writeBack ∧ (performEntry e s).sgu.pass = s.sgu.pass ∧
    (performEntry e s).cju.chan = s.cju.chan ∧ (performEntry e s).cju.cycle = s.cju.cycle ∧
    (performEntry e s).cju.journal = s.cju.journal ∧ (performEntry e s).cju.resend = s.cju.resend ∧
    (performEntry e s).cju.timer = s.cju.timer ∧ (performEntry e s).cju.unrevertible = s.cju.unrevertible ∧
    (performEntry e s).cju.wCur = s.cju.wCur ∧ (performEntry e s).cju.wPrev = s.cju.wPrev ∧
    (performEntry e s).cju.wPrevValid = s.cju.wPrevValid ∧ (performEntry e s).ptu.enable = s.ptu.enable ∧
    (performEntry e s).ptu.interval = s.ptu.interval ∧ (performEntry e s).ptu.position = s.ptu.position ∧
    (performEntry e s).ptu.request = s.ptu.request ∧ (performEntry e s).ptu.timer = s.ptu.timer ∧
    (performEntry e s).ptu.comparable = s.ptu.comparable ∧ (performEntry e s).lkc = s.lkc ∧
    (performEntry e s).vtu.agreedBase = s.vtu.agreedBase ∧ (performEntry e s).vtu.closedSet = s.vtu.closedSet ∧
    (performEntry e s).vtu.deciding = s.vtu.deciding ∧ (performEntry e s).vtu.last = s.vtu.last ∧
    (performEntry e s).vtu.own = s.vtu.own ∧ (performEntry e s).vtu.table = s.vtu.table ∧
    (performEntry e s).vtu.timer = s.vtu.timer ∧ (performEntry e s).rse.pull.attempts = s.rse.pull.attempts ∧
    (performEntry e s).rse.pull.buffers = s.rse.pull.buffers ∧ (performEntry e s).rse.pull.ending = s.rse.pull.ending
    ∧ (performEntry e s).rse.pull.kind = s.rse.pull.kind ∧ (performEntry e s).rse.pull.phase = s.rse.pull.phase ∧
    (performEntry e s).rse.pull.received = s.rse.pull.received ∧
    (performEntry e s).rse.pull.regionSet = s.rse.pull.regionSet ∧
    (performEntry e s).rse.pull.server = s.rse.pull.server ∧ (performEntry e s).rse.pull.target = s.rse.pull.target ∧
    (performEntry e s).rse.pull.timer = s.rse.pull.timer ∧ (performEntry e s).rse.service = s.rse.service ∧
    (performEntry e s).cmu.buffer = s.cmu.buffer ∧ (performEntry e s).cmu.header = s.cmu.header ∧
    (performEntry e s).cmu.mask = s.cmu.mask ∧ (performEntry e s).cmu.ms = s.cmu.ms ∧
    (performEntry e s).cmu.request = s.cmu.request ∧ (performEntry e s).cmu.response = s.cmu.response := by
  simp only [performEntry]; (repeat' split) <;> simp

@[simp] theorem enterRegion_keeps (r : Region) (b : Nat) (s : State) :
    (enterRegion r b s).pending = s.pending ∧ (enterRegion r b s).resetLow = s.resetLow ∧
    (enterRegion r b s).position = s.position ∧ (enterRegion r b s).dev = s.dev ∧ (enterRegion r b s).times = s.times
    ∧ (enterRegion r b s).start = s.start ∧ (enterRegion r b s).rgt = s.rgt ∧ (enterRegion r b s).ppt = s.ppt ∧
    (enterRegion r b s).pwq = s.pwq ∧ (enterRegion r b s).mpu = s.mpu ∧ (enterRegion r b s).sgu = s.sgu ∧
    (enterRegion r b s).cju = s.cju ∧ (enterRegion r b s).ptu.enable = s.ptu.enable ∧
    (enterRegion r b s).ptu.interval = s.ptu.interval ∧ (enterRegion r b s).ptu.position = s.ptu.position ∧
    (enterRegion r b s).ptu.request = s.ptu.request ∧ (enterRegion r b s).ptu.timer = s.ptu.timer ∧
    (enterRegion r b s).lkc = s.lkc ∧ (enterRegion r b s).vtu = s.vtu ∧ (enterRegion r b s).rse = s.rse ∧
    (enterRegion r b s).cmu = s.cmu := by
  unfold enterRegion; (repeat' split) <;> simp

@[simp] theorem accumulate_keeps (d : Descriptor) (b : Nat) (c : List Checked) (s : State) :
    (accumulate d b c s).pending = s.pending ∧ (accumulate d b c s).resetLow = s.resetLow ∧
    (accumulate d b c s).position = s.position ∧ (accumulate d b c s).dev = s.dev ∧
    (accumulate d b c s).times = s.times ∧ (accumulate d b c s).start = s.start ∧ (accumulate d b c s).rgt = s.rgt ∧
    (accumulate d b c s).ppt = s.ppt ∧ (accumulate d b c s).pwq = s.pwq ∧ (accumulate d b c s).mpu = s.mpu ∧
    (accumulate d b c s).sgu = s.sgu ∧ (accumulate d b c s).cju = s.cju ∧
    (accumulate d b c s).ptu.comparable = s.ptu.comparable ∧ (accumulate d b c s).ptu.enable = s.ptu.enable ∧
    (accumulate d b c s).ptu.interval = s.ptu.interval ∧ (accumulate d b c s).ptu.position = s.ptu.position ∧
    (accumulate d b c s).ptu.request = s.ptu.request ∧ (accumulate d b c s).ptu.timer = s.ptu.timer ∧
    (accumulate d b c s).ptu.turned = s.ptu.turned ∧ (accumulate d b c s).lkc = s.lkc ∧
    (accumulate d b c s).vtu = s.vtu ∧ (accumulate d b c s).rse = s.rse ∧ (accumulate d b c s).cmu = s.cmu := by
  unfold accumulate; (repeat' split) <;> simp

@[simp] theorem endOfRegion_keeps (i b : Nat) (s : State) :
    (endOfRegion i b s).pending = s.pending ∧ (endOfRegion i b s).resetLow = s.resetLow ∧
    (endOfRegion i b s).position = s.position ∧ (endOfRegion i b s).dev = s.dev ∧ (endOfRegion i b s).times = s.times
    ∧ (endOfRegion i b s).start = s.start ∧ (endOfRegion i b s).rgt.fingerprint = s.rgt.fingerprint ∧
    (endOfRegion i b s).ppt = s.ppt ∧ (endOfRegion i b s).pwq = s.pwq ∧ (endOfRegion i b s).mpu = s.mpu ∧
    (endOfRegion i b s).sgu = s.sgu ∧ (endOfRegion i b s).cju = s.cju ∧ (endOfRegion i b s).ptu.enable = s.ptu.enable
    ∧ (endOfRegion i b s).ptu.interval = s.ptu.interval ∧ (endOfRegion i b s).ptu.position = s.ptu.position ∧
    (endOfRegion i b s).ptu.acc = s.ptu.acc ∧ (endOfRegion i b s).ptu.timer = s.ptu.timer ∧
    (endOfRegion i b s).ptu.comparable = s.ptu.comparable ∧ (endOfRegion i b s).ptu.request = s.ptu.request ∧
    (endOfRegion i b s).lkc = s.lkc ∧ (endOfRegion i b s).vtu.agreedBase = s.vtu.agreedBase ∧
    (endOfRegion i b s).vtu.closedSet = s.vtu.closedSet ∧ (endOfRegion i b s).vtu.deciding = s.vtu.deciding ∧
    (endOfRegion i b s).vtu.last = s.vtu.last ∧ (endOfRegion i b s).vtu.own = s.vtu.own ∧
    (endOfRegion i b s).vtu.table = s.vtu.table ∧ (endOfRegion i b s).vtu.timer = s.vtu.timer ∧
    (endOfRegion i b s).rse.pull.attempts = s.rse.pull.attempts ∧
    (endOfRegion i b s).rse.pull.buffers = s.rse.pull.buffers ∧
    (endOfRegion i b s).rse.pull.ending = s.rse.pull.ending ∧ (endOfRegion i b s).rse.pull.kind = s.rse.pull.kind ∧
    (endOfRegion i b s).rse.pull.phase = s.rse.pull.phase ∧
    (endOfRegion i b s).rse.pull.received = s.rse.pull.received ∧
    (endOfRegion i b s).rse.pull.regionSet = s.rse.pull.regionSet ∧
    (endOfRegion i b s).rse.pull.server = s.rse.pull.server ∧ (endOfRegion i b s).rse.pull.target = s.rse.pull.target
    ∧ (endOfRegion i b s).rse.pull.timer = s.rse.pull.timer ∧ (endOfRegion i b s).rse.service = s.rse.service ∧
    (endOfRegion i b s).cmu.buffer = s.cmu.buffer ∧ (endOfRegion i b s).cmu.header = s.cmu.header ∧
    (endOfRegion i b s).cmu.mask = s.cmu.mask ∧ (endOfRegion i b s).cmu.ms = s.cmu.ms ∧
    (endOfRegion i b s).cmu.request = s.cmu.request ∧ (endOfRegion i b s).cmu.response = s.cmu.response := by
  unfold endOfRegion; (repeat' split) <;> simp

@[simp] theorem putPeer_keeps (l : Link) (p : Peer) (s : State) :
    (putPeer l p s).pending = s.pending ∧ (putPeer l p s).resetLow = s.resetLow ∧
    (putPeer l p s).position = s.position ∧ (putPeer l p s).dev = s.dev ∧ (putPeer l p s).times = s.times ∧
    (putPeer l p s).start = s.start ∧ (putPeer l p s).rgt = s.rgt ∧ (putPeer l p s).ppt = s.ppt ∧
    (putPeer l p s).pwq = s.pwq ∧ (putPeer l p s).mpu = s.mpu ∧ (putPeer l p s).sgu = s.sgu ∧
    (putPeer l p s).cju = s.cju ∧ (putPeer l p s).ptu = s.ptu ∧ (putPeer l p s).lkc.helloTimer = s.lkc.helloTimer ∧
    (putPeer l p s).lkc.tx = s.lkc.tx ∧ (putPeer l p s).vtu = s.vtu ∧ (putPeer l p s).rse = s.rse ∧
    (putPeer l p s).cmu = s.cmu := by
  simp [putPeer]

@[simp] theorem refresh_keeps (l : Link) (s : State) :
    (refresh l s).pending = s.pending ∧ (refresh l s).resetLow = s.resetLow ∧ (refresh l s).position = s.position ∧
    (refresh l s).dev = s.dev ∧ (refresh l s).times = s.times ∧ (refresh l s).start = s.start ∧
    (refresh l s).rgt.fingerprint = s.rgt.fingerprint ∧ (refresh l s).ppt = s.ppt ∧ (refresh l s).pwq = s.pwq ∧
    (refresh l s).mpu = s.mpu ∧ (refresh l s).sgu = s.sgu ∧ (refresh l s).cju.repair = s.cju.repair ∧
    (refresh l s).cju.repairOverflow = s.cju.repairOverflow ∧ (refresh l s).cju.timer = s.cju.timer ∧
    (refresh l s).ptu.enable = s.ptu.enable ∧ (refresh l s).ptu.interval = s.ptu.interval ∧
    (refresh l s).ptu.position = s.ptu.position ∧ (refresh l s).ptu.acc = s.ptu.acc ∧
    (refresh l s).ptu.timer = s.ptu.timer ∧ (refresh l s).ptu.comparable = s.ptu.comparable ∧
    (refresh l s).ptu.request = s.ptu.request ∧ (refresh l s).lkc.helloTimer = s.lkc.helloTimer ∧
    (refresh l s).rse.pull.attempts = s.rse.pull.attempts ∧ (refresh l s).rse.service.credits = s.rse.service.credits
    ∧ (refresh l s).rse.service.kind = s.rse.service.kind ∧
    (refresh l s).rse.service.regionSet = s.rse.service.regionSet ∧
    (refresh l s).rse.service.repair = s.rse.service.repair ∧
    (refresh l s).rse.service.requester = s.rse.service.requester ∧
    (refresh l s).rse.service.sendPos = s.rse.service.sendPos ∧ (refresh l s).rse.service.sent = s.rse.service.sent ∧
    (refresh l s).rse.service.walkPos = s.rse.service.walkPos ∧ (refresh l s).cmu.buffer = s.cmu.buffer ∧
    (refresh l s).cmu.header = s.cmu.header ∧ (refresh l s).cmu.mask = s.cmu.mask ∧ (refresh l s).cmu.ms = s.cmu.ms ∧
    (refresh l s).cmu.request = s.cmu.request ∧ (refresh l s).cmu.response = s.cmu.response := by
  simp only [refresh]; (repeat' split) <;> simp

@[simp] theorem restartSilence_keeps (l : Link) (f : HelloFields) (m : Bool) (s : State) :
    (restartSilence l f m s).pending = s.pending ∧ (restartSilence l f m s).resetLow = s.resetLow ∧
    (restartSilence l f m s).position = s.position ∧ (restartSilence l f m s).dev = s.dev ∧
    (restartSilence l f m s).times = s.times ∧ (restartSilence l f m s).start = s.start ∧
    (restartSilence l f m s).rgt = s.rgt ∧ (restartSilence l f m s).ppt = s.ppt ∧ (restartSilence l f m s).pwq = s.pwq
    ∧ (restartSilence l f m s).mpu = s.mpu ∧ (restartSilence l f m s).sgu = s.sgu ∧
    (restartSilence l f m s).cju = s.cju ∧ (restartSilence l f m s).ptu = s.ptu ∧ (restartSilence l f m s).lkc = s.lkc
    ∧ (restartSilence l f m s).vtu = s.vtu ∧ (restartSilence l f m s).rse.pull.attempts = s.rse.pull.attempts ∧
    (restartSilence l f m s).rse.pull.buffers = s.rse.pull.buffers ∧
    (restartSilence l f m s).rse.pull.clean = s.rse.pull.clean ∧
    (restartSilence l f m s).rse.pull.ending = s.rse.pull.ending ∧
    (restartSilence l f m s).rse.pull.kind = s.rse.pull.kind ∧
    (restartSilence l f m s).rse.pull.phase = s.rse.pull.phase ∧
    (restartSilence l f m s).rse.pull.received = s.rse.pull.received ∧
    (restartSilence l f m s).rse.pull.regionSet = s.rse.pull.regionSet ∧
    (restartSilence l f m s).rse.pull.server = s.rse.pull.server ∧
    (restartSilence l f m s).rse.pull.target = s.rse.pull.target ∧
    (restartSilence l f m s).rse.service = s.rse.service ∧ (restartSilence l f m s).cmu = s.cmu := by
  unfold restartSilence; (repeat' split) <;> simp

@[simp] theorem abortService_keeps (l : Link) (f : HelloFields) (s : State) :
    (abortService l f s).pending = s.pending ∧ (abortService l f s).resetLow = s.resetLow ∧
    (abortService l f s).position = s.position ∧ (abortService l f s).dev = s.dev ∧
    (abortService l f s).times = s.times ∧ (abortService l f s).start = s.start ∧ (abortService l f s).rgt = s.rgt ∧
    (abortService l f s).ppt = s.ppt ∧ (abortService l f s).pwq = s.pwq ∧ (abortService l f s).mpu = s.mpu ∧
    (abortService l f s).sgu = s.sgu ∧ (abortService l f s).cju.chan = s.cju.chan ∧
    (abortService l f s).cju.cycle = s.cju.cycle ∧ (abortService l f s).cju.journal = s.cju.journal ∧
    (abortService l f s).cju.repair = s.cju.repair ∧ (abortService l f s).cju.repairOverflow = s.cju.repairOverflow ∧
    (abortService l f s).cju.timer = s.cju.timer ∧ (abortService l f s).cju.unrevertible = s.cju.unrevertible ∧
    (abortService l f s).cju.wCur = s.cju.wCur ∧ (abortService l f s).cju.wPrev = s.cju.wPrev ∧
    (abortService l f s).cju.wPrevValid = s.cju.wPrevValid ∧ (abortService l f s).ptu = s.ptu ∧
    (abortService l f s).lkc.helloTimer = s.lkc.helloTimer ∧ (abortService l f s).lkc.peers = s.lkc.peers ∧
    (abortService l f s).vtu = s.vtu ∧ (abortService l f s).rse.pull = s.rse.pull ∧
    (abortService l f s).rse.service.credits = s.rse.service.credits ∧
    (abortService l f s).rse.service.kind = s.rse.service.kind ∧
    (abortService l f s).rse.service.regionSet = s.rse.service.regionSet ∧
    (abortService l f s).rse.service.repair = s.rse.service.repair ∧
    (abortService l f s).rse.service.requester = s.rse.service.requester ∧
    (abortService l f s).rse.service.sendPos = s.rse.service.sendPos ∧
    (abortService l f s).rse.service.sent = s.rse.service.sent ∧
    (abortService l f s).rse.service.walkPos = s.rse.service.walkPos ∧ (abortService l f s).cmu.buffer = s.cmu.buffer
    ∧ (abortService l f s).cmu.header = s.cmu.header ∧ (abortService l f s).cmu.mask = s.cmu.mask ∧
    (abortService l f s).cmu.ms = s.cmu.ms ∧ (abortService l f s).cmu.request = s.cmu.request ∧
    (abortService l f s).cmu.response = s.cmu.response := by
  unfold abortService; (repeat' split) <;> simp

@[simp] theorem putTable_keeps (l : Link) (t : List VoteFrame) (s : State) :
    (putTable l t s).pending = s.pending ∧ (putTable l t s).resetLow = s.resetLow ∧
    (putTable l t s).position = s.position ∧ (putTable l t s).dev = s.dev ∧ (putTable l t s).times = s.times ∧
    (putTable l t s).start = s.start ∧ (putTable l t s).rgt = s.rgt ∧ (putTable l t s).ppt = s.ppt ∧
    (putTable l t s).pwq = s.pwq ∧ (putTable l t s).mpu = s.mpu ∧ (putTable l t s).sgu = s.sgu ∧
    (putTable l t s).cju = s.cju ∧ (putTable l t s).ptu = s.ptu ∧ (putTable l t s).lkc = s.lkc ∧
    (putTable l t s).vtu.agreedBase = s.vtu.agreedBase ∧ (putTable l t s).vtu.closedSet = s.vtu.closedSet ∧
    (putTable l t s).vtu.deciding = s.vtu.deciding ∧ (putTable l t s).vtu.last = s.vtu.last ∧
    (putTable l t s).vtu.level = s.vtu.level ∧ (putTable l t s).vtu.own = s.vtu.own ∧
    (putTable l t s).vtu.permitted = s.vtu.permitted ∧ (putTable l t s).vtu.timer = s.vtu.timer ∧
    (putTable l t s).rse = s.rse ∧ (putTable l t s).cmu = s.cmu := by
  simp [putTable]

end Sys2Proof.Machine
end

