-- ==== Sys2Proof/Laws/Memory.lean ====
section
/-! SUPPORT. The array: what a word reads as after a word has been put, and that every operation keeps its canonical form. -/

namespace Sys2Proof.Machine

open Sys2Proof

@[simp] theorem normalWord_idem (w : StoredWord) : normalWord (normalWord w) = normalWord w := by
  unfold normalWord
  split
  · simp_all
  · simp_all

@[simp] theorem normalWord_fresh (v : Word) : normalWord (freshWord v) = freshWord v := by
  unfold normalWord freshWord
  split <;> rfl

theorem memGet_memPut (m : List (Nat × StoredWord)) (a b : Nat) (w : StoredWord) :
    memGet (memPut m a w) b = if a = b ∧ a < Config.words then normalWord w else memGet m b := by
  unfold memGet memPut
  split
  · simp [assocGet_put, *]
  · simp [*]

theorem Memory.wf_put (m : List (Nat × StoredWord)) (a : Nat) (w : StoredWord) (h : Memory.wf m = true) :
    Memory.wf (memPut m a w) = true := by
  unfold memPut
  split
  · rename_i ha
    unfold Memory.wf at h ⊢
    simp only [Bool.and_eq_true, List.all_eq_true, decide_eq_true_eq, bne_iff_ne, beq_iff_eq] at h ⊢
    unfold assocPut
    split
    · exact ⟨assocRising_erase _ _ _ h.1, fun e he => h.2 e (mem_assocErase _ _ _ he)⟩
    · refine ⟨assocRising_insert _ _ _ _ (Nat.zero_le a) h.1, fun e he => ?_⟩
      rcases mem_assocInsert _ _ _ _ he with rfl | he
      · exact ⟨⟨ha, by assumption⟩, normalWord_idem w⟩
      · exact h.2 e he
  · exact h

theorem Memory.wf_foldl {α : Type} (f : List (Nat × StoredWord) → α → List (Nat × StoredWord))
    (hf : ∀ m a, Memory.wf m = true → Memory.wf (f m a) = true) (l : List α) (m : List (Nat × StoredWord))
    (h : Memory.wf m = true) : Memory.wf (l.foldl f m) = true := by
  induction l generalizing m with
  | nil => exact h
  | cons a l ih => exact ih _ (hf m a h)

theorem Memory.wf_memOf (content : List (Nat × StoredWord)) : Memory.wf (memOf content) = true :=
  Memory.wf_foldl _ (fun m e h => Memory.wf_put m e.1 e.2 h) _ _ rfl

/-- Two arrays in canonical form that read alike are equal data. -/
theorem Memory.ext (m n : List (Nat × StoredWord)) (hm : Memory.wf m = true) (hn : Memory.wf n = true)
    (h : ∀ a, memGet m a = memGet n a) : m = n := by
  unfold Memory.wf at hm hn
  simp only [Bool.and_eq_true, List.all_eq_true, decide_eq_true_eq, bne_iff_ne, beq_iff_eq] at hm hn
  have unlisted : ∀ (l : List (Nat × StoredWord)) (a : Nat), (∀ e ∈ l, e.2 ≠ StoredWord.unlisted) →
      assocFind l a ≠ some StoredWord.unlisted := by
    intro l a
    induction l with
    | nil => simp [assocFind]
    | cons e l ih => grind [assocFind]
  refine assocRising_ext m n 0 hm.1 hn.1 (fun a => ?_)
  have ha := h a
  have um := unlisted m a (fun e he => (hm.2 e he).1.2)
  have un := unlisted n a (fun e he => (hn.2 e he).1.2)
  unfold memGet assocGet at ha
  cases hx : assocFind m a <;> cases hy : assocFind n a <;> simp_all

/-! ### The operations keep the form -/

@[simp] theorem countCorrected_mpu (i : Nat) (s : State) : (countCorrected i s).mpu = s.mpu := by simp

theorem storeWord_mem (a : Nat) (v : Word) (s : State) : (storeWord a v s).mpu.mem = memPut s.mpu.mem a (freshWord v) := rfl

theorem writeWord_mem (a : Nat) (old new : Word) (s : State) :
    (writeWord a old new s).mpu.mem = memPut s.mpu.mem a (freshWord new) := by
  unfold writeWord accountWrite
  (repeat' split) <;> simp [storeWord_mem, setSig]

theorem arrayLaw_storeWord (a : Nat) (v : Word) (s : State) (h : arrayLaw s = true) : arrayLaw (storeWord a v s) = true :=
  Memory.wf_put _ _ _ h

theorem arrayLaw_writeWord (a : Nat) (old new : Word) (s : State) (h : arrayLaw s = true) :
    arrayLaw (writeWord a old new s) = true := by
  unfold arrayLaw
  rw [writeWord_mem]
  exact Memory.wf_put _ _ _ h

theorem arrayLaw_scrubWord (found : Nat → State → State) (hf : ∀ a s, (found a s).mpu = s.mpu) (a : Nat) (s : State)
    (h : arrayLaw s = true) : arrayLaw (scrubWord found a s) = true := by
  unfold scrubWord
  split
  · exact h
  · have := arrayLaw_storeWord a (readWord s a).value s h
    unfold arrayLaw at this ⊢
    dsimp only
    split <;> simpa using this
  · unfold arrayLaw at h ⊢
    rw [hf]
    exact h

theorem arrayLaw_scrubBlock (found : Nat → State → State) (hf : ∀ a s, (found a s).mpu = s.mpu) (b : Nat) (s : State)
    (h : arrayLaw s = true) : arrayLaw (scrubBlock found b s) = true := by
  unfold scrubBlock
  generalize blockWords b = l
  induction l generalizing s with
  | nil => exact h
  | cons a l ih => exact ih _ (arrayLaw_scrubWord found hf a s h)

theorem overwriteWord_mem (a : Nat) (v : Word) (s : State) :
    (overwriteWord a v s).mpu.mem = memPut s.mpu.mem a (freshWord v) := by
  unfold overwriteWord
  dsimp only
  rw [writeWord_mem]
  split <;> simp

theorem arrayLaw_overwriteAll (ws : List (Nat × Word)) (s : State) (h : arrayLaw s = true) :
    arrayLaw (overwriteAll ws s) = true := by
  unfold overwriteAll
  induction ws generalizing s with
  | nil => exact h
  | cons w ws ih =>
    refine ih _ ?_
    unfold arrayLaw
    rw [overwriteWord_mem]
    exact Memory.wf_put _ _ _ h

theorem arrayLaw_takeStored (a : Nat) (v : Word) (s : State) (h : arrayLaw s = true) :
    arrayLaw (takeStored a v s) = true :=
  Memory.wf_put _ _ _ h

theorem Memory.wf_storeVisit (m : List (Nat × StoredWord)) (v : Nat × Option Word) (h : Memory.wf m = true) :
    Memory.wf (storeVisit m v) = true := by
  unfold storeVisit
  split
  · exact Memory.wf_put _ _ _ h
  · exact h

theorem Memory.wf_arrayAtReset (s : State) (cut : Option Cut) (h : arrayLaw s = true) :
    Memory.wf (arrayAtReset s cut) = true := by
  have fold : ∀ l : List (Nat × Option Word), Memory.wf (l.foldl storeVisit s.mpu.mem) = true := fun l =>
    Memory.wf_foldl _ Memory.wf_storeVisit l _ h
  unfold arrayAtReset cutArray
  cases cut with
  | none => exact h
  | some c =>
    dsimp only
    split
    · exact h
    · split
      · split
        · exact Memory.wf_put _ _ _ (fold _)
        · exact fold _
      · exact h

/-! ### Word by word -/

theorem memGet_overwriteAll (ws : List (Nat × Word)) (s : State) (a : Nat) (h : a ∉ ws.map Prod.fst) :
    memGet (overwriteAll ws s).mpu.mem a = memGet s.mpu.mem a := by
  unfold overwriteAll
  induction ws generalizing s with
  | nil => rfl
  | cons w ws ih =>
    simp only [List.map_cons, List.mem_cons, not_or] at h
    rw [List.foldl_cons, ih _ h.2, overwriteWord_mem, memGet_memPut, if_neg (fun hh => h.1 hh.1.symm)]

theorem memGet_overwriteAll_of_mem (ws : List (Nat × Word)) (s : State) (a : Nat) (v : Word)
    (nd : (ws.map Prod.fst).Nodup) (hv : (a, v) ∈ ws) (ha : a < Config.words) :
    memGet (overwriteAll ws s).mpu.mem a = freshWord v := by
  induction ws generalizing s with
  | nil => simp at hv
  | cons w ws ih =>
    simp only [List.map_cons, List.nodup_cons] at nd
    rcases List.mem_cons.1 hv with rfl | hv
    · have := memGet_overwriteAll ws (overwriteWord a v s) a nd.1
      unfold overwriteAll at this ⊢
      rw [List.foldl_cons, this, overwriteWord_mem, memGet_memPut, if_pos ⟨rfl, ha⟩, normalWord_fresh]
    · exact ih _ nd.2 hv

theorem blockWords_nodup (b : Nat) : (blockWords b).Nodup := by
  unfold blockWords
  exact List.Nodup.map (fun i j h => by simpa using h) List.nodup_range

theorem mem_blockWords (b a : Nat) : a ∈ blockWords b ↔ blockOf a = b := by
  unfold blockWords blockOf Config.blockWords
  simp only [List.mem_map, List.mem_range]
  constructor
  · rintro ⟨i, hi, rfl⟩; omega
  · rintro rfl; exact ⟨a % 16, by omega, by omega⟩

end Sys2Proof.Machine
end

