-- ==== Sys2Proof/Laws/Ops.lean ====
section
/-! SUPPORT. What the shared operations can do: the release of held transfers, the end of a step, the answer of a command and
the words of an area. -/

namespace Sys2Proof.Machine

open Sys2Proof

/-! ### Held transfers -/

theorem judge_answers (w : Bool) (t : Transfer) (s : State) (ini : Initiator) (h : t.ini ≠ ini) :
    (judge w t s).1.ppt.answers.get ini = s.ppt.answers.get ini := by
  unfold judge
  (repeat' split) <;> simp [giveAnswer, h]

theorem judge_entries (w : Bool) (t : Transfer) (s : State) : ∃ more, (judge w t s).1.pwq.entries = s.pwq.entries ++ more := by
  unfold judge
  (repeat' split) <;> simp
  unfold acceptWrite
  (repeat' split) <;> simp

theorem releaseOne_answers (h : Held) (s : State) (ini : Initiator) (hi : h.transfer.ini ≠ ini) :
    (releaseOne h s).ppt.answers.get ini = s.ppt.answers.get ini := by
  unfold releaseOne
  (repeat' split) <;> simp [unhold, rehold, judge_answers _ _ _ _ hi]

theorem releaseOne_entries (h : Held) (s : State) : ∃ more, (releaseOne h s).pwq.entries = s.pwq.entries ++ more := by
  unfold releaseOne
  (repeat' split) <;> simp [judge_entries]

/-- The release of held transfers only appends to the queue. -/
theorem releaseHeld_entries (s : State) : ∃ more, (releaseHeld s).pwq.entries = s.pwq.entries ++ more := by
  unfold releaseHeld
  split
  · simp
  · rename_i hp
    clear hp
    generalize s.ppt.held = l
    induction l generalizing s with
    | nil => simp
    | cons h l ih =>
      obtain ⟨m1, h1⟩ := releaseOne_entries h s
      obtain ⟨m2, h2⟩ := ih (releaseOne h s)
      exact ⟨m1 ++ m2, by rw [List.foldl_cons, h2, h1, List.append_assoc]⟩

/-- The release answers only initiators that have a transfer held. -/
theorem releaseHeld_answers (s : State) (ini : Initiator) (h : heldOf s ini = none) :
    (releaseHeld s).ppt.answers.get ini = s.ppt.answers.get ini := by
  unfold releaseHeld
  split
  · rfl
  · rename_i hp
    clear hp
    unfold heldOf at h
    revert h
    generalize s.ppt.held = l
    intro h
    induction l generalizing s with
    | nil => rfl
    | cons x l ih =>
      rw [List.find?_cons] at h
      split at h
      · simp at h
      · rename_i hx
        rw [List.foldl_cons, ih (releaseOne x s) h, releaseOne_answers x s ini (by simpa using hx)]

theorem releaseHeld_none (s : State) (h : s.ppt.held = []) : releaseHeld s = s := by
  unfold releaseHeld
  rw [h]
  split <;> rfl

/-- A read that has waited its hazard out and may be read now is requested of the MPU, whatever entries were accepted later
(R30). -/
theorem judge_waited (t : Transfer) (s : State) (hc : accessCheck s t = none) (hr : t.write = false)
    (hb : s.cju.chan ≠ some .rollingBack) : judge true t s = (s, some .access) := by
  unfold judge
  rw [hc]
  simp [hr, hb]

/-! ### The service's request -/

/-- A server grant has room for its BLOCK in the transmit queue (R115; notes/assumptions/40). -/
theorem blockRoom_of_serverRead (s : State) (h : linkRequest s = some .serverRead) : blockRoom s = true := by
  unfold linkRequest at h
  split at h
  · simp at h
  · split at h
    · rename_i hc
      exact hc.2.2
    · simp at h

/-! ### Findings -/

/-- Of the patrol's records a finding changes only whether the region walked has become SUSPECT, and that never back
(R97, R99, R101). -/
theorem markSuspect_ptu (index : Nat) (located : Bool) (s : State) :
    (markSuspect index located s).ptu = { s.ptu with turned := (markSuspect index located s).ptu.turned } ∧
      (s.ptu.turned = true → (markSuspect index located s).ptu.turned = true) := by
  unfold markSuspect
  (repeat' split) <;> simp_all

/-! ### Presence of a peer (R118) -/

theorem silenceDue_iff (l : Link) (n : BitVec 32) (s : State) (h : (s.lkc.peers.get l).lastFrame = some n) :
    silenceDue l s = true ↔ (s.lkc.peers.get l).heard = true ∧ s.times.peerSilence ≤ (s.cmu.ms - n).toNat := by
  simp [silenceDue, h]

/-- A frame of a peer that is HEARD and whose presence was refreshed in this millisecond refreshes nothing more. -/
theorem refresh_heard (l : Link) (s : State) (hh : (s.lkc.peers.get l).heard = true)
    (hf : (s.lkc.peers.get l).lastFrame = some s.cmu.ms) : refresh l s = s := by
  have hp : { s.lkc.peers.get l with heard := true, lastFrame := some s.cmu.ms } = s.lkc.peers.get l := by
    cases h : s.lkc.peers.get l
    simp_all
  simp only [refresh, hh, hp, putPeer, PerLink.put_get, if_true]

/-! ### The end of a step -/

theorem serviceTick_pwq (s : State) : (serviceTick s).pwq = s.pwq := by simp

theorem serviceTick_idle (s : State) (h : serving s = false) : serviceTick s = { s with rse.service.timer := none } := by
  have hp : s.rse.service.phase = .idle := by simpa [serving] using h
  have h1 : walkEnds s = s := by simp [walkEnds, hp]
  have h2 : marksReturn s = s := by simp [marksReturn, hp]
  have h3 : nothingLeft s = s := by simp [nothingLeft, hp]
  have h4 : finishService s = s := by
    unfold finishService
    split
    · simp [hp]
    · rfl
  unfold serviceTick creditTimer
  rw [h1, h2, h3, h4]
  simp [serverTarget, hp]

/-- The end of a service with DONE leaves no mark that was not gone before. -/
theorem finishService_resend (s : State) : (finishService s).cju.resend = s.cju.resend := by
  unfold finishService
  split
  · split
    · rename_i h
      unfold endService
      (repeat' split) <;> simp [h.2.1]
    · rfl
  · rfl

theorem serviceTick_resend (s : State) : (serviceTick s).cju.resend = s.cju.resend := by
  unfold serviceTick
  simp [finishService_resend]

/-- Everything that the end of a service with DONE does to the service record. -/
theorem finishService_service (s : State) :
    (finishService s).rse.service = s.rse.service ∨
      s.rse.service.phase = .finishing ∧ s.cju.resend = [] ∧
        (finishService s).rse.service =
          { s.rse.service with phase := .idle, timer := none, tried := [], waiting := false } := by
  unfold finishService
  split
  · split
    · rename_i h
      unfold endService
      (repeat' split) <;> simp_all
    · exact Or.inl rfl
  · exact Or.inl rfl

theorem creditTimer_service (s : State) :
    (creditTimer s).rse.service = { s.rse.service with timer := (creditTimer s).rse.service.timer } ∧
      (creditTimer s).rse.service.timer =
        if s.rse.service.credits = 0 ∧ (serverTarget s).isSome = true then
          some (s.rse.service.timer.getD s.times.pullSilence)
        else none := by
  unfold creditTimer
  split <;> simp

theorem serverTarget_congr (s t : State) (hp : t.rse.service.phase = s.rse.service.phase)
    (hn : t.rse.service.sendPos = s.rse.service.sendPos) (hr : t.rse.service.repair = s.rse.service.repair)
    (hw : t.rse.service.walkPos = s.rse.service.walkPos) (hv : t.rse.service.waiting = s.rse.service.waiting)
    (h1 : t.cju.wPrev = s.cju.wPrev) (h2 : t.cju.resend = s.cju.resend) : serverTarget t = serverTarget s := by
  unfold serverTarget
  simp only [hp, hn, hr, hw, hv, h1, h2]



/-- Where the walk's end, a mark in FINISHING and an empty rest bring the service record. -/
theorem nothingLeft_service (s : State) :
    (nothingLeft (marksReturn (walkEnds s))).rse.service =
      match s.rse.service.phase with
      | .idle => s.rse.service
      | .sending => if serverTarget s = none then { s.rse.service with phase := .finishing } else s.rse.service
      | .walking =>
        if s.rse.service.walkPos = some .finished then
          { s.rse.service with
            phase := if s.cju.resend = [] then .finishing else .resending, sendPos := 0, tried := [], waiting := false }
        else s.rse.service
      | .resending => if s.cju.resend = [] then { s.rse.service with phase := .finishing } else s.rse.service
      | .finishing =>
        if s.cju.resend = [] then s.rse.service
        else { s.rse.service with phase := .resending, tried := [], waiting := false } := by
  cases hp : s.rse.service.phase <;> simp only [walkEnds, marksReturn, nothingLeft, hp]
  · simp [hp]
  · by_cases h : serverTarget s = none <;> simp [hp, h]
  · by_cases h1 : s.rse.service.walkPos = some .finished <;> by_cases h2 : s.cju.resend = [] <;> simp [hp, h1, h2]
  · by_cases h2 : s.cju.resend = [] <;> simp [hp, h2]
  · by_cases h2 : s.cju.resend = [] <;> simp [hp, h2]

/-- The service record after the service has gone on: the credit silence timer is settled last. -/
theorem serviceTick_service (s : State) :
    (serviceTick s).rse.service =
      { (finishService (nothingLeft (marksReturn (walkEnds s)))).rse.service with
        timer :=
          if s.rse.service.credits = 0 ∧ (serverTarget (serviceTick s)).isSome = true then
            some (s.rse.service.timer.getD s.times.pullSilence)
          else none } := by
  have hs : serverTarget (serviceTick s) = serverTarget (finishService (nothingLeft (marksReturn (walkEnds s)))) := by
    unfold serviceTick
    apply serverTarget_congr <;> simp
  have hf := finishService_service (nothingLeft (marksReturn (walkEnds s)))
  obtain ⟨hc, ht⟩ := creditTimer_service (finishService (nothingLeft (marksReturn (walkEnds s))))
  rw [hs]
  unfold serviceTick
  refine hc.trans ?_
  rw [ht]
  rcases hf with hf | ⟨-, -, hf⟩
  · simp [hf]
  · have : serverTarget (finishService (nothingLeft (marksReturn (walkEnds s)))) = none := by simp [serverTarget, hf]
    simp [this]

/-- How the service goes on by itself. -/
theorem serviceTick_goesOn (s : State) : ServiceGoesOn s (serviceTick s) := by
  have ht := serviceTick_service s
  have hf := finishService_service (nothingLeft (marksReturn (walkEnds s)))
  have hm : (nothingLeft (marksReturn (walkEnds s))).cju = s.cju := by simp
  rw [nothingLeft_service, hm] at hf
  generalize (finishService (nothingLeft (marksReturn (walkEnds s)))).rse.service = X at *
  unfold ServiceGoesOn
  generalize serviceTick s = t at *
  simp only []
  rw [ht]
  clear ht hm
  cases hp : s.rse.service.phase <;> simp only [hp] at hf
  all_goals
    (try split at hf) <;> by_cases hr : s.cju.resend = [] <;> rcases hf with hf | ⟨h1, h2, hf⟩ <;> subst hf <;> simp_all

theorem kick_eq (s : State) : kick s = { s with lkc.tx := (kick s).lkc.tx } :=
  State.ext_fields _ _ (by simp) (by simp) (by simp) (by simp) (by simp) (by simp) (by simp) (by simp) (by simp) (by simp)
    (by simp) (by simp) (by simp)
    (by
      have h1 := (kick_keeps s)
      cases hk : kick s with
      | mk a1 a2 a3 a4 a5 a6 a7 a8 a9 a10 a11 a12 a13 lkc a15 a16 a17 =>
        rw [hk] at h1
        cases lkc
        simp_all)
    (by simp) (by simp) (by simp)

theorem settle_resend (s : State) : (settle s).cju.resend = s.cju.resend := by
  unfold settle
  simp [serviceTick_resend]

/-- How the service goes on by itself at the end of a step. -/
theorem settle_goesOn (s : State) : ServiceGoesOn s (settle s) := by
  have h := serviceTick_goesOn (releaseHeld s)
  have h1 : serverTarget (releaseHeld s) = serverTarget s := by apply serverTarget_congr <;> simp
  have h2 : serverTarget (settle s) = serverTarget (serviceTick (releaseHeld s)) := by
    unfold settle
    apply serverTarget_congr <;> simp
  unfold ServiceGoesOn at h ⊢
  rw [h2]
  have h3 : (settle s).rse.service = (serviceTick (releaseHeld s)).rse.service := by simp [settle]
  rw [h3]
  simpa [h1] using h

/-- Everything the end of a step may change. -/
theorem settle_end (s : State) : EndOfStep s (settle s) := by
  refine ⟨?_, settle_goesOn s, ?_, ?_, ?_, ?_⟩
  · have h := settle_keeps s
    have hr := settle_resend s
    revert h hr
    generalize settle s = t
    intro h hr
    obtain ⟨a1, a2, a3, a4, a5, a6, a7, a8, ⟨b1, b2, b3, b4⟩, a10, a11, c, a13, ⟨d1, d2, d3⟩, a15, ⟨e1, e2⟩, m⟩ := t
    obtain ⟨s1, s2, s3, s4, s5, s6, s7, s8, ⟨q1, q2, q3, q4⟩, s10, s11, sc, s13, ⟨p1, p2, p3⟩, s15, ⟨r1, r2⟩, sm⟩ := s
    cases c; cases e2; cases m; cases sc; cases r2; cases sm
    simp_all
  · obtain ⟨more, h⟩ := releaseHeld_entries s
    exact ⟨more, by simp [settle, h]⟩
  · intro ini h
    simpa [settle] using releaseHeld_answers s ini h
  · intro h
    have := releaseHeld_none s h
    simp [settle, this]
  · intro h hs
    have h1 := releaseHeld_none s h
    have h2 := serviceTick_idle s hs
    have h3 := kick_eq { s with rse.service.timer := none }
    unfold settle
    rw [h1, h2]
    rw [h3]

/-! ### Areas of words -/

theorem areaWord_putWords (area : List (Nat × Word)) (at_ i : Nat) (ws : List Word) :
    areaWord (putWords area at_ ws) i =
      if at_ ≤ i ∧ i < at_ + ws.length then ws.getD (i - at_) 0 else areaWord area i := by
  induction ws generalizing area at_ with
  | nil => rw [putWords, if_neg (by rw [List.length_nil]; omega)]
  | cons w ws ih =>
    rw [putWords, ih]
    unfold areaWord
    rw [assocGet_put]
    by_cases h : at_ = i
    · subst h; simp
    · by_cases h2 : at_ + 1 ≤ i ∧ i < at_ + 1 + ws.length
      · have h3 : at_ ≤ i ∧ i < at_ + (w :: ws).length := by rw [List.length_cons]; omega
        have h4 : i - at_ = (i - (at_ + 1)) + 1 := by omega
        rw [if_pos h2, if_pos h3, h4]
        rfl
      · have h3 : ¬(at_ ≤ i ∧ i < at_ + (w :: ws).length) := by rw [List.length_cons]; omega
        rw [if_neg h2, if_neg h3, if_neg h]

end Sys2Proof.Machine
end

