-- ==== Sys2Proof/Tests/Slice0.lean ====
section
/-! SUPPORT. Tests of the model: the ill-formed commands that WellFormed refuses, the book's worked values, and for each
statement with hypotheses a state and operands that meet them. -/

set_option Elab.async false

namespace Sys2Proof.Machine

open Sys2Proof

/-! ### WellFormed refuses -/

theorem test_illFormed_address : (Instr.memoryRead .data 2 15).wellFormed = false := by decide
theorem test_illFormed_write_address : (Instr.memoryWrite .dma 5 15 0).wellFormed = false := by decide
theorem test_illFormed_params : (Instr.loadRegion 1 (List.replicate 254 0)).wellFormed = false := by decide +kernel
theorem test_wellFormed_params : (Instr.loadRegion 1 (List.replicate 253 0)).wellFormed = true := by decide +kernel
theorem test_illFormed_entries : (Instr.voteReceived .one 0 ⟨1, .closed, []⟩).wellFormed = false := by decide
theorem test_illFormed_entry_value :
    (Instr.voteReceived .one 0 ⟨1, .closed, List.replicate 16 ⟨.valid, 4294967296⟩⟩).wellFormed = false := by decide +kernel
theorem test_illFormed_pull :
    (Instr.pullReceived .two 0 ⟨.delta, 8, 0, 0, List.replicate 33 0⟩).wellFormed = false := by decide +kernel
theorem test_illFormed_block : (Instr.blockReceived .one 0 ⟨0, 0, List.replicate 15 0⟩).wellFormed = false := by decide
theorem test_illFormed_pullEnd_done : (Instr.pullEndReceived .one 0 ⟨.done, 0, 0, none⟩).wellFormed = false := by decide
theorem test_illFormed_pullEnd_stale :
    (Instr.pullEndReceived .one 0 ⟨.stale, 0, 0, some (List.replicate 16 ⟨.absent, 0⟩)⟩).wellFormed = false := by decide
theorem test_illFormed_content : (Instr.powerOn 0 [(1048576, StoredWord.unlisted)]).wellFormed = false := by decide
theorem test_illFormed_cut : (Instr.pinResetAssert (some ⟨17, none⟩)).wellFormed = false := by decide

/-! ### The book's worked values -/

/-- The check value of R183 over the nine characters 123456789. -/
theorem test_crc_check_value : crc16 [0x31, 0x32, 0x33, 0x34, 0x35, 0x36, 0x37, 0x38, 0x39] = 0x29B1 := by decide +kernel

theorem test_queue_clamp : (clampedUpper [2, 9], clampedLower [2, 9]) = (4, 3) := by decide
theorem test_timing_clamp : clampedTimes [0, 0, 0, 0] = ⟨10, 2, 20, 5⟩ := by decide
theorem test_timing_clamp_high : clampedTimes [6000, 201, 251, 101] = ⟨5000, 200, 250, 100⟩ := by decide

/-- Byte enable k selects bits 8k to 8k + 7. -/
theorem test_merge : mergeBytes 2 0x11223344 0xAABBCCDD = 0x1122CC44 := by decide

theorem test_residue_edges : (residue 0x7FFFFFFF, residue 0xFFFFFFFE, residue 0xFFFFFFFF) = (0, 0, 1) := by decide

/-- A weight that reduces to 0 is 1 (R55). -/
theorem test_weight_zero : weight ⟨.vital, 0, 1, 3, 0, 2147483646, 1, true⟩ 1 = 1 := by decide

/-- The fingerprint of an empty table is never 0 (R10). -/
theorem test_fingerprint_not_zero : fingerprintOf [] ≠ 0 := by decide +kernel

/-! ### States for the witnesses -/

/-- A part with one region of each kind: blocks 10 and 11 VITAL, block 20 CODE, block 30 PLAIN. -/
def Test.table : List (Nat × Region) :=
  [(0, ⟨⟨.vital, 10, 2, 3, 0, 5, 3, true⟩, .normal, 0, 0⟩), (1, ⟨⟨.code, 20, 1, 7, 7, 11, 7, true⟩, .normal, 0, 0⟩),
   (2, ⟨⟨.plain, 30, 1, 63, 0, 0, 0, false⟩, .normal, 0, 0⟩)]

/-- The signature entries of that part: slots 0 and 7 VALID at 0. -/
def Test.entries : List SigEntry :=
  (List.range 16).map (fun k => if k = 0 ∨ k = 7 then ⟨.valid, 0⟩ else ⟨.absent, 0⟩)

/-- A peer that is HEARD, MATCHED and an eligible server. -/
def Test.peer : Peer :=
  ⟨true, true, some ⟨⟨.running, some .ready, 0, true, false, none⟩, 0x1234⟩, some 0, .member, 0, none⟩

/-- In CONFIGURING with the table loaded. -/
def Test.configured : State := { State.reset with rgt := ⟨Test.table, 0x1234⟩ }

/-- RUNNING with a channel state, an agreed base and both peers HEARD. -/
def Test.running (c : ChannelState) : State :=
  { Test.configured with
    dev := .running
    cju := { Test.configured.cju with chan := some c }
    vtu := { Test.configured.vtu with agreedBase := true, closedSet := Test.entries }
    ptu := ⟨true, 64, some 10, 0, false, some 64, false, false⟩
    lkc.peers := ⟨Test.peer, Test.peer⟩ }

/-- A write of the first word of block 10, waiting at the head of the queue. -/
def Test.entry (word : Nat) (be : BitVec 4) (region : Nat) (signed : Bool) : PwqEntry := ⟨word, 7, be, .data, region, signed⟩

/-- A journal entry for a block. -/
def Test.preImage (b : Nat) : JournalEntry := ⟨b, List.replicate 16 9, List.replicate 16 true⟩

/-- A word with two bits in error. -/
def Test.bad : StoredWord := ⟨0, 3, .good, 0⟩

/-- A word with one bit in error. -/
def Test.weak : StoredWord := ⟨0, 1, .good, 0⟩

/-- A command that drains, waiting. -/
def Test.waiting (f : CmdFrame) : State :=
  { Test.configured with cmu := { Test.configured.cmu with header := ⟨.pending, 0, 0, 0⟩, buffer := some f } }

/-- Those entries agree with themselves: none is SUSPECT. -/
theorem test_entries_agree (k : Nat) (h : k < 16) :
    ∃ a b, Test.entries[k]? = some a ∧ Test.entries[k]? = some b ∧ Claim.entriesAgree a b := by
  have all : ∀ k < 16, ∃ a, Test.entries[k]? = some a ∧ (a.flag = .absent ∨ a.flag = .valid) := by
    intro k h
    have : k = 0 ∨ k = 7 ∨ Test.entries[k]? = some ⟨.absent, 0⟩ := by
      revert k
      decide +kernel
    rcases this with rfl | rfl | h
    · exact ⟨⟨.valid, 0⟩, rfl, Or.inr rfl⟩
    · exact ⟨⟨.valid, 0⟩, rfl, Or.inr rfl⟩
    · exact ⟨_, h, Or.inl rfl⟩
  obtain ⟨a, e, f⟩ := all k h
  exact ⟨a, a, e, e, f.imp (fun f => ⟨f, f⟩) (fun f => ⟨f, f, rfl⟩)⟩

/-! ### Witnesses: the bus and the commands -/

theorem witness_HeldTransfersWait_access :
    let s := Test.running .opened
    let addr : BitVec 26 := 640
    s.resetLow = false ∧ addr.toNat < 0x400000 ∧ heldOf s .data = none ∧ portHold s = false ∧ s.mpu.initOp = none ∧
      (regionOf s (addr.toNat / 64)).map Prod.fst = some 0 ∧
      (∀ i r, regionOf s (addr.toNat / 64) = some (i, r) → r.desc.rights.getLsbD (rightBit .data false) = true) ∧
      (∀ e ∈ s.pwq.entries, e.word ≠ addr.toNat / 4) ∧ s.cju.chan ≠ some .rollingBack := by
  refine ⟨rfl, by decide, rfl, rfl, rfl, rfl, ?_, by decide, by decide⟩
  intro i r h
  cases h
  decide

theorem witness_WriteIsPosted :
    let s := Test.running .opened
    s.resetLow = false ∧ heldOf s .data = none ∧ portHold s = false ∧ s.mpu.initOp = none ∧
      accessCheck s ⟨.data, true, 160, 15, 7⟩ = none ∧ phaseRefusal s .vital = none ∧ s.pwq.hold = false := by
  decide

theorem witness_HeldTransfersWait :
    let s := Test.running .opened
    let full := { s with pwq := { s.pwq with entries := [Test.entry 160 15 0 true], hold := true } }
    let back := Test.running .rollingBack
    (portHold (Test.waiting ⟨.reset, 1, []⟩) = true ∧ heldOf (Test.waiting ⟨.reset, 1, []⟩) .data = none) ∧
      (accessCheck full ⟨.data, true, 161, 15, 7⟩ = none ∧ full.pwq.hold = true ∧ portHold full = false) ∧
      (accessCheck full ⟨.data, false, 160, 15, 0⟩ = none ∧ 0 < full.pwq.entries.countP (fun e => e.word == 160)) ∧
      (accessCheck back ⟨.data, false, 160, 15, 0⟩ = none ∧ signedBlock back 10 = true ∧
        back.pwq.entries.countP (fun e => e.word == 160) = 0 ∧ back.cju.chan = some .rollingBack) := by
  decide

/-- A read that has waited its hazard out is requested of the MPU though a later entry for its word waits (R30). -/
theorem test_hazard_is_not_extended :
    let e := Test.entry 480 15 2 false
    let s := { Test.running .opened with
      ppt.held := [⟨⟨.dma, false, 480, 15, 0⟩, .hazard 1⟩], pwq := ⟨[e, e], false, 24, 8⟩ }
    (headWrite s).ppt.held = [⟨⟨.dma, false, 480, 15, 0⟩, .access⟩] ∧ (headWrite s).pwq.entries = [e] := by
  decide +kernel

/-- Each check of R20 in turn refuses, the write into CODE by the phase check. -/
theorem witness_AccessCheckRefuses :
    let s := Test.running .opened
    let init := { Test.configured with mpu.initOp := some ⟨30, 30, 31⟩ }
    (accessCheck init ⟨.data, false, 160, 15, 0⟩).map Prod.fst = some .initBusy ∧
      accessCheck s ⟨.data, false, 0, 15, 0⟩ = some (.notMapped, none) ∧
      accessCheck s ⟨.fetch, false, 160, 15, 0⟩ = some (.rights, some 0) ∧
      accessCheck (Test.running .restoring) ⟨.data, true, 160, 15, 0⟩ = some (.restoring, some 0) ∧
      accessCheck s ⟨.data, true, 320, 15, 0⟩ = some (.phase, some 1) ∧
      accessCheck s ⟨.data, true, 160, 15, 0⟩ = none := by
  decide

/-- The first and the last block of a region, the block behind it, and slots of one region, of another and of none. -/
theorem witness_AccessCheckRefuses_regions :
    let s := Test.configured
    tableLaw s = true ∧ (regionOf s 9).map Prod.fst = none ∧ (regionOf s 10).map Prod.fst = some 0 ∧
      (regionOf s 11).map Prod.fst = some 0 ∧ (regionOf s 12).map Prod.fst = none ∧
      (slotRegion s 0).map Prod.fst = some 0 ∧ (slotRegion s 7).map Prod.fst = some 1 ∧ slotRegion s 3 = none := by
  decide +kernel

theorem witness_RefusalsAreCollapsed :
    let r : Record := ⟨0, 0, 1, .accessRefused .rights .data 4 none 255⟩
    let s := { State.reset with cmu := { State.reset.cmu with events := [r], nextSeq := 1, alert := true } }
    (recordRefusal .rights .data 8 none s).cmu.events = [r] ∧
      (recordRefusal .phase .data 8 none s).cmu.events.length = 2 ∧
      (recordRefusal .phase .data 8 none
        { s with cmu := { s.cmu with events := List.replicate 64 r, dropped := 65535 } }).cmu.dropped = 65535 := by
  decide +kernel

theorem witness_AddressDecodeRefuses :
    (0x400800 : BitVec 26).toNat = 0x400800 ∧ (0x400400 : BitVec 26).toNat = 0x400400 ∧ State.reset.resetLow = false ∧
      (transfer .data true 0x400400 15 0 State.reset).ppt.answers.data = some ⟨.error, 0⟩ ∧
      (transfer .fetch false 0x400000 15 0 State.reset).ppt.answers.fetch = some ⟨.error, 0⟩ ∧
      (transfer .data false 0x4007FC 15 0 State.reset).ppt.answers.data = some ⟨.okay, 0⟩ := by
  decide +kernel

theorem witness_RequestAreaTakesBytes :
    0x400000 ≤ (0x4003F8 : BitVec 26).toNat ∧ (0x4003F8 : BitVec 26).toNat < 0x4003FC ∧
      areaWord (transfer .data true 0x4003F8 5 0xAABBCCDD State.reset).cmu.request 254 = 0x00BB00DD := by
  decide +kernel

theorem witness_OverrunIsNotTaken :
    (Test.waiting ⟨.endConfig, 3, []⟩).cmu.header.status = .pending ∧
      (transfer .data true submitAddr 15 0 (Test.waiting ⟨.endConfig, 3, []⟩)).cmu.buffer = some ⟨.endConfig, 3, []⟩ := by
  decide +kernel

/-- A frame with a nonzero low byte in word 0 names no command; an empty area has a bad check word. -/
theorem witness_BadFramesAreAnswered :
    parseCommand (putWords [] 0 [0x63050001, frameCheck [0x63050001]]) = .unknown 5 ∧ parseCommand [] = .badCheck ∧
      State.reset.cmu.header.status ≠ .pending := by
  decide +kernel

/-- The three answers to a frame: L of 254, a low byte in word 0, and a command. -/
theorem witness_BadFramesAreAnswered_checks :
    ¬Claim.frameChecks (putWords [] 0 [0x0105FE00]) ∧
      Claim.frameChecks (putWords [] 0 [0x01050001, frameCheck [0x01050001]]) ∧
      ¬Claim.frameNames (putWords [] 0 [0x01050001, frameCheck [0x01050001]]) ∧
      ¬Claim.frameNames (putWords [] 0 [0x13050000]) ∧ Claim.frameNames (putWords [] 0 [0x12050000]) := by
  unfold Claim.frameChecks Claim.frameNames Claim.frameLength
  decide +kernel

theorem witness_CommandIsItsSubmittedFrame :
    parseCommand (commandFrame .readRegion 9 [3] |> putWords [(1, 77)] 0) = .command .readRegion 9 [3] := by
  decide +kernel

theorem witness_CommandChecksRefuse :
    lengthFits .openCycle 1 = false ∧ lengthFits .clearTable 1 = true ∧ lengthFits .clearTable 2 = false ∧
      stateRefusal .loadRegion (Test.running .ready) = some .tableFrozen ∧
      stateRefusal .setQueue (Test.running .ready) = some .notConfiguring ∧
      stateRefusal .openCycle Test.configured = some .notRunning ∧
      stateRefusal .openCycle (Test.running .voting) = some .notDecided ∧
      stateRefusal .closeCycle (Test.running .ready) = some .notOpen ∧
      stateRefusal .openCycle (Test.running .excluded) = some .needsRestore ∧
      stateRefusal .restore (Test.running .catchup) = some .restoreActive ∧
      stateRefusal .restore (Test.running .ready) = some .notNeeded := by
  decide

theorem witness_takes : Claim.takes .clearTable Test.configured ∧ Claim.takes .reset Test.configured ∧
    Claim.takes .readState { Test.configured with mpu.initOp := some ⟨30, 30, 31⟩ } := by
  unfold Claim.takes
  decide

/-- Both ends of the parameter ranges: region 31, and the last block of the array. -/
theorem witness_DrainingCommandsStayPending :
    let s := Test.configured
    (takeClearTable 1 [31] s = s) ∧ (takeInitMemory 1 [65535, 1] s = s) ∧ (takeInitMemory 1 [0, 65536] s = s) := by
  decide +kernel

/-- The first index above the table, the first block above the array, and block counts of 0 and of one too many. -/
theorem witness_DrainingCommandsStayPending_badField :
    let s := Test.configured
    takeClearTable 1 [32] s = badField 1 1 s ∧ takeInitMemory 1 [65536, 1] s = badField 1 1 s ∧
      takeInitMemory 1 [0, 0] s = badField 2 1 s ∧ takeInitMemory 1 [65535, 2] s = badField 2 1 s ∧
      takeInitMemory 1 [0, 65537] s = badField 2 1 s ∧ Claim.takes .clearTable s ∧ Claim.takes .initMemory s := by
  unfold Claim.takes
  decide +kernel

/-! ### Witnesses: configuration -/

theorem witness_SlotTableIsLoaded :
    let classes : List PortClass := .journal :: .patrol :: .link :: .setup :: List.replicate 12 .proc
    classes.length = 16 ∧ [PortClass.proc, .journal, .patrol, .link, .setup].all (fun c => classes.contains c) = true ∧
      (takeLoadSlots 1 (classes.map (fun c => BitVec.ofNat 32 (portClassCode c))) Test.configured).mpu.slots = classes := by
  decide +kernel

/-- The first word that is no class code, 0 and 6 at the ends of the range, and a table without SETUP. -/
theorem witness_SlotTableIsLoaded_badField :
    slotsFault (1 :: 6 :: List.replicate 14 0) = some 2 ∧ slotsFault (0 :: List.replicate 15 5) = some 1 ∧
      slotsFault ([2, 3, 4] ++ List.replicate 13 1) = some 16 := by
  decide +kernel

/-- A request of the class at the pointer, one that the scan reaches behind slot 15, and none; of two reads the first held is
taken, and a grant that is not the next one changes nothing. -/
theorem witness_SlotTableIsLoaded_arbiter :
    let s := { Test.running .ready with
      pwq := { (Test.running .ready).pwq with entries := [Test.entry 480 15 2 false] } }
    let a : Held := ⟨⟨.dma, false, 480, 15, 0⟩, .access⟩
    let b : Held := ⟨⟨.data, false, 481, 15, 0⟩, .access⟩
    let r := { Test.running .ready with ppt.held := [⟨⟨.fetch, false, 480, 15, 0⟩, .rollback⟩, a, b] }
    s.mpu.slots.length = 16 ∧ (∀ c, c ∈ s.mpu.slots) ∧ nextGrant s = some (.headWrite, 1) ∧
      nextGrant { s with mpu.pointer := 15 } = some (.headWrite, 1) ∧
      nextGrant { s with mpu.pointer := 15, ptu.request := true } = some (.patrol, 0) ∧
      nextGrant (Test.running .ready) = none ∧ firstAccess r = some a ∧ nextGrant r = some (.procRead, 1) ∧
      (match exec .patrolRead s with | .next t => decide (t = s) | _ => false) = true := by
  refine ⟨by decide, ?_, ?_⟩
  · intro c
    cases c <;> decide
  · decide +kernel

/-- What the classes request: the write-back before the reads before the head, the capture of the head's block before a
rollback, a full buffer before a block to send, and INIT_MEMORY no more under a RESET. -/
theorem witness_SlotTableIsLoaded_requests :
    let w := Test.entry 160 15 0 true
    let s := { Test.running .opened with
      mpu := { (Test.running .opened).mpu with writeBack := some 160 }
      pwq := { (Test.running .opened).pwq with entries := [w] } }
    let init := { Test.configured with mpu := { Test.configured.mpu with initOp := some ⟨30, 30, 31⟩ } }
    Claim.requested s .proc .writeBack ∧ Claim.captureDue s w ∧ Claim.requested s .journal .capture ∧
      Claim.requested init .setup .initBlock ∧
      ¬Claim.requested { init with cmu := { init.cmu with buffer := some ⟨.reset, 1, []⟩ } } .setup .initBlock ∧
      ¬Claim.captureDue { s with cju := { s.cju with wCur := [10] } } w := by
  intro w s init
  have due : Claim.captureDue s w := by
    unfold Claim.captureDue
    decide +kernel
  have marked : ¬Claim.captureDue { s with cju := { s.cju with wCur := [10] } } w := by
    unfold Claim.captureDue
    decide +kernel
  refine ⟨Or.inl ⟨rfl, by decide⟩, due, Or.inl ⟨rfl, w, [], rfl, due⟩, Or.inl ⟨rfl, by decide, ?_⟩, ?_, marked⟩
  · intro f h
    cases h
  · rintro (⟨_, _, h⟩ | ⟨h, _⟩)
    · exact h _ rfl rfl
    · cases h

/-- A HEARD peer whose last frame is as old as the new time is SILENT, and one a millisecond younger is not. -/
theorem witness_TimesAreClamped :
    let s := { Test.configured with lkc.peers := ⟨Test.peer, { Test.peer with lastFrame := some 1 }⟩, cmu.ms := 20 }
    let t := takeSetTiming 1 [0, 0, 0, 0] s
    channelLaw s = true ∧ t.lkc.peers.one.heard = false ∧ t.lkc.peers.two.heard = true := by
  decide +kernel

theorem witness_QueueThresholdsAreClamped :
    let s := { Test.configured with
      pwq := ⟨List.replicate 4 (Test.entry 480 15 2 false), false, 24, 8⟩ }
    (takeSetQueue 1 [4, 3] s).pwq.hold = true ∧ (takeSetQueue 1 [5, 4] { s with pwq.hold := true }).pwq.hold = false := by
  decide +kernel

theorem witness_PatrolIsSet :
    (takeSetPatrol 1 [0, 1024] (Test.running .ready)).ptu = ⟨false, 1023, some 10, 0, false, none, false, false⟩ ∧
      (takeSetPatrol 1 [2, 5] (Test.running .ready)).ptu = (Test.running .ready).ptu := by
  decide +kernel

theorem witness_AlertMaskIsReplaced :
    (takeSetAlertMask 1 [524287] State.reset).cmu.mask = BitVec.allOnes 19 ∧
      (takeSetAlertMask 1 [524288] State.reset).cmu.header.status = .badField := by
  decide +kernel

theorem witness_TableChangesAfterTheDrain :
    let clear := Test.waiting ⟨.clearTable, 1, [0]⟩
    let load := Test.waiting ⟨.loadRegion, 1, [31, 3, 65535, 1, 63, 0, 0, 0, 0]⟩
    let bad := Test.waiting ⟨.loadRegion, 1, [31, 3, 65535, 2, 63, 0, 0, 0, 0]⟩
    Claim.drainedUnder .clearTable ⟨.clearTable, 1, [0]⟩ clear ∧ tableLaw clear = true ∧
      Claim.drainedUnder .loadRegion ⟨.loadRegion, 1, [31, 3, 65535, 1, 63, 0, 0, 0, 0]⟩ load ∧
      regionFault load.rgt.entries [31, 3, 65535, 1, 63, 0, 0, 0, 0] = none ∧
      Claim.drainedUnder .loadRegion ⟨.loadRegion, 1, [31, 3, 65535, 2, 63, 0, 0, 0, 0]⟩ bad ∧
      regionFault bad.rgt.entries [31, 3, 65535, 2, 63, 0, 0, 0, 0] = some 4 := by
  unfold Claim.drainedUnder
  decide +kernel

/-- One LOAD_REGION for each check of R6, with the word it is reported at. -/
theorem witness_TableChangesAfterTheDrain_checks :
    regionFault Test.table [32, 3, 0, 1, 0, 0, 0, 0, 0] = some 1 ∧
      regionFault Test.table [31, 4, 0, 1, 0, 0, 0, 0, 0] = some 2 ∧
      regionFault Test.table [31, 3, 65536, 1, 0, 0, 0, 0, 0] = some 3 ∧
      regionFault Test.table [31, 3, 65535, 2, 0, 0, 0, 0, 0] = some 4 ∧
      regionFault Test.table [31, 3, 11, 1, 0, 0, 0, 0, 0] = some 3 ∧
      regionFault Test.table [31, 3, 12, 1, 64, 0, 0, 0, 0] = some 5 ∧
      regionFault Test.table [31, 1, 12, 1, 1, 1, 1, 1, 0] = some 5 ∧
      regionFault Test.table [31, 1, 12, 1, 3, 7, 1, 1, 0] = some 6 ∧
      regionFault Test.table [31, 1, 12, 1, 3, 1, 2147483647, 1, 0] = some 7 ∧
      regionFault Test.table [31, 1, 12, 1, 3, 1, 2147483646, 0, 0] = some 8 ∧
      regionFault Test.table [31, 1, 12, 1, 3, 1, 1, 1, 2] = some 9 ∧
      regionFault Test.table [31, 1, 12, 1, 3, 1, 1, 1, 1] = none := by
  decide +kernel

/-- The overlap check fails where the checks before it hold, and the region that meets another at its end passes all ten. -/
theorem witness_TableChangesAfterTheDrain_overlap :
    (Claim.regionCheck Test.table [31, 3, 11, 1, 0, 0, 0, 0, 0] 4 ∧
        ¬Claim.regionCheck Test.table [31, 3, 11, 1, 0, 0, 0, 0, 0] 5) ∧
      Claim.regionCheck Test.table [31, 1, 12, 1, 3, 1, 1, 1, 1] 5 ∧
      Claim.regionCheck Test.table [31, 1, 12, 1, 3, 1, 1, 1, 1] 6 ∧
      Claim.regionCheck Test.table [31, 1, 12, 1, 3, 1, 1, 1, 1] 7 := by
  simp only [Claim.regionCheck]
  decide +kernel

theorem witness_InitZeroesItsBlock_begin :
    Claim.drainedUnder .initMemory ⟨.initMemory, 1, [30, 1]⟩ (Test.waiting ⟨.initMemory, 1, [30, 1]⟩) := by
  unfold Claim.drainedUnder
  decide

theorem witness_EndConfigEntersSigning :
    let s := Test.waiting ⟨.endConfig, 1, []⟩
    Claim.drainedUnder .endConfig ⟨.endConfig, 1, []⟩ s ∧ s.position ≠ 3 ∧ (∃ e ∈ s.rgt.entries, e.2.desc.kind = .vital) ∧
      s.dev = .configuring ∧ tableLaw s = true ∧
      Claim.drainedUnder .endConfig ⟨.endConfig, 1, []⟩ { s with position := 3 } ∧
      (∀ e ∈ ({ s with rgt := ⟨[], 0⟩ } : State).rgt.entries, e.2.desc.kind ≠ .vital) := by
  unfold Claim.drainedUnder
  decide +kernel

theorem witness_CommandResetTakesEffect :
    Claim.drainedUnder .reset ⟨.reset, 1, []⟩ (Test.waiting ⟨.reset, 1, []⟩) := by
  unfold Claim.drainedUnder
  decide

/-! ### Witnesses: cycles -/

theorem witness_ReadCommandsAnswer : Claim.takes .readEvents State.reset ∧ Claim.takes .readPeers State.reset := by
  unfold Claim.takes
  decide

theorem witness_CyclesOpenAndClose :
    (Test.running .ready).dev = .running ∧ Claim.takes .openCycle (Test.running .ready) ∧
      (Test.running .closing).cju.chan = some .closing := by
  unfold Claim.takes
  decide

theorem witness_CloseDrainEndsInAVote :
    let s := Test.running .closing
    s.resetLow = false ∧ s.cju.chan = some .closing ∧ (∀ e ∈ s.pwq.entries, e.signed = false) ∧ s.cju.repair = [] ∧
      s.cju.repairOverflow = false ∧ (s.lkc.peers.get .one).heard = true ∧
      (∀ f ∈ s.vtu.table.get .one, f.cycle ≠ s.cju.cycle + 1) ∧ ({ s with cju.repair := [10] } : State).cju.repair ≠ [] := by
  decide

/-- The vote waits for a HEARD peer without a frame of v, and for none when both are SILENT. -/
theorem witness_awaits :
    Claim.awaits (Test.running .closing) .two ∧
      ∀ l, ¬Claim.awaits { Test.running .closing with lkc.peers := ⟨Peer.initial, Peer.initial⟩ } l := by
  unfold Claim.awaits
  refine ⟨by decide, ?_⟩
  intro l
  cases l <;> decide

theorem witness_AbandonEndsTheCycle :
    let s := { Test.running .opened with cju := { (Test.running .opened).cju with timer := some 1000 } }
    s.resetLow = false ∧ s.dev = .running ∧ s.cju.chan = some .opened ∧ s.cju.timer.isSome = true ∧
      Claim.takes .abandonCycle s ∧ s.cju.unrevertible = false ∧ s.cju.journal = [] ∧
      ({ s with cju.journal := [Test.preImage 10] } : State).cju.journal ≠ [] ∧
      ({ s with cju.unrevertible := true } : State).cju.unrevertible = true := by
  unfold Claim.takes
  decide

/-- An abandoned cycle with an empty journal: the vote waits for a HEARD peer, and decides at once where both are SILENT. One
that cannot be rolled back hands over the frame of R78, which is EXCLUDED. -/
theorem witness_abandoned :
    let s := { Test.running .opened with cju := { (Test.running .opened).cju with timer := some 1000 } }
    let quiet := { s with lkc.peers := ⟨Peer.initial, Peer.initial⟩ }
    let lost := { quiet with cju := { quiet.cju with unrevertible := true, journal := [Test.preImage 10] } }
    decidingLaw s = true ∧ Claim.awaits s .one ∧ (∀ l, ¬Claim.awaits quiet l) ∧
      (cycleLimit s).cju.chan = some .voting ∧ (cycleLimit quiet).vtu.last.map Decision.outcome = some .noQuorum ∧
      (cycleLimit lost).vtu.last.map Decision.outcome = some .excluded ∧
      (cycleLimit { s with cju := { s.cju with journal := [Test.preImage 10] } }).cju.chan = some .rollingBack := by
  unfold Claim.awaits
  refine ⟨by decide, by decide, ?_, by decide +kernel⟩
  intro l
  cases l <;> decide

theorem witness_RestoreStartsAFullPull :
    let s := Test.running .excluded
    Claim.takes .restore s ∧ s.dev = .running ∧ s.position ≠ 3 ∧ s.cju.chan = some .excluded ∧ eligible s .one = true ∧
      peerPosition s.position .one < peerPosition s.position .two ∧
      (∃ w : Word, w.toNat = peerPosition s.position .two) ∧
      eligible { s with lkc.peers := ⟨Peer.initial, Peer.initial⟩ } .one = false ∧
      eligible { s with lkc.peers := ⟨Peer.initial, Peer.initial⟩ } .two = false := by
  refine ⟨?_, rfl, by decide, rfl, rfl, by decide, ⟨2, rfl⟩, rfl, rfl⟩
  unfold Claim.takes
  decide

/-- A named donor that is a peer and not eligible, while the other peer is. -/
theorem witness_RestoreStartsAFullPull_donor :
    let s := { Test.running .excluded with lkc.peers := ⟨Test.peer, Peer.initial⟩ }
    Claim.takes .restore s ∧ (2 : Word).toNat = peerPosition s.position .two ∧ eligible s .two = false ∧
      eligible s .one = true ∧ takeRestore 1 [2] s = refusedState .noServer 1 s := by
  unfold Claim.takes
  decide +kernel

/-! ### Witnesses: the memory port -/

theorem witness_PortReadIsAnswered :
    let h : Held := ⟨⟨.data, false, 160, 15, 0⟩, .access⟩
    let s := { Test.running .opened with ppt.held := [h] }
    Claim.grants .procRead 1 s ∧ firstAccess s = some h ∧ (readWord s 160).cond = .good ∧
      (readWord { s with mpu.mem := [(160, Test.weak)] } 160).cond = .correctable ∧
      (readWord { s with mpu.mem := [(160, Test.bad)] } 160).cond = .uncorrectable ∧
      (regionOf s (blockOf 160)).map Prod.snd = assocFind s.rgt.entries 0 := by
  unfold Claim.grants
  decide +kernel

/-- A block enters the repair list at 31 numbers, and sets REPAIR_OVERFLOW at 32. -/
theorem witness_PortReadIsAnswered_repair :
    let s := { Test.running .ready with mpu.mem := [(160, Test.bad)] }
    let full := { s with cju.repair := List.range 32 |>.map (· + 100) }
    (findUncorrectable (some .data) 160 { s with cju.repair := List.range 31 |>.map (· + 100) }).cju.repair.length = 32 ∧
      (findUncorrectable (some .data) 160 full).cju.repair = full.cju.repair ∧
      (findUncorrectable (some .data) 160 full).cju.repairOverflow = true := by
  decide +kernel

/-- A word in error read in an OPEN cycle abandons it, in READY and in SIGNING it leaves the phase, and in SIGNING the region is
SUSPECT too. -/
theorem witness_PortReadIsAnswered_uncorrectable :
    let h : Held := ⟨⟨.data, false, 160, 15, 0⟩, .access⟩
    let s := fun d : DeviceState => fun c : Option ChannelState =>
      let r := Test.running .opened
      { r with dev := d, cju.chan := c, ppt.held := [h], mpu := { r.mpu with mem := [(160, Test.bad)] } }
    let state := fun t : State => (assocFind t.rgt.entries 0).map Region.state
    Claim.grants .procRead 1 (s .running (some .opened)) ∧ decidingLaw (s .running (some .opened)) = true ∧
      (procRead (s .running (some .opened))).cju.chan = some .voting ∧
      (procRead (s .running (some .ready))).cju.chan = some .ready ∧
      state (procRead (s .running (some .ready))) = some .suspectLocated ∧
      state (procRead (s .signing none)) = some .suspectLocated ∧
      state (procRead (s .configuring none)) = some .normal := by
  unfold Claim.grants
  decide +kernel

theorem witness_WriteBackCorrectsOrLeaves :
    let s := { Test.running .opened with mpu := { (Test.running .opened).mpu with writeBack := some 160 } }
    Claim.grants .writeBack 1 s ∧ (readWord s 160).cond ≠ .correctable ∧
      (readWord { s with mpu.mem := [(160, Test.weak)] } 160).cond = .correctable := by
  unfold Claim.grants
  decide +kernel

/-- The head over a good word, and a partial write over an UNCORRECTABLE one. -/
theorem witness_HeadWriteIsPerformedOrRefused :
    let s := { Test.running .opened with
      pwq := { (Test.running .opened).pwq with entries := [Test.entry 480 3 2 false] } }
    let u := { s with mpu.mem := [(480, Test.bad)] }
    Claim.grants .headWrite 1 s ∧ (readWord s 480).cond = .good ∧ Claim.grants .headWrite 1 u ∧
      (readWord u 480).cond = .uncorrectable ∧
      ({ u with pwq.entries := [Test.entry 480 15 2 false] } : State).pwq.entries = [Test.entry 480 15 2 false] := by
  unfold Claim.grants
  decide +kernel

/-- A signed entry over a word in error in an OPEN cycle, its block captured before. -/
theorem witness_HeadWriteIsPerformedOrRefused_abandon :
    let s := { Test.running .opened with
      mpu.mem := [(160, Test.bad)]
      cju := { (Test.running .opened).cju with wCur := [10], journal := [Test.preImage 10] }
      pwq := { (Test.running .opened).pwq with entries := [Test.entry 160 3 0 true] } }
    Claim.grants .headWrite 1 s ∧ (readWord s 160).cond = .uncorrectable ∧ (regionOf s 10).map Prod.fst = some 0 ∧
      (assocFind s.rgt.entries 0).isSome = true ∧ cycleOpen s = true := by
  unfold Claim.grants
  decide +kernel

/-- The journal is full and the head's block has no mark. -/
theorem witness_HeadWriteIsPerformedOrRefused_overflow :
    let s := { Test.running .opened with
      cju := { (Test.running .opened).cju with journal := List.replicate 512 (Test.preImage 11) }
      pwq := { (Test.running .opened).pwq with entries := [Test.entry 160 15 0 true] } }
    Claim.grants .headWrite 1 s ∧ vitalBlock s 10 = true ∧ 10 ∉ s.cju.wCur := by
  unfold Claim.grants
  decide +kernel

/-- A write in block 10 behind the patrol position 11 of its region, and one that is not: the position is block 10 itself, or
no walk is on. The accumulator takes the term in the first case only. -/
theorem witness_accounted :
    let s := fun b : Nat => { Test.running .opened with
      ptu := ⟨true, 64, some b, 5, true, some 64, false, false⟩
      cju := { (Test.running .opened).cju with wCur := [10], journal := [Test.preImage 10] }
      pwq := { (Test.running .opened).pwq with entries := [Test.entry 161 15 0 true] } }
    Claim.grants .headWrite 1 (s 11) ∧ (regionOf (s 11) 10).map Prod.fst = some 0 ∧
      (regionOf (s 11) 11).map Prod.fst = some 0 ∧ (headWrite (s 11)).ptu.acc = 5 + 7 * (5 + 3) ∧
      (headWrite (s 10)).ptu.acc = 5 ∧ (headWrite (s 20)).ptu.acc = 5 ∧
      (headWrite { s 11 with ptu := { (s 11).ptu with enable := false } }).ptu.acc = 5 ∧
      sigOf (headWrite (s 11)) 0 = 7 * (5 + 3) := by
  unfold Claim.grants
  decide +kernel

/-- A read that waits behind the head for its word. -/
theorem witness_HeadWriteIsPerformedOrRefused_hazard :
    let h : Held := ⟨⟨.dma, false, 480, 15, 0⟩, .hazard 1⟩
    let s := { Test.running .opened with
      ppt.held := [h], pwq := { (Test.running .opened).pwq with entries := [Test.entry 480 15 2 false] } }
    Claim.grants .headWrite 1 s ∧ portHold s = false ∧ heldLaw s = true ∧ accessCheck s h.transfer = none := by
  unfold Claim.grants
  decide +kernel

theorem witness_CaptureKeepsThePreImage :
    let s := { Test.running .opened with
      pwq := { (Test.running .opened).pwq with entries := [Test.entry 160 15 0 true] } }
    let u := { s with mpu.mem := [(175, Test.bad)] }
    Claim.grants .capture 2 s ∧ (∀ a ∈ blockWords 10, (readWord s a).cond ≠ .uncorrectable) ∧ Claim.grants .capture 2 u ∧
      (∃ a ∈ blockWords 10, (readWord u a).cond = .uncorrectable) ∧ u.cju.unrevertible = false ∧ cycleOpen u = true := by
  unfold Claim.grants
  decide +kernel

/-- A CORRECTABLE word of the captured block counts once in its region, up to 65535, and nothing else of the table changes. -/
theorem witness_CaptureKeepsThePreImage_counts :
    let s := { Test.running .opened with
      pwq := { (Test.running .opened).pwq with entries := [Test.entry 160 15 0 true] }
      mpu.mem := [(160, Test.weak), (175, Test.weak)] }
    Claim.grants .capture 2 s ∧ (captureHead s).rgt.entries = Claim.counts 10 s ∧
      (assocFind (captureHead s).rgt.entries 0).map Region.corrected = some 2 ∧ Claim.counted 2 65534 = 65535 := by
  unfold Claim.grants
  decide +kernel

theorem witness_RollbackPutsBack :
    let s := { Test.running .rollingBack with
      cju := { (Test.running .rollingBack).cju with journal := [Test.preImage 10, Test.preImage 11], wCur := [10, 11] } }
    Claim.grants .rollback 2 s ∧ s.cju.journal.getLast? = some (Test.preImage 11) ∧ s.cju.journal.dropLast ≠ [] ∧
      Claim.grants .rollback 2 { s with cju := { s.cju with journal := [Test.preImage 10] } } := by
  unfold Claim.grants
  decide +kernel

/-- The last entry at a decision, and a signed region whose closed value is not its running signature. -/
theorem witness_RollbackPutsBack_last :
    let s := { Test.running .rollingBack with
      cju := { (Test.running .rollingBack).cju with journal := [Test.preImage 10], wCur := [10] }
      vtu := { (Test.running .rollingBack).vtu with
        closedSet := (List.range 16).map (fun k => if k = 7 then ⟨.valid, 1⟩ else ⟨.absent, 0⟩)
        deciding := some ⟨⟨none, none⟩, ⟨1, .abandoned, Test.entries⟩⟩ } }
    tableLaw s = true ∧ s.dev = .running ∧ (∀ w ∈ knownWrites (Test.preImage 10), (readWord s w.1).cond ≠ .uncorrectable) ∧
      s.vtu.closedSet[7]? = some ⟨.valid, 1⟩ ∧ sigOf s 7 = 0 ∧
      (assocFind (rollbackCheck s).rgt.entries 1).map Region.state = some .suspectUnlocated ∧
      (assocFind (rollbackCheck s).rgt.entries 0).map Region.state = some .normal := by
  decide +kernel

/-- The last entry at a decision: it agrees with the majority and a service goes on, or it does not and the service ends. -/
theorem witness_RollbackPutsBack_service :
    let v : Service := ⟨.sending, some .one, some .full, 0, [], 0, none, 0, 0, some 20, [], true⟩
    let s := fun m : VoteFrame => { Test.running .rollingBack with
      cju := { (Test.running .rollingBack).cju with
        journal := [⟨10, List.replicate 16 0, List.replicate 16 true⟩], wCur := [10] }
      vtu := { (Test.running .rollingBack).vtu with deciding := some ⟨⟨some m, some m⟩, m⟩ }
      rse.service := { v with repair := [11] } }
    let same : VoteFrame := ⟨1, .abandoned, Test.entries⟩
    Claim.grants .rollback 2 (s same) ∧ serving (s same) = true ∧ tableLaw (s same) = true ∧
      decidingLaw (s same) = true ∧ Claim.agree same same ∧ ¬Claim.agree same ⟨1, .abandoned, Vtu.emptySet⟩ ∧
      (rollbackNewest (s same)).rse.service.phase = .sending ∧ (rollbackNewest (s same)).rse.service.waiting = false ∧
      (rollbackNewest (s ⟨1, .abandoned, Vtu.emptySet⟩)).rse.service.phase = .idle := by
  unfold Claim.grants
  refine ⟨by decide +kernel, by decide, by decide +kernel, by decide, ⟨rfl, rfl, test_entries_agree⟩, ?_, by decide +kernel⟩
  · rintro ⟨_, _, h⟩
    obtain ⟨a, b, ha, hb, h⟩ := h 0 (by decide)
    cases ha
    cases hb
    rcases h with ⟨h, _⟩ | ⟨_, h, _⟩ <;> exact absurd h (by decide)

theorem witness_PatrolReadsItsBlock :
    let s := { Test.running .ready with ptu.request := true }
    Claim.grants .patrol 6 s ∧ s.ptu.position = some 10 ∧ (regionOf s 10).map Prod.fst = some 0 := by
  unfold Claim.grants
  decide +kernel

/-- The last block of the VITAL region, walked comparable with a sum other than the signature; and one with a word in error,
whose raw data bits are added and which is not compared. -/
theorem witness_PatrolReadsItsBlock_fault :
    let s := { Test.running .ready with ptu := ⟨true, 64, some 11, 5, true, some 64, true, false⟩ }
    let t := patrolBlock { s with mpu.mem := [(176, Test.bad)] }
    Claim.grants .patrol 6 s ∧ (regionOf s 11).map Prod.fst = some 0 ∧ (assocFind s.rgt.entries 0).isSome = true ∧
      ((assocFind (patrolBlock s).rgt.entries 0).map Region.state = some .suspectUnlocated) ∧
      (readWord { s with mpu.mem := [(176, Test.bad)] } 176) = ⟨.uncorrectable, 3⟩ ∧
      t.ptu.comparable = true ∧ t.ptu.turned = true ∧ t.ptu.acc = 5 + 3 * (5 + 3 * 16) ∧
      (assocFind t.rgt.entries 0).map Region.state = some .suspectLocated := by
  unfold Claim.grants
  decide +kernel

/-- A region that turns SUSPECT behind the walk is not compared at its end, mended or not (R101). -/
theorem test_mended_region_is_not_compared :
    let s := { Test.running .ready with ptu := ⟨true, 64, some 11, 5, true, some 64, true, false⟩ }
    (patrolBlock (mendRegions (markSuspect 0 false s))).rgt = s.rgt ∧
      (patrolBlock (mendRegions (markSuspect 0 false s))).ptu.comparable = true ∧
      (patrolBlock (mendRegions (markSuspect 1 false s))).rgt ≠ s.rgt := by
  decide +kernel

/-- A DELTA service with a block to send: from the array, from the journal, and unavailable. -/
theorem witness_ServerSendsItsBlock :
    let s := { Test.running .opened with
      cju := { (Test.running .opened).cju with wPrev := [10] }
      rse.service := ⟨.sending, some .one, some .delta, 0, [], 0, none, 8, 0, none, [], false⟩ }
    Claim.grants .serverRead 4 s ∧ serverTarget s = some 10 ∧ s.cju.journal.find? (fun e => e.block == 10) = none ∧
      10 ∉ s.cju.wCur ∧ (∀ a ∈ blockWords 10, (readWord s a).cond ≠ .uncorrectable) ∧
      Claim.grants .serverRead 4 { s with cju := { s.cju with wCur := [10] } } ∧
      Claim.grants .serverRead 4 { s with cju := { s.cju with wCur := [10], journal := [Test.preImage 10] } } ∧
      (∃ a ∈ blockWords 10, (readWord { s with mpu.mem := [(160, Test.bad)] } a).cond = .uncorrectable) := by
  unfold Claim.grants
  decide +kernel

/-- The block due in each phase: at the send position, at the walk position, and in RESENDING wrapping to the lowest mark. -/
theorem witness_ServerSendsItsBlock_due :
    let v : Service := ⟨.sending, some .one, some .delta, 1, [11], 0, none, 8, 0, none, [], false⟩
    let s := fun v : Service => { Test.running .opened with
      cju := { (Test.running .opened).cju with wPrev := [10], resend := [11, 10] }, rse.service := v }
    serverTarget (s v) = some 10 ∧ serverTarget (s { v with sendPos := 11 }) = some 11 ∧
      serverTarget (s { v with sendPos := 12 }) = none ∧
      serverTarget (s { v with phase := .walking, walkPos := some (.block 11) }) = some 11 ∧
      serverTarget (s { v with phase := .resending, sendPos := 11 }) = some 11 ∧
      serverTarget (s { v with phase := .resending, sendPos := 12 }) = some 10 ∧
      serverTarget (s { v with phase := .resending, waiting := true }) = none := by
  decide +kernel

/-- RESENDING: a block sent loses its mark; an unavailable one keeps it and the position moves past it; and the server waits
when the last marked block has been found unavailable. A walk goes on to the next block of its set, and at its end to
RESENDING. -/
theorem witness_ServerSendsItsBlock_goesOn :
    let v : Service := ⟨.resending, some .one, some .full, 1, [], 0, some .finished, 8, 0, none, [], false⟩
    let s := fun (marks : List Nat) (v : Service) => { Test.running .opened with
      cju := { (Test.running .opened).cju with resend := marks, wCur := [11] }, rse.service := v }
    let walk := { v with phase := .walking, walkPos := some (.block 10) }
    Claim.grants .serverRead 4 (s [10, 11] v) ∧ (serveBlock (s [10, 11] v)).cju.resend = [11] ∧
      (serveBlock (s [10, 11] v)).rse.service.sendPos = 11 ∧
      (serveBlock (s [10, 11] { v with sendPos := 11 })).rse.service =
        { v with sendPos := 12, tried := [11] } ∧
      (serveBlock (s [11] { v with sendPos := 11 })).cju.resend = [11] ∧
      (serveBlock (s [11] { v with sendPos := 11 })).rse.service.waiting = true ∧
      (serveBlock (s [] walk)).rse.service.walkPos = some (.block 11) ∧
      (settle (serveBlock (s [] { walk with walkPos := some (.block 11) }))).rse.service.phase = .resending ∧
      (serveBlock (s [] { walk with walkPos := some (.block 11) })).cju.resend = [11] := by
  unfold Claim.grants
  decide +kernel

/-- With 8 BLOCK frames waiting on the requester's link the server asks for no grant (R115; notes/assumptions/40). -/
theorem test_server_waits_for_room :
    let f : BlockFrame := ⟨10, 0, []⟩
    let s := { Test.running .opened with
      cju := { (Test.running .opened).cju with wPrev := [10] }
      rse.service := ⟨.sending, some .one, some .delta, 0, [], 0, none, 8, 0, none, [], false⟩
      lkc.tx := ⟨⟨[], List.replicate 7 f, none, false⟩, Transmitter.initial⟩ }
    linkRequest s = some .serverRead ∧
      linkRequest { s with lkc.tx := ⟨⟨[], List.replicate 8 f, none, false⟩, Transmitter.initial⟩ } = none := by
  decide

theorem witness_RequesterWritesItsBuffer :
    let b : Buffer := ⟨0, 10, List.replicate 16 5⟩
    let s := { Test.running .catchup with
      rse.pull := { Pull.initial with phase := .receiving, kind := some .delta, server := some .one, buffers := [b] } }
    Claim.grants .requesterWrite 4 s ∧ s.rse.pull.buffers = [b] ∧ b.words.length = 16 ∧ s.position ≠ 3 := by
  unfold Claim.grants
  decide +kernel

/-- A buffer written behind the patrol position adds its terms to the accumulator: 16 words of value 5. -/
theorem test_buffer_behind_the_walk :
    let b : Buffer := ⟨0, 10, List.replicate 16 5⟩
    let s := { Test.running .catchup with
      ptu := ⟨true, 64, some 11, 1, true, some 64, false, false⟩
      rse.pull := { Pull.initial with phase := .receiving, kind := some .delta, server := some .one, buffers := [b] } }
    (writeBuffer s).ptu.acc = 1 + sigOf (writeBuffer s) 0 ∧ sigOf (writeBuffer s) 0 = 5 * (16 * 5 + 3 * 120) := by
  decide +kernel

/-- The last buffer of a pull that completes, and a CREDIT that a second one joins. -/
theorem witness_RequesterWritesItsBuffer_completing :
    let b : Buffer := ⟨0, 10, List.replicate 16 0⟩
    let s := { Test.running .catchup with
      rse.pull := { Pull.initial with
        phase := .completing, kind := some .delta, server := some .one, buffers := [b], target := 1, received := 1
        ending := some ⟨.done, 1, 1, some Test.entries⟩, clean := 0x81 } }
    Claim.grants .requesterWrite 4 s ∧ (writeBuffer s).cju.chan = some .ready ∧
      (writeBuffer { s with rse.pull.received := 2 }).vtu.agreedBase = false ∧
      (writeBuffer { s with rse.pull.target := 2 }).vtu.agreedBase = false ∧
      queueCtrl (.credit 1) [.credit 8] = [.credit 8] ∧ queueCtrl (.credit 1) [.hello, .credit 2] = [.hello, .credit 3] := by
  unfold Claim.grants
  decide +kernel

/-- The last buffer over an UNCORRECTABLE word: the region is SUSPECT_UNLOCATED and the re-signing pass takes it in. -/
theorem witness_RequesterWritesItsBuffer_lost :
    let b : Buffer := ⟨0, 10, List.replicate 16 0⟩
    let s := { Test.running .catchup with
      mpu.mem := [(160, Test.bad)]
      rse.pull := { Pull.initial with
        phase := .completing, kind := some .delta, server := some .one, buffers := [b], target := 1, received := 1
        ending := some ⟨.done, 1, 1, some Test.entries⟩, clean := 0x81 } }
    Claim.grants .requesterWrite 4 s ∧ signedBlock s 10 = true ∧ (slotRegion s 0).map Prod.fst = some 0 ∧
      (assocFind (writeBuffer s).rgt.entries 0).map Region.state = some .suspectUnlocated ∧
      (writeBuffer s).sgu.pass = some ⟨[0], 10, 0, 0⟩ ∧
      (writeBuffer { s with rse.pull.received := 2 }).vtu.agreedBase = false := by
  unfold Claim.grants
  decide +kernel

/-- A block that is not the last, and the last block of the array. -/
theorem witness_InitZeroesItsBlock :
    let s := { Test.configured with mpu := { Test.configured.mpu with initOp := some ⟨30, 30, 32⟩ } }
    Claim.grants .initBlock 12 s ∧
      Claim.grants .initBlock 12 { s with mpu := { s.mpu with initOp := some ⟨65535, 65535, 65536⟩ } } := by
  unfold Claim.grants
  decide +kernel

/-- A block that is not the region's last, the last block with a region to follow, and the last block of the last region. -/
theorem witness_SigningSumsItsBlock :
    let s := { Test.configured with dev := .signing, sgu.pass := some ⟨[0, 7], 10, 0, 0⟩ }
    let r := { Test.running .catchup with sgu.pass := some ⟨[0, 7], 11, 0, 0⟩ }
    Claim.grants .signing 12 s ∧ (slotRegion s 0).map Prod.fst = some 0 ∧ Claim.grants .resigning 12 r ∧
      (slotRegion r 7).map Prod.fst = some 1 ∧
      Claim.grants .signing 12 { s with sgu.pass := some ⟨[7], 20, 0, 0⟩ } ∧
      runningAhead s.lkc.peers.one = false ∧ runningAhead Test.peer = true := by
  unfold Claim.grants
  decide +kernel

/-- The last block of the signing pass with an UNCORRECTABLE word: the region is SUSPECT_UNLOCATED and the start record has it. -/
theorem witness_SigningSumsItsBlock_starts :
    let s := { Test.configured with
      dev := .signing, sgu.pass := some ⟨[7], 20, 0, 65535⟩, mpu.mem := [(320, Test.bad)]
      lkc.peers := ⟨{ Test.peer with matched := false }, Peer.initial⟩ }
    Claim.grants .signing 12 s ∧ (regionOf s 20).map Prod.fst = some 1 ∧
      (signingRead s).start = some ⟨0x1234, 65535, [1], 2, false, 0⟩ ∧
      (signingRead { s with sgu.pass := some ⟨[7], 20, 0, 3⟩ }).start = some ⟨0x1234, 4, [1], 2, false, 0⟩ ∧
      (assocFind (signingRead s).rgt.entries 1).map Region.state = some .suspectUnlocated := by
  unfold Claim.grants
  decide +kernel

/-- The last block of the last region of a re-signing pass, with entries that match and that do not. -/
theorem witness_SigningSumsItsBlock_completes :
    let r := { Test.running .restoring with
      sgu := ⟨List.replicate 16 0, some ⟨[7], 20, 0, 0⟩⟩
      rse.pull := { Pull.initial with
        phase := .completing, kind := some .full, server := some .one
        ending := some ⟨.done, 5, 0, some Test.entries⟩, clean := 0x81 } }
    Claim.grants .resigning 12 r ∧ (∀ a ∈ blockWords 20, (readWord r a).cond ≠ .uncorrectable) ∧
      (reSigningRead r).cju.chan = some .ready ∧ (reSigningRead r).cju.cycle = 5 ∧
      (reSigningRead { r with rse.pull.clean := 1 }).vtu.agreedBase = false := by
  unfold Claim.grants
  decide +kernel

theorem witness_ResetPinHoldsAndReleases :
    let s := { Test.running .opened with
      pwq := { (Test.running .opened).pwq with entries := [Test.entry 480 15 2 false] } }
    (nextGrant s = some (.headWrite, 1)) ∧ (grantVisits s .headWrite = [(480, some 7)]) ∧
      (heldInReset 0 []).resetLow = true := by
  decide +kernel

/-! ### Witnesses: the vote, the timers and the links -/

/-- A CLOSED frame of cycle 1 that a peer's CURRENT frame agrees with. -/
theorem witness_MembersCloseTheCycle :
    let own : VoteFrame := ⟨1, .closed, Test.entries⟩
    let v := (Test.running .voting).vtu
    let s := { Test.running .voting with vtu := { v with own := some own, timer := some 20, table := ⟨[own], []⟩ } }
    s.cju.chan = some .voting ∧ s.vtu.timer.isSome = true ∧ peerAgrees own (currentFrame s .one) = true ∧
      peerAgrees own (currentFrame s .two) = false := by
  decide

/-- A member decision ends a DELTA service with STALE, and of a FULL one marks the W_CUR block that the walk has passed. -/
theorem witness_MembersCloseTheCycle_service :
    let own : VoteFrame := ⟨1, .closed, Test.entries⟩
    let v := (Test.running .voting).vtu
    let s := fun r : Service => { Test.running .voting with
      vtu := { v with own := some own, timer := some 20, table := ⟨[own], []⟩ }
      cju := { (Test.running .voting).cju with wCur := [10, 11], journal := [Test.preImage 10, Test.preImage 11] }
      rse.service := r }
    let full : Service := ⟨.walking, some .two, some .full, 1, [], 0, some (.block 11), 0, 0, some 20, [], false⟩
    let delta := { full with phase := .sending, kind := some .delta, walkPos := none, repair := [11] }
    (∃ l, Claim.joins own (s full) l) ∧ ¬Claim.joins own (s full) .two ∧ serving (s delta) = true ∧
      serving (s full) = true ∧ (voteTimeout (s full)).cju.resend = [10] ∧
      (voteTimeout (s full)).rse.service.phase = .walking ∧ (voteTimeout (s delta)).rse.service.phase = .idle ∧
      (voteTimeout (s delta)).cmu.events.map Record.body = [.serviceEnded 2 .stale, .decision .member2 3 1] := by
  intro own v s full delta
  refine ⟨⟨.one, own, rfl, rfl, rfl, test_entries_agree⟩, ?_, by decide, by decide, by decide +kernel⟩
  · rintro ⟨_, h, _⟩
    cases h

/-- A first decision has its event, and one equal in outcome and agreeing set to the one before has none. -/
theorem witness_decisions_are_recorded :
    let own : VoteFrame := ⟨1, .closed, Test.entries⟩
    let v := (Test.running .voting).vtu
    let s := { Test.running .voting with vtu := { v with own := some own, timer := some 20, table := ⟨[own], []⟩ } }
    let again := { s with vtu := { s.vtu with last := some ⟨.member2, 7, 3, 0⟩ } }
    (voteTimeout s).vtu.last = some ⟨.member2, 1, 3, 0⟩ ∧
      (voteTimeout s).cmu.events.map Record.body = [.decision .member2 3 1] ∧
      (voteTimeout s).cmu.events.map Record.cycle = [2] ∧ (voteTimeout again).cmu.events = [] := by
  decide +kernel

/-- Each of the four outcomes that end in no membership is ruled on some frames. -/
theorem witness_LostVotesTurnPermitOff :
    let closed : VoteFrame := ⟨1, .closed, Test.entries⟩
    let gone : VoteFrame := ⟨1, .abandoned, Test.entries⟩
    let other : VoteFrame := ⟨1, .closed, Vtu.emptySet⟩
    let s := Test.running .voting
    rule s gone ⟨some gone, none⟩ = .outcome .collectiveAbandon none ∧
      rule s gone ⟨some closed, some closed⟩ = .outcome .outvoted (some .one) ∧
      rule s closed ⟨some other, some other⟩ = .outcome .excluded none ∧
      rule s closed ⟨none, none⟩ = .outcome .noQuorum none ∧ rule s gone ⟨none, none⟩ = .outcome .noQuorum none := by
  decide

/-- What `Claim.rules` says on the frames of lines 3 to 7 of R127, and on the frame of R78 with two peers that abandoned. -/
theorem witness_LostVotesTurnPermitOff_rules :
    let gone : VoteFrame := ⟨1, .abandoned, Test.entries⟩
    let closed : VoteFrame := ⟨1, .closed, Test.entries⟩
    let s := fun one two : List VoteFrame => { Test.running .voting with
      vtu := { (Test.running .voting).vtu with table := ⟨one, two⟩ } }
    let lost := { s [gone] [gone] with cju := { (s [gone] [gone]).cju with unrevertible := true } }
    let suspects : VoteFrame := ⟨1, .abandoned, List.replicate 16 ⟨.suspect, 0⟩⟩
    Claim.rules gone (s [gone] []) (.outcome .collectiveAbandon none) ∧
      Claim.rules closed (s [gone] [gone]) (.rollback gone) ∧
      Claim.rules gone (s [closed] [closed]) (.outcome .outvoted (some .one)) ∧
      Claim.rules suspects lost (.outcome .excluded none) ∧
      Claim.rules closed (s [gone] []) (.outcome .noQuorum none) ∧
      Claim.rules gone (s [] []) (.outcome .noQuorum none) := by
  intro gone closed s lost suspects
  have kinds : ∀ f g : VoteFrame, f.kind ≠ g.kind → ¬Claim.agree f g := fun f g h a => h a.2.1
  have alone : ∀ (own : VoteFrame) (u : State),
      (∀ g, Claim.present u .one g → ¬Claim.agree own g) → (∀ g, Claim.present u .two g → ¬Claim.agree own g) →
      ∀ l, ¬Claim.joins own u l := by
    rintro own u one two l ⟨g, h, a⟩
    cases l
    · exact one g h a
    · exact two g h a
  have against : ∀ (own f : VoteFrame) (u : State), Claim.present u .one f → Claim.present u .two f →
      ¬Claim.agree own f → ∀ l, ¬Claim.joins own u l := by
    intro own f u one two h
    refine alone own u ?_ ?_
    · intro g e
      cases one.symm.trans e
      exact h
    · intro g e
      cases two.symm.trans e
      exact h
  refine ⟨Or.inr (Or.inr (Or.inl ⟨rfl, ⟨.one, gone, rfl, rfl, rfl, test_entries_agree⟩, rfl⟩)), ?_, ?_, ?_, ?_, ?_⟩
  · have h := against closed gone (s [gone] [gone]) rfl rfl (kinds _ _ (by decide))
    exact Or.inr (Or.inr (Or.inr (Or.inl
      ⟨gone, ⟨h, gone, rfl, rfl, rfl, rfl, test_entries_agree⟩, ⟨rfl, rfl, rfl⟩, rfl⟩)))
  · have h := against gone closed (s [closed] [closed]) rfl rfl (kinds _ _ (by decide))
    refine Or.inr (Or.inr (Or.inr (Or.inr (Or.inl
      ⟨closed, .one, ⟨h, closed, rfl, rfl, rfl, rfl, test_entries_agree⟩,
        ⟨rfl, rfl, rfl, rfl, by decide, rfl⟩, ?_, rfl⟩))))
    intro m hm
    cases m
    · exact absurd rfl hm
    · decide
  · have no : ¬Claim.agree suspects gone := by
      rintro ⟨_, _, h⟩
      obtain ⟨a, b, ha, _, h⟩ := h 0 (by decide)
      cases ha
      rcases h with ⟨h, _⟩ | ⟨h, _⟩ <;> exact absurd h (by decide)
    have h := against suspects gone lost rfl rfl no
    refine Or.inr (Or.inr (Or.inr (Or.inr (Or.inr (Or.inl
      ⟨gone, ⟨h, gone, rfl, rfl, rfl, rfl, test_entries_agree⟩, ?_, ?_, rfl⟩)))))
    · rintro ⟨_, h, _⟩
      cases h
    · rintro ⟨h, _⟩
      cases h
  · refine Or.inr (Or.inr (Or.inr (Or.inr (Or.inr (Or.inr ⟨?_, ?_, rfl⟩)))))
    · refine alone _ _ ?_ ?_
      · intro g h
        cases h
        exact kinds _ _ (by decide)
      · intro g h
        cases h
    · rintro p ⟨_, q, _, h, _⟩
      cases h
  · refine Or.inr (Or.inr (Or.inr (Or.inr (Or.inr (Or.inr ⟨?_, ?_, rfl⟩)))))
    · refine alone _ _ ?_ ?_ <;> intro g h <;> cases h
    · rintro p ⟨_, q, h, _⟩
      cases h

/-- A service ends at EXCLUDED and at NO_QUORUM, with STALE where it is DELTA and c advances, and goes on through
COLLECTIVE_ABANDON. -/
theorem witness_LostVotesTurnPermitOff_service :
    let gone : VoteFrame := ⟨1, .abandoned, Test.entries⟩
    let closed : VoteFrame := ⟨1, .closed, Test.entries⟩
    let full : Service := ⟨.walking, some .two, some .full, 1, [], 0, some (.block 11), 0, 0, some 20, [], false⟩
    let s := fun (r : Service) (own : VoteFrame) (one : List VoteFrame) => { Test.running .voting with
      vtu := { (Test.running .voting).vtu with own := some own, timer := some 20, table := ⟨one, one⟩ }
      rse.service := r }
    let ended := fun t : State => t.cmu.events.map Record.body |>.filter (fun b => match b with
      | .serviceEnded _ _ => true
      | _ => false)
    serving (s full gone []) = true ∧
      ended (voteTimeout (s full gone [gone])) = [] ∧ ended (voteTimeout (s full closed [])) = [.serviceEnded 2 .serverLost] ∧
      ended (voteTimeout (s { full with kind := some .delta } closed [])) = [.serviceEnded 2 .stale] ∧
      ended (voteTimeout (s full gone [])) = [.serviceEnded 2 .serverLost] ∧
      ended (voteTimeout (s full gone [closed])) = [.serviceEnded 2 .serverLost] ∧
      ended (voteTimeout (s full closed [⟨1, .closed, Vtu.emptySet⟩])) = [.serviceEnded 2 .serverLost] := by
  decide +kernel

/-- Two peers have abandoned what the part has closed: it rolls back at the decision, which is EXCLUDED or, where the
majority's entries are the part's, COLLECTIVE_ABANDON with the NEXT slots emptied. -/
theorem witness_LostVotesTurnPermitOff_rollback :
    let closed : VoteFrame := ⟨1, .closed, Test.entries⟩
    let gone : VoteFrame := ⟨1, .abandoned, Test.entries⟩
    let other : VoteFrame := ⟨1, .abandoned, Vtu.emptySet⟩
    let next : VoteFrame := ⟨2, .closed, Test.entries⟩
    let s := fun g : VoteFrame => { Test.running .voting with
      vtu := { (Test.running .voting).vtu with own := some closed, timer := some 20, table := ⟨[g, next], [g]⟩ } }
    rule (s gone) closed ⟨some gone, some gone⟩ = .rollback gone ∧ (voteTimeout (s gone)).cju.chan = some .ready ∧
      (voteTimeout (s gone)).vtu.table = ⟨[], []⟩ ∧ (voteTimeout (s other)).vtu.table = ⟨[next], []⟩ ∧
      (voteTimeout (s other)).vtu.last.map Decision.outcome = some .excluded := by
  decide +kernel

/-- The peer silence time has passed at 50 ms after the last frame, and not at 49 ms. -/
theorem witness_SilentPeersAreRecorded :
    let s := { Test.running .ready with cmu := { (Test.running .ready).cmu with ms := 50 } }
    (s.lkc.peers.get .two).heard = true ∧ (s.lkc.peers.get .two).lastFrame = some 0 ∧ s.times.peerSilence = 50 ∧
      (peerSilence .two s).lkc.peers.two.heard = false ∧
      peerSilence .two { s with cmu.ms := 49 } = { s with cmu.ms := 49 } ∧ s.cju.chan ≠ some .excluded ∧
      (State.reset.lkc.peers.get .two).heard = false := by
  decide +kernel

theorem witness_PeriodicTimersAct :
    let s := Test.running .ready
    s.resetLow = false ∧ s.lkc.helloTimer = true ∧ s.position ≠ 3 ∧ s.ptu.timer.isSome = true ∧
      State.reset.ptu.timer = none ∧ s.vtu.permitted = false ∧ ({ s with vtu.permitted := true } : State).vtu.permitted = true := by
  decide

theorem witness_SilencesEndPullsAndServices :
    let p := { Test.running .restoring with
      rse.pull := { Pull.initial with phase := .receiving, kind := some .full, server := some .two, timer := some 20, attempts := 2 } }
    let v := { Test.running .ready with
      rse.service := ⟨.sending, some .one, some .delta, 0, [], 0, none, 0, 0, some 20, [], false⟩ }
    p.rse.pull.timer.isSome = true ∧ 2 ≤ p.rse.pull.attempts ∧ eligible p .one = true ∧ serving v = true ∧
      v.rse.service.timer.isSome = true ∧ v.position ≠ 3 := by
  decide

theorem witness_FailedFramesAreCounted :
    judgeFrame 1 [0x01] = .failed .badCheck ∧
      judgeFrame 1 ([0x09, 0x01, 0, 0] ++ halfBytes (crc16 [0x09, 0x01, 0, 0])) = .failed .badFrame ∧
      judgeFrame 2 (frameBytes 1 ⟨0x1234, .credit 3⟩) = .failed .badFrame ∧
      judgeFrame 1 (frameBytes 1 ⟨0x1234, .hello ⟨.configuring, none, 7, false, true, none⟩⟩) =
        .valid ⟨0x1234, .hello ⟨.configuring, none, 7, false, true, none⟩⟩ := by
  decide +kernel

/-- At position 3 a good frame and a bad one change nothing. -/
theorem witness_FailedFramesAreCounted_position :
    let s := { Test.running .ready with position := 3 }
    (match exec (.invalidFrame .one [1]) s with | .next t => decide (t = s) | _ => false) = true ∧
      (match exec (.creditReceived .two 0x1234 1) s with | .next t => decide (t = s) | _ => false) = true := by
  decide +kernel

/-- A HELLO that changes the match, and one that changes nothing. -/
theorem witness_HelloUpdatesThePeer :
    let s := Test.running .ready
    let h : HelloFields := ⟨.running, some .ready, 0, true, false, none⟩
    s.resetLow = false ∧ s.position ≠ 3 ∧ (receive .one ⟨0, .hello h⟩ s).lkc.peers.one.matched = false ∧
      (receive .one ⟨0, .hello h⟩ s).cmu.events.length = 1 ∧ (receive .one ⟨0x1234, .hello h⟩ s).cmu.events = [] := by
  decide +kernel

/-- The pull silence timer starts again, a service ends with ABORTED, and an EXCLUDED channel finds a server. -/
theorem witness_HelloUpdatesThePeer_pulls :
    let h : HelloFields := ⟨.running, some .ready, 0, true, true, none⟩
    let c := { Test.running .catchup with
      rse.pull := { Pull.initial with phase := .receiving, kind := some .delta, server := some .one, timer := some 5 } }
    let v := { Test.running .ready with
      rse.service := ⟨.sending, some .one, some .delta, 0, [], 0, none, 8, 0, none, [], false⟩ }
    let x := { Test.running .excluded with lkc.peers := ⟨{ Test.peer with hello := none }, Peer.initial⟩ }
    (receive .one ⟨0x1234, .hello h⟩ c).rse.pull.timer = some 20 ∧ serving v = true ∧
      (receive .one ⟨0x1234, .hello h⟩ v).rse.service.phase = .idle ∧ (testFull x).cju.chan = some .excluded ∧
      (receive .one ⟨0x1234, .hello { h with serviceBusy := false }⟩ x).cju.chan = some .restoring := by
  decide +kernel

/-- A SILENT peer's HELLO finds no HEARD peer's frame missing in VOTING. -/
theorem witness_HelloUpdatesThePeer_decides :
    let own : VoteFrame := ⟨1, .closed, Test.entries⟩
    let s := { Test.running .voting with
      vtu := { (Test.running .voting).vtu with own := some own, timer := some 20, table := ⟨[own], []⟩ }
      lkc.peers := ⟨{ Test.peer with heard := false }, Peer.initial⟩ }
    (∀ m, ¬Claim.awaits (Claim.refreshed .one s) m) ∧ s.vtu.timer.isSome = true ∧
      (receive .one ⟨0x1234, .hello ⟨.running, some .voting, 0, true, false, none⟩⟩ s).cju.chan = some .ready := by
  unfold Claim.awaits
  refine ⟨?_, by decide, by decide +kernel⟩
  intro m
  cases m <;> decide

/-- A frame that R110 discards, with the peer HEARD and SILENT; a SILENT peer's frame that brings no decision, one that brings
one, and one that starts a FULL pull. -/
theorem witness_frames_are_refreshed :
    let own : VoteFrame := ⟨1, .closed, Test.entries⟩
    let quiet : PerLink Peer := ⟨{ Test.peer with heard := false }, Peer.initial⟩
    let r := { Test.running .ready with lkc.peers := quiet }
    let s := { Test.running .voting with
      vtu := { (Test.running .voting).vtu with own := some own, timer := some 20, table := ⟨[own], []⟩ }
      lkc.peers := quiet }
    (receive .one ⟨0x4321, .credit 1⟩ (Test.running .ready)).cmu.events = [] ∧
      (receive .one ⟨0x4321, .credit 1⟩ r).cmu.events.length = 1 ∧ refresh .one r = Claim.refreshed .one r ∧
      (receive .one ⟨0x1234, .credit 1⟩ s).cju.chan = some .ready ∧
      (receive .one ⟨0x1234, .credit 1⟩ { r with cju.chan := some .excluded }).cju.chan = some .restoring := by
  decide +kernel

/-- The places of a frame: v, v + 1, older by one, and ahead by two, seen from c = 0. -/
theorem witness_VoteFramesArePlaced :
    let s := Test.running .ready
    Claim.hears 0x1234 s ∧ (s.lkc.peers.get .one).heard = true ∧ s.cju.chan ≠ some .voting ∧
      (takeVote .one ⟨1, .closed, []⟩ s).vtu.table.one.length = 1 ∧ (takeVote .one ⟨2, .closed, []⟩ s).vtu.table.one.length = 1 ∧
      (takeVote .one ⟨0, .closed, []⟩ s).cmu.events.length = 1 ∧ (takeVote .one ⟨3, .closed, []⟩ s) = s ∧
      (takeVote .one ⟨3, .closed, []⟩ (Test.running .excluded)).vtu.table.one.length = 1 := by
  unfold Claim.hears
  decide +kernel

/-- The last awaited frame of v: the peer's own, when the other peer is SILENT. -/
theorem witness_VoteFramesArePlaced_decides :
    let v := (Test.running .voting).vtu
    let s := { Test.running .voting with
      vtu := { v with own := some ⟨1, .closed, Test.entries⟩, timer := some 20, table := ⟨[⟨1, .closed, Test.entries⟩], []⟩ }
      lkc.peers := ⟨Test.peer, Peer.initial⟩ }
    (∀ m, ¬Claim.awaits s m) ∧ s.vtu.timer.isSome = true ∧ (takeDecision s).cju.chan = some .ready := by
  unfold Claim.awaits
  refine ⟨?_, by decide, by decide +kernel⟩
  intro m
  cases m <;> decide

/-- A PULL is refused by each check of R152 in turn, and taken with 1 and with 8 credits. -/
theorem witness_PullsStartServices :
    let s := { Test.running .ready with cju := { (Test.running .ready).cju with wPrevValid := true } }
    let busy := { s with rse.service := ⟨.sending, some .two, some .delta, 0, [], 0, none, 8, 0, none, [], false⟩ }
    pullRefusal busy ⟨.delta, 8, 0, 0, []⟩ = some .busy ∧
      pullRefusal (Test.running .excluded) ⟨.delta, 8, 0, 0, []⟩ = some .notMember ∧
      pullRefusal s ⟨.delta, 0, 0, 0, []⟩ = some .badRequest ∧ pullRefusal s ⟨.delta, 9, 0, 0, []⟩ = some .badRequest ∧
      pullRefusal s ⟨.delta, 8, 1, 0, [10]⟩ = some .stale ∧ pullRefusal s ⟨.delta, 1, 0, 0, [10]⟩ = none ∧
      pullRefusal s ⟨.full, 8, 0, 1, []⟩ = none ∧ setFits s 1 = true ∧ Claim.hears 0x1234 s := by
  unfold Claim.hears
  decide +kernel

/-- A FULL set without the VITAL slot, one with a slot of no region, and a DELTA list with a CODE block. -/
theorem witness_PullsStartServices_badRequest :
    let s := { Test.running .ready with cju := { (Test.running .ready).cju with wPrevValid := true } }
    pullRefusal s ⟨.full, 8, 0, 0x80, []⟩ = some .badRequest ∧ pullRefusal s ⟨.full, 8, 0, 3, []⟩ = some .badRequest ∧
      pullRefusal s ⟨.full, 8, 0, 0x81, []⟩ = none ∧ pullRefusal s ⟨.delta, 8, 0, 0, [20]⟩ = some .badRequest := by
  decide +kernel

theorem witness_BlocksFillBuffers :
    let s := { Test.running .catchup with
      rse.pull := { Pull.initial with phase := .receiving, kind := some .delta, server := some .one, target := 1 } }
    let full := { s with rse.pull.buffers := (List.range 8).map (fun k => ⟨k, 10, []⟩) }
    Claim.hears 0x1234 s ∧ (s.lkc.peers.get .one).heard = true ∧ partOfPull s ⟨10, 1, []⟩ = true ∧
      partOfPull s ⟨10, 2, []⟩ = false ∧ partOfPull full ⟨11, 1, []⟩ = true ∧
      freeBuffer full.rse.pull.buffers = none ∧ freeBuffer s.rse.pull.buffers = some 0 := by
  unfold Claim.hears
  decide +kernel

/-- A BLOCK with no pull RECEIVING, one in COMPLETING and one of the other peer are discarded, and a PULL_END likewise. -/
theorem witness_discarded :
    let p := { Pull.initial with phase := .receiving, kind := some .delta, server := some .two, target := 1, timer := some 5 }
    let s := fun p : Pull => { Test.running .catchup with rse.pull := p, cmu.ms := 9 }
    let off := { Test.running .ready with cmu.ms := 9 }
    let seen := fun s : State => { s with lkc.peers.one.lastFrame := some 9 }
    let e : PullEndFrame := ⟨.done, 1, 0, some Test.entries⟩
    takeBlock .one ⟨10, 1, []⟩ (s p) = s p ∧ takeBlock .two ⟨10, 1, []⟩ (s p) ≠ s p ∧
      takeBlock .two ⟨10, 1, []⟩ (s { p with phase := .completing }) = s { p with phase := .completing } ∧
      takePullEnd .one e (s p) = s p ∧ takePullEnd .one e off = off ∧
      receive .one ⟨0x1234, .block ⟨10, 1, []⟩⟩ off = seen off := by
  decide +kernel

theorem witness_CreditsAndPullEndsAreTaken :
    let v := { Test.running .ready with
      rse.service := ⟨.sending, some .one, some .delta, 0, [], 0, none, 7, 0, none, [], false⟩ }
    let p := { Test.running .catchup with
      rse.pull := { Pull.initial with
        phase := .receiving, kind := some .delta, server := some .one, buffers := [⟨0, 10, []⟩] } }
    Claim.hears 0x1234 v ∧ (takeCredit .one 2 v).rse.service.credits = 8 ∧ Claim.hears 0x1234 p ∧
      p.rse.pull.buffers ≠ [] ∧ ((some Test.entries).isSome = true ↔ PullResult.done = .done) := by
  unfold Claim.hears
  decide +kernel

/-- DONE with no full buffer: the pull succeeds, has a pass to make, or fails. -/
theorem witness_CreditsAndPullEndsAreTaken_completes :
    let p := { Test.running .catchup with
      rse.pull := { Pull.initial with phase := .receiving, kind := some .delta, server := some .one, target := 1 } }
    let done : PullEndFrame := ⟨.done, 1, 0, some Test.entries⟩
    (takePullEnd .one done p).cju.chan = some .ready ∧ (takePullEnd .one done p).cju.cycle = 1 ∧
      (takePullEnd .one done (markSuspect 1 false p)).sgu.pass = some ⟨[7], 20, 0, 0⟩ ∧
      (takePullEnd .one { done with sent := 1 } p).vtu.agreedBase = false ∧
      (takePullEnd .one { done with tag := 2 } p).vtu.agreedBase = false ∧
      (takePullEnd .one { done with entries := some Vtu.emptySet } p).vtu.agreedBase = false := by
  decide +kernel

/-- While no service is active: a control frame begins, and nothing is left to begin. -/
theorem witness_TransmissionGoesOn :
    let sent : Option SentFrame := some ⟨0x1234, .credit 1⟩
    let s := fun tx : Transmitter => { Test.running .ready with lkc.tx := ⟨tx, Transmitter.initial⟩ }
    serving (s ⟨[.hello], [], sent, false⟩) = false ∧
      ((transmitEnd .one (s ⟨[.hello], [], sent, false⟩)).lkc.tx.one.sending.isSome = true) ∧
      (transmitEnd .one (s ⟨[], [], sent, false⟩)).lkc.tx.one = ⟨[], [], none, false⟩ ∧
      transmitEnd .one (s ⟨[.hello], [], none, false⟩) = s ⟨[.hello], [], none, false⟩ := by
  decide +kernel

/-- A serving part: a control frame goes ahead of a waiting BLOCK, a BLOCK begins where no control frame waits, and the end of
the last BLOCK ends the service, with PULL_END and HELLO queued. -/
theorem witness_TransmissionGoesOn_serving :
    let b : BlockFrame := ⟨10, 0, []⟩
    let sent : Option SentFrame := some ⟨0x1234, .block b⟩
    let s := fun tx : Transmitter => { Test.running .ready with
      rse.service := ⟨.finishing, some .one, some .delta, 0, [], 0, none, 8, 2, none, [], false⟩
      lkc.tx := ⟨tx, Transmitter.initial⟩ }
    let done : PullEndFrame := ⟨.done, 0, 2, some Test.entries⟩
    serving (s ⟨[.credit 1], [b], sent, false⟩) = true ∧
      (transmitEnd .one (s ⟨[.credit 1], [b], sent, false⟩)).lkc.tx.one = ⟨[], [b], some ⟨0x1234, .credit 1⟩, false⟩ ∧
      (transmitEnd .one (s ⟨[], [b], sent, false⟩)).lkc.tx.one = ⟨[], [], some ⟨0x1234, .block b⟩, false⟩ ∧
      (transmitEnd .one (s ⟨[], [], sent, false⟩)).rse.service.phase = .idle ∧
      (transmitEnd .one (s ⟨[], [], sent, false⟩)).lkc.tx.one = ⟨[.hello], [], some ⟨0x1234, .pullEnd done⟩, false⟩ := by
  decide +kernel

/-! ### Witnesses: resets, the array and the encodings -/

theorem witness_PowerOnValues :
    ([(0, Test.bad), (1048575, Test.weak)].map Prod.fst).Nodup ∧
      (∀ e ∈ [(0, Test.bad), (1048575, Test.weak)], e.1 < Config.words) := by
  decide

/-- Power-on while RESET_N is low leads to a part held in its pin reset, which the line's rise releases. -/
theorem test_power_on_in_reset :
    (match exec (.powerOn 1 []) (heldInReset 0 []) with
     | .next t => decide (t = heldInReset 1 [])
     | _ => false) = true ∧
      releaseReset 2 (heldInReset 1 []) = State.afterPower 2 [] := by
  decide +kernel

theorem witness_StepRunsTheFrontCommand :
    State.reset.pending = [] ∧ State.reset.resetLow = false ∧ (heldInReset 0 []).pending = [] ∧
      (heldInReset 0 []).resetLow = true ∧
      ({ State.reset with pending := [.helloTimer] } : State).pending = .helloTimer :: [] := by
  decide

/-- No bit in error, one (a data bit and the last check bit), and two. -/
theorem witness_DisturbanceKeepsTheStoredValue :
    (countBits 0 = 0 ∧ countBits 1 = 1 ∧ countBits 0x8000000000 = 1 ∧ countBits 0x8000000001 = 2) ∧
      checkWord (disturb (freshWord 7) 1 .good) = ⟨.correctable, 7⟩ ∧
      checkWord (disturb (freshWord 7) 0x8000000001 .good) = ⟨.uncorrectable, 6⟩ := by
  decide +kernel

theorem witness_CommandFramesReadBack : (List.replicate 253 (0 : Word)).length ≤ 253 := by decide +kernel

theorem witness_LinkFramesReadBack :
    entriesFit Test.entries = true ∧ pullFits ⟨.delta, 8, 0, 0, List.replicate 32 0⟩ = true ∧
      blockFits ⟨10, 0, List.replicate 16 0⟩ = true ∧ pullEndFits ⟨.done, 0, 0, some Test.entries⟩ = true ∧
      pullEndFits ⟨.stale, 0, 0, none⟩ = true := by
  decide

/-! ### Witnesses: the invariants -/

/-- A running part with a cycle open, a journal and PERMIT on. -/
def Test.permitted : State :=
  let r := Test.running .opened
  { r with
    cju := { r.cju with journal := [Test.preImage 10], wCur := [10], timer := some 1000 }
    vtu := { r.vtu with permitted := true, level := true, last := some ⟨.member2, 1, 3, 0⟩ } }

/-- It obeys the laws. -/
theorem witness_invariants_hold :
    arrayLaw Test.permitted = true ∧ eventLaw Test.permitted = true ∧ alertLaw Test.permitted = true ∧
      queueLaw Test.permitted = true ∧ heldLaw Test.permitted = true ∧ journalLaw Test.permitted = true ∧
      revertLaw Test.permitted = true ∧ permitInvariant Test.permitted = true := by
  decide +kernel

/-- A step takes it on, into CLOSING. -/
theorem witness_invariants_step :
    (match step { Test.permitted with pending := [.closeCycle 1 []] } with
     | .next t => decide (t.cju.chan = some .closing) && permitInvariant t
     | _ => false) = true := by
  decide +kernel

/-- The laws of the records hold there, and those that go with PERMIT's. -/
theorem witness_RecordsKeepTheirLaws :
    let s := Test.permitted
    creditLaw s = true ∧ pullLaw s = true ∧ transmitLaw s.lkc.tx.one = true ∧ transmitLaw s.lkc.tx.two = true ∧
      signatureLaw s = true ∧ tableLaw s = true ∧ commandLaw s = true ∧ regionLaw s = true ∧ repairLaw s = true ∧
      resendLaw s = true ∧ voteLaw s = true ∧ decidingLaw s = true := by
  decide +kernel

/-- No word of that part's array is in error. -/
theorem witness_truthful : Truthful Test.permitted := by
  intro a _
  have h : memGet Test.permitted.mpu.mem a = StoredWord.unlisted := rfl
  unfold readWord
  rw [h]
  decide

/-- The running signatures account for the stored values there. -/
theorem witness_SignaturesAccountForStoredValues :
    signedQueueLaw Test.permitted = true ∧ initLaw Test.permitted = true ∧ storedLaw Test.permitted = true ∧
      passSumLaw Test.permitted = true := by
  decide +kernel

/-- They do while a region is signed as well, a block in: the sum covers the block read. -/
theorem witness_SignaturesAccountForStoredValues_signing :
    let s := { Test.configured with dev := .signing, sgu.pass := some ⟨[0, 7], 10, 0, 0⟩, mpu.mem := [(161, freshWord 2)] }
    passSumLaw s = true ∧ permitInvariant s = true ∧ passSumLaw (signingRead s) = true ∧
      ((signingRead s).sgu.pass.map SigningPass.sum = some 16) := by
  decide +kernel

end Sys2Proof.Machine
end

section
/-! PROOFS. Taking a command that passes the checks of R169 and answering it (R168 to R170): what every software command that
is taken at once shares. -/

namespace Sys2Proof.Machine

open Sys2Proof

/-! ### Taking a command -/

/-- Every parameter length that a command takes fits the request area. -/
theorem le_of_lengthFits (cmd : Command) (n : Nat) (h : lengthFits cmd n = true) : n ≤ 253 := by
  cases cmd <;> simp only [lengthFits, decide_eq_true_eq, beq_iff_eq] at h <;> omega

/-- A command that is taken passes check 4 of R169: INIT_MEMORY is over, or the command is one that R51 lets through. -/
theorem notBusy_of_takes (cmd : Command) (s : State) (h : Claim.takes cmd s) :
    ¬(s.mpu.initOp.isSome = true ∧ takenInInit cmd = false) := by
  obtain ⟨-, -, hi | rfl | rfl | rfl | rfl⟩ := h
  · simp [hi]
  all_goals simp [takenInInit]

/-- A frame whose length the command takes is written whole to the request area. -/
theorem take_commandFrame (cmd : Command) (tag : Byte) (ps : List Word) (h : ps.length ≤ 253) :
    (commandFrame cmd tag ps).take Config.requestWords = commandFrame cmd tag ps := by
  apply List.take_of_length_le
  simp only [commandFrame, Config.requestWords, List.length_append, List.length_cons, List.length_nil]
  omega

/-- A command that passes steps 3 to 5 of R169 has its effect. -/
theorem takeCommand_of_passes (cmd : Command) (tag : Byte) (ps : List Word) (s : State)
    (hl : lengthFits cmd ps.length = true) (hb : ¬(s.mpu.initOp.isSome = true ∧ takenInInit cmd = false))
    (hs : stateRefusal cmd s = none) :
    takeCommand cmd tag ps s = effectOf cmd tag ps { pend s with cmu.buffer := some ⟨cmd, tag, ps⟩ } := by
  unfold takeCommand
  rw [if_neg (by simp [hl]), if_neg hb, hs]

/-- A command that passes the checks of R169 has its effect on the part that has taken its frame. -/
theorem presentCommand_of_takes (cmd : Command) (tag : Byte) (ps : List Word) (s : State) (ht : Claim.takes cmd s)
    (hl : lengthFits cmd ps.length = true) (hs : stateRefusal cmd s = none) :
    presentCommand cmd tag ps s = effectOf cmd tag ps (Claim.presented cmd tag ps s) := by
  have hn := le_of_lengthFits cmd _ hl
  have hb := notBusy_of_takes cmd s ht
  obtain ⟨hr, hp, -⟩ := ht
  unfold presentCommand
  rw [if_neg (by simp [hr]), take_commandFrame cmd tag ps hn, if_neg (by simpa using hp), if_pos hn]
  exact takeCommand_of_passes cmd tag ps _ hl (by simpa using hb) hs

/-! ### Answering -/

/-- A completed response reads back in the response area, whatever the command did elsewhere (R170, R183). -/
theorem response_respond (st : Status) (d : Nat) (tag : Byte) (ws : List Word) (s u : State)
    (h : u.cmu.response = s.cmu.response) : Claim.response st d tag ws s (respond st d tag ws u) := by
  refine ⟨rfl, rfl, ?_, ?_, ?_⟩
  · intro k hk
    have h1 : k + 1 < 1 + (ws.length + 1) := by omega
    simp [responseWord, respond, areaWord_putWords, h1, hk, List.getElem?_append_left hk]
  · simp [responseWord, respond, areaWord_putWords, Nat.add_comm 1, frameCheck]
  · intro k hk
    have h0 : k ≠ 0 := by omega
    have h1 : ¬(k < 1 + (ws.length + 1)) := by omega
    simp [responseWord, respond, areaWord_putWords, h0, h1, h]

/-- The end of the step leaves the response as it is. -/
theorem response_settle (st : Status) (d : Nat) (tag : Byte) (ws : List Word) (s t : State)
    (h : Claim.response st d tag ws s t) : Claim.response st d tag ws s (settle t) := by
  have hw : responseWord (settle t) = responseWord t := by funext k; simp [responseWord]
  simpa [Claim.response, hw] using h

/-- A command that answers and ends its step changes beyond its response and the step's end nothing of the state that its own
effect leaves. -/
theorem settle_respond_end (st : Status) (d : Nat) (tag : Byte) (ws : List Word) (u : State) :
    EndOfStep (Claim.withResponse (settle (respond st d tag ws u)) u) (settle (respond st d tag ws u)) := by
  have hu : Claim.withResponse (settle (respond st d tag ws u)) u = respond st d tag ws u := by
    simp [Claim.withResponse, respond]
  rw [hu]
  exact settle_end _

end Sys2Proof.Machine
end

section
/-! PROOFS. Backpressure at the end of a step (R21, R28): while the hold flag is clear no write stays held by it. -/

namespace Sys2Proof.Machine

open Sys2Proof

/-- The end of a step leaves the port and the queue as the release of the held transfers does. -/
theorem settle_port (s : State) : (settle s).ppt = (releaseHeld s).ppt ∧ (settle s).pwq = (releaseHeld s).pwq := by
  simp [settle]

/-- A transfer is held by backpressure only while the hold flag is set. -/
theorem judge_backpressure (w : Bool) (t : Transfer) (s : State) (h : (judge w t s).2 = some .backpressure) :
    s.pwq.hold = true := by
  by_contra hs
  simp only [judge, hs, if_false] at h
  (repeat' split at h) <;> cases h

/-- Judging a transfer never clears the hold flag. -/
theorem judge_hold (w : Bool) (t : Transfer) (s : State) (h : s.pwq.hold = true) : (judge w t s).1.pwq.hold = true := by
  unfold judge
  (repeat' split) <;> simp_all

/-- Releasing a held transfer never clears the hold flag. -/
theorem releaseOne_hold (h : Held) (s : State) (hs : s.pwq.hold = true) : (releaseOne h s).pwq.hold = true := by
  unfold releaseOne
  (repeat' split) <;> simp [hs, judge_hold]

/-- Nor does a pass over several of them. -/
theorem foldl_releaseOne_hold (l : List Held) (s : State) (hs : s.pwq.hold = true) :
    (l.foldl (fun s h => releaseOne h s) s).pwq.hold = true := by
  induction l generalizing s with
  | nil => exact hs
  | cons h l ih => exact ih _ (releaseOne_hold h s hs)

/-- With the hold flag clear, what backpressure holds after a transfer was looked at was held so before, and is another one. -/
theorem releaseOne_backpressure (h g : Held) (s : State) (hs : s.pwq.hold = false)
    (hg : g ∈ (releaseOne h s).ppt.held) (hb : g.hold = .backpressure) : g ∈ s.ppt.held ∧ g ≠ h := by
  unfold releaseOne at hg
  split at hg
  case isTrue =>
    split at hg
    case h_1 =>
      simp only [unhold, judge_keeps, List.mem_filter, bne_iff_ne] at hg
      exact ⟨hg.1, fun e => hg.2 (by rw [e])⟩
    case h_2 k hk =>
      simp only [rehold, judge_keeps, List.mem_map] at hg
      obtain ⟨x, hx, rfl⟩ := hg
      by_cases hi : x.transfer.ini = h.transfer.ini
      · rw [if_pos hi] at hb
        obtain rfl : k = .backpressure := hb
        simp [judge_backpressure _ _ _ hk] at hs
      · rw [if_neg hi]
        exact ⟨hx, fun e => hi (by rw [e])⟩
  case isFalse hn =>
    refine ⟨hg, ?_⟩
    rintro rfl
    simp [hb, holdEnded, hs] at hn

/-- A pass over the held transfers that ends with the hold flag clear leaves none of them held by backpressure. -/
theorem foldl_releaseOne_backpressure (l : List Held) (s : State)
    (hl : ∀ g ∈ s.ppt.held, g.hold = .backpressure → g ∈ l)
    (hh : (l.foldl (fun s h => releaseOne h s) s).pwq.hold = false) :
    ∀ g ∈ (l.foldl (fun s h => releaseOne h s) s).ppt.held, g.hold ≠ .backpressure := by
  induction l generalizing s with
  | nil => exact fun g hg hb => List.not_mem_nil (hl g hg hb)
  | cons h l ih =>
    have hs : s.pwq.hold = false := by
      by_contra hc
      rw [Bool.not_eq_false] at hc
      exact Bool.false_ne_true (hh.symm.trans (foldl_releaseOne_hold (h :: l) s hc))
    refine ih (releaseOne h s) (fun g hg hb => ?_) hh
    obtain ⟨hm, hne⟩ := releaseOne_backpressure h g s hs hg hb
    exact (List.mem_cons.1 (hl g hm hb)).resolve_left hne

/-- A step that ends with the hold flag clear, and with no port hold, has released every write held by backpressure. -/
theorem settle_backpressure (s : State) (hp : portHold s = false) (hh : (settle s).pwq.hold = false) :
    ∀ g ∈ (settle s).ppt.held, g.hold ≠ .backpressure := by
  obtain ⟨hppt, hpwq⟩ := settle_port s
  rw [hpwq] at hh
  rw [hppt]
  simp only [releaseHeld, hp, Bool.false_eq_true, if_false] at hh ⊢
  exact foldl_releaseOne_backpressure _ s (fun g hg _ => hg) hh

/-- No port hold is in force once a command is answered (R36). -/
theorem portHold_respond (st : Status) (d : Nat) (tag : Byte) (ws : List Word) (s : State) :
    portHold (respond st d tag ws s) = false := rfl

end Sys2Proof.Machine
end

section
/-! PROOFS. SET_QUEUE (R29): the thresholds that it stores, the hold flag under them, and what the resets make of them. -/

namespace Sys2Proof.Machine

open Sys2Proof

/-- The posted-write queue under new thresholds, the hold flag tested with them at once (R28, R29). -/
def Pwq.withThresholds (q : Pwq) (upper lower : Nat) : Pwq :=
  ⟨q.entries,
   if q.entries.length ≤ lower then false else if upper ≤ q.entries.length then true else q.hold, upper, lower⟩

/-- Both tests of the hold flag, the upper threshold's first, are one choice among three. -/
theorem lowerHold_raiseHold (s : State) (upper lower : Nat) :
    lowerHold (raiseHold { s with pwq := { s.pwq with upper := upper, lower := lower } }) =
      { s with pwq := s.pwq.withThresholds upper lower } := by
  unfold lowerHold raiseHold Pwq.withThresholds
  by_cases hu : upper ≤ s.pwq.entries.length <;> by_cases hl : s.pwq.entries.length ≤ lower <;> simp [hu, hl]

/-- SET_QUEUE puts the queue under the clamped thresholds and answers DONE with them. -/
theorem takeSetQueue_eq (tag : Byte) (ps : List Word) (s : State) :
    takeSetQueue tag ps s =
      settle (respond .done 0 tag [BitVec.ofNat 32 (clampedUpper ps), BitVec.ofNat 32 (clampedLower ps)]
        { s with pwq := s.pwq.withThresholds (clampedUpper ps) (clampedLower ps) }) := by
  unfold takeSetQueue done
  simp only [lowerHold_raiseHold, List.map_cons, List.map_nil]

/-- SET_QUEUE, taken in CONFIGURING with its two parameters. -/
theorem exec_setQueue (tag : Byte) (a b : Word) (s : State) (ht : Claim.takes .setQueue s) (hc : s.dev = .configuring) :
    exec (.setQueue tag [a, b]) s = .next (takeSetQueue tag [a, b] (Claim.presented .setQueue tag [a, b] s)) := by
  have hs : stateRefusal .setQueue s = none := by simp [stateRefusal, unlessConfiguring, hc]
  exact congrArg Host.Outcome.next (presentCommand_of_takes .setQueue tag [a, b] s ht rfl hs)

/-- The thresholds that stand after SET_QUEUE (R29). -/
theorem takeSetQueue_thresholds (tag : Byte) (ps : List Word) (s : State) :
    (takeSetQueue tag ps s).pwq.upper = clampedUpper ps ∧ (takeSetQueue tag ps s).pwq.lower = clampedLower ps := by
  simp [takeSetQueue_eq, Pwq.withThresholds]

/-- SET_QUEUE answers DONE with the thresholds that it stores. -/
theorem takeSetQueue_response (tag : Byte) (ps : List Word) (s u : State) (h : u.cmu.response = s.cmu.response) :
    Claim.response .done 0 tag [BitVec.ofNat 32 (clampedUpper ps), BitVec.ofNat 32 (clampedLower ps)] s
      (takeSetQueue tag ps u) := by
  rw [takeSetQueue_eq]
  exact response_settle _ _ _ _ _ _ (response_respond _ _ _ _ _ _ h)

/-- Beyond the queue, the response and the step's end SET_QUEUE changes nothing. -/
theorem takeSetQueue_end (tag : Byte) (ps : List Word) (s : State) :
    EndOfStep
      (Claim.withResponse (takeSetQueue tag ps s)
        { s with pwq := s.pwq.withThresholds (clampedUpper ps) (clampedLower ps) })
      (takeSetQueue tag ps s) := by
  rw [takeSetQueue_eq]
  exact settle_respond_end ..

/-- After SET_QUEUE with the hold flag clear no write is held by backpressure. -/
theorem takeSetQueue_releases (tag : Byte) (ps : List Word) (s : State) (hh : (takeSetQueue tag ps s).pwq.hold = false) :
    ∀ g ∈ (takeSetQueue tag ps s).ppt.held, g.hold ≠ .backpressure := by
  rw [takeSetQueue_eq] at hh ⊢
  exact settle_backpressure _ (portHold_respond ..) hh

/-- Power-on gives the default thresholds, with RESET_N low as well (R29, R38). -/
theorem exec_powerOn_thresholds (p : BitVec 2) (content : List (Nat × StoredWord)) (s : State) :
    ∃ t, exec (.powerOn p content) s = .next t ∧ t.pwq.upper = 24 ∧ t.pwq.lower = 8 := by
  refine ⟨_, rfl, ?_⟩
  split <;> exact ⟨rfl, rfl⟩

/-- A pin reset gives the default thresholds (R29, R38). -/
theorem exec_pinResetAssert_thresholds (cut : Option Cut) (s : State) :
    ∃ t, exec (.pinResetAssert cut) s = .next t ∧ t.pwq.upper = 24 ∧ t.pwq.lower = 8 :=
  ⟨_, rfl, rfl, rfl⟩

/-- A command reset leaves both thresholds as they are (R37, R38). -/
theorem resetNow_thresholds (f : CmdFrame) (s : State) :
    (resetNow f s).pwq.upper = s.pwq.upper ∧ (resetNow f s).pwq.lower = s.pwq.lower := by
  simp [resetNow, done, resetBlocks]

/-- Nor does the step of a command reset change them, whether it is due or not. -/
theorem exec_commandReset_thresholds (s t : State) (h : exec .commandReset s = .next t) :
    t.pwq.upper = s.pwq.upper ∧ t.pwq.lower = s.pwq.lower := by
  obtain rfl : whenReady (drained .reset resetNow) s = t := by simpa [exec, execCommandReset] using h
  unfold whenReady drained
  (repeat' split) <;> simp [resetNow_thresholds]

/-- Settles O19: SET_QUEUE's step is `exec_setQueue`, and what it stores, answers, leaves and releases are the lemmas about
`takeSetQueue`. -/
theorem queueThresholdsAreClamped : Obligations.QueueThresholdsAreClamped := by
  refine ⟨?stores, ?smallest, ?releases, exec_powerOn_thresholds, exec_pinResetAssert_thresholds,
    exec_commandReset_thresholds⟩
  case stores =>
    intro tag a b s ht hc
    obtain ⟨hu, hl⟩ := takeSetQueue_thresholds tag [a, b] (Claim.presented .setQueue tag [a, b] s)
    refine ⟨_, exec_setQueue tag a b s ht hc, ?_⟩
    rw [hu, hl]
    exact ⟨rfl, rfl, takeSetQueue_response tag [a, b] s _ rfl, takeSetQueue_end ..⟩
  case smallest =>
    intro tag s ht hc
    obtain ⟨hu, hl⟩ := takeSetQueue_thresholds tag [2, 9] (Claim.presented .setQueue tag [2, 9] s)
    exact ⟨_, exec_setQueue tag 2 9 s ht hc, hu.trans (by decide), hl.trans (by decide)⟩
  case releases =>
    intro tag a b s t ht hc he hh
    obtain rfl := Host.Outcome.next.inj ((exec_setQueue tag a b s ht hc).symm.trans he)
    exact takeSetQueue_releases tag [a, b] _ hh

end Sys2Proof.Machine
end

section
/-! PROOFS. The residues of word values, row by row of the table of R56 (chapter 4): a 32-bit value holds the modulus p not
at all, once or twice. -/

namespace Sys2Proof.Machine

open Sys2Proof

/-- Row 1 of the table of R56: a value below p is its own residue. -/
theorem residue_of_lt (v : Word) (h : v.toNat < Config.p) : residue v = v.toNat :=
  Nat.mod_eq_of_lt h

/-- Row 2: from p to 2p - 1 the residue is what is left of the value above p. -/
theorem residue_of_le_of_lt (v : Word) (hl : Config.p ≤ v.toNat) (hu : v.toNat < Config.p * 2) :
    residue v = v.toNat - Config.p :=
  calc residue v
    _ = (v.toNat - Config.p) % Config.p := Nat.mod_eq_sub_mod hl
    _ = v.toNat - Config.p := Nat.mod_eq_of_lt (by omega)

/-- Rows 3 and 4: from 2p up the residue is what is left above 2p, since 32 bits hold no third multiple of p. -/
theorem residue_of_mul_two_le (v : Word) (hl : Config.p * 2 ≤ v.toNat) : residue v = v.toNat - Config.p * 2 := by
  have hv : v.toNat < Config.p * 3 := v.isLt.trans (by decide)
  calc residue v
    _ = (v.toNat - Config.p * 2) % Config.p := (Nat.sub_mul_mod hl).symm
    _ = v.toNat - Config.p * 2 := Nat.mod_eq_of_lt (by omega)

/-- Settles O54: the residue is by definition the remainder by p, and each row of the table is the lemma for the number of
times that p goes into its values. -/
theorem residuesAreModuloP : Obligations.ResiduesAreModuloP := by
  intro v
  have hp : Config.p = 2147483647 := rfl
  refine ⟨rfl, ?once, ?twice, ?zero, ?one⟩
  case once => exact fun h => residue_of_lt v (by omega)
  case twice => exact fun hl hu => residue_of_le_of_lt v hl (by omega)
  case zero =>
    rintro rfl
    exact residue_of_mul_two_le 0xFFFFFFFE (by decide)
  case one =>
    rintro rfl
    exact residue_of_mul_two_le 0xFFFFFFFF (by decide)

end Sys2Proof.Machine
end

section
/-! PROOFS. Records in the event queue (R177, R178): an event recorded with room in the queue stands in it, and what the end of
the step records beside it takes no record away but an ACCESS_REFUSED that it extends (R23). -/

namespace Sys2Proof.Machine

open Sys2Proof

/-- Recording an event takes no record away. -/
theorem mem_events_recordEvent (b : EventBody) (s : State) (r : Record) (h : r ∈ s.cmu.events) :
    r ∈ (recordEvent b s).cmu.events := by
  unfold recordEvent Cmu.record
  split <;> simp [h]

/-- An event that finds room in the queue has its record there. -/
theorem exists_mem_events_recordEvent (b : EventBody) (s : State) (h : s.cmu.events.length < 64) :
    ∃ r ∈ (recordEvent b s).cmu.events, r.body = b := by
  simp [recordEvent, Cmu.record, Config.eventMax, h]

/-- An event takes at most one place in the queue. -/
theorem length_events_recordEvent_le (b : EventBody) (s : State) :
    (recordEvent b s).cmu.events.length ≤ s.cmu.events.length + 1 := by
  unfold recordEvent Cmu.record
  split <;> simp

/-- The event that a refusal extends is an ACCESS_REFUSED. -/
theorem eventKind_of_repeated {reason : AccessReason} {ini : Initiator} {region : Option Nat} {b c : EventBody}
    (h : repeated reason ini region b = some c) : eventKind b = 1 := by
  unfold repeated at h
  split at h
  · rfl
  · cases h

/-- A refusal takes away no record of another kind (R23). -/
theorem mem_events_recordRefusal (reason : AccessReason) (ini : Initiator) (addr : Nat) (region : Option Nat) (s : State)
    (r : Record) (hk : eventKind r.body ≠ 1) (h : r ∈ s.cmu.events) :
    r ∈ (recordRefusal reason ini addr region s).cmu.events := by
  unfold recordRefusal
  split
  case h_1 newest hl =>
    split
    case h_1 b hb =>
      have hne : r ≠ newest := fun e => hk (e ▸ eventKind_of_repeated hb)
      have hr : r ∈ s.cmu.events.dropLast ++ [newest] := by rwa [List.dropLast_append_getLast? newest hl]
      exact List.mem_append_left _ ((List.mem_append.1 hr).resolve_right (by simpa using hne))
    case h_2 => exact mem_events_recordEvent _ s r h
  case h_2 => exact mem_events_recordEvent _ s r h

/-- Judging a transfer takes away no record of another kind than a refusal's. -/
theorem mem_events_judge (w : Bool) (t : Transfer) (s : State) (r : Record) (hk : eventKind r.body ≠ 1)
    (h : r ∈ s.cmu.events) : r ∈ (judge w t s).1.cmu.events := by
  unfold judge
  split
  case h_1 => simpa using mem_events_recordRefusal _ _ _ _ s r hk h
  case h_2 => (repeat' split) <;> simp [h]

/-- Nor does releasing a held transfer. -/
theorem mem_events_releaseOne (g : Held) (s : State) (r : Record) (hk : eventKind r.body ≠ 1) (h : r ∈ s.cmu.events) :
    r ∈ (releaseOne g s).cmu.events := by
  unfold releaseOne
  (repeat' split) <;> simp [h, mem_events_judge _ _ _ _ hk]

/-- Nor does the release of all of them. -/
theorem mem_events_releaseHeld (s : State) (r : Record) (hk : eventKind r.body ≠ 1) (h : r ∈ s.cmu.events) :
    r ∈ (releaseHeld s).cmu.events := by
  have fold : ∀ (l : List Held) (s : State), r ∈ s.cmu.events → r ∈ (l.foldl (fun s g => releaseOne g s) s).cmu.events := by
    intro l
    induction l with
    | nil => exact fun _ h => h
    | cons g l ih => exact fun s h => ih _ (mem_events_releaseOne g s r hk h)
  unfold releaseHeld
  split
  · exact h
  · exact fold _ s h

/-- The end of a service only records its event. -/
theorem mem_events_endService (result : PullResult) (entries : Option (List SigEntry)) (s : State) (r : Record)
    (h : r ∈ s.cmu.events) : r ∈ (endService result entries s).cmu.events := by
  unfold endService
  (repeat' split)
  · exact mem_events_recordEvent _ _ r (by simp [h])
  all_goals exact h

/-- A service that goes on takes no record away. -/
theorem mem_events_serviceTick (s : State) (r : Record) (h : r ∈ s.cmu.events) : r ∈ (serviceTick s).cmu.events := by
  unfold serviceTick finishService
  (repeat' split) <;> simp [h, mem_events_endService]

/-- The end of a step takes away no record of another kind than a refusal's. -/
theorem mem_events_settle (s : State) (r : Record) (hk : eventKind r.body ≠ 1) (h : r ∈ s.cmu.events) :
    r ∈ (settle s).cmu.events := by
  simpa [settle] using mem_events_serviceTick _ r (mem_events_releaseHeld s r hk h)

end Sys2Proof.Machine
end

section
/-! PROOFS. The silence check of R118 in a part whose device is not RUNNING: a peer that becomes SILENT moves nothing beyond
its record and the event queue. -/

namespace Sys2Proof.Machine

open Sys2Proof

/-- The command unit `c` with the event queue, its counters and ALERT as they are in `d` (R177, R180). -/
def Cmu.withEvents (c d : Cmu) : Cmu :=
  { c with events := d.events, nextSeq := d.nextSeq, dropped := d.dropped, alert := d.alert }

/-- Recording an event changes of the command unit only the event queue, its counters and ALERT. -/
theorem recordEvent_cmu (b : EventBody) (s : State) :
    (recordEvent b s).cmu = s.cmu.withEvents (recordEvent b s).cmu := by
  unfold recordEvent Cmu.record Cmu.withEvents
  split <;> rfl

/-- What the end of a step records is left open by `EndOfStep`. -/
theorem endOfStep_withEvents {u t : State} (h : EndOfStep u t) :
    EndOfStep { u with cmu := u.cmu.withEvents t.cmu } t := by
  obtain ⟨hfields, hservice, hentries, hanswers, hheld, hidle⟩ := h
  refine ⟨hfields, hservice, hentries, hanswers, hheld, fun hh hs => ?_⟩
  have hc : t.cmu = u.cmu := (congrArg State.cmu (hidle hh hs) :)
  rw [hc]
  exact hidle hh hs

/-- In CONFIGURING there is no channel state (R69). -/
theorem chan_of_configuring {s : State} (hl : channelLaw s = true) (hc : s.dev = .configuring) : s.cju.chan = none := by
  rw [channelLaw, hc, beq_iff_eq] at hl
  exact Option.not_isSome_iff_eq_none.1 (by simp [← hl])

/-- Without a channel state neither the vote nor a pull acts on a change of a link state (R125, R143). -/
theorem linkChanged_of_no_chan (s : State) (h : s.cju.chan = none) : linkChanged s = s := by
  simp [linkChanged, testDecision, testFull, h]

/-- The event of a peer that becomes SILENT (R118). -/
def silentEvent (l : Link) (s : State) : EventBody :=
  .peerState (peerPosition s.position l) false (s.lkc.peers.get l).matched

/-- A peer's record after the silence check: HEARD only while its last frame is younger than the peer silence time (R118). -/
def checkedPeer (l : Link) (s : State) : Peer :=
  { s.lkc.peers.get l with
    heard := (s.lkc.peers.get l).heard &&
      decide ((s.cmu.ms - ((s.lkc.peers.get l).lastFrame.getD s.cmu.ms)).toNat < s.times.peerSilence) }

/-- A record whose silence is due becomes SILENT. -/
theorem checkedPeer_of_due (l : Link) (s : State) (h : silenceDue l s = true) :
    checkedPeer l s = { s.lkc.peers.get l with heard := false } := by
  simp only [silenceDue, Bool.and_eq_true, decide_eq_true_eq] at h
  have hlt := decide_eq_false (Nat.not_lt.2 h.2)
  rw [checkedPeer, hlt, Bool.and_false]

/-- Any other record stays as it is. -/
theorem checkedPeer_of_not_due (l : Link) (s : State) (h : silenceDue l s = false) :
    checkedPeer l s = s.lkc.peers.get l := by
  unfold silenceDue at h
  unfold checkedPeer
  cases hp : s.lkc.peers.get l
  simp_all

/-- A record that the check makes SILENT was due. -/
theorem silenceDue_of_checkedPeer (l : Link) (s : State) (hb : (s.lkc.peers.get l).heard = true)
    (ha : (checkedPeer l s).heard = false) : silenceDue l s = true := by
  by_contra hn
  rw [checkedPeer_of_not_due l s (by simpa using hn), hb] at ha
  cases ha

/-- The silence check where there is no channel state. -/
theorem silenceCheck_of_no_chan (l : Link) (s : State) (h : s.cju.chan = none) :
    silenceCheck l s =
      if silenceDue l s = true then
        recordEvent (silentEvent l s) { s with lkc.peers := s.lkc.peers.put l (checkedPeer l s) }
      else s := by
  by_cases hd : silenceDue l s = true
  · rw [silenceCheck, if_pos hd, if_pos hd, checkedPeer_of_due l s hd]
    exact linkChanged_of_no_chan _ (by simp [h])
  · rw [silenceCheck, if_neg hd, if_neg hd]

/-- Whatever the channel state, the check leaves the times as they are. -/
theorem silenceCheck_times (l : Link) (s : State) : (silenceCheck l s).times = s.times := by
  unfold silenceCheck
  split <;> simp

/-- The check leaves the response area as it is. -/
theorem silenceCheck_response (l : Link) (s : State) : (silenceCheck l s).cmu.response = s.cmu.response := by
  unfold silenceCheck
  split <;> simp

/-- The check is a check of one record. -/
theorem silenceCheck_peers (l : Link) (s : State) (h : s.cju.chan = none) :
    (silenceCheck l s).lkc.peers = s.lkc.peers.put l (checkedPeer l s) := by
  rw [silenceCheck_of_no_chan l s h]
  split
  case isTrue => simp
  case isFalse hd => rw [checkedPeer_of_not_due l s (by simpa using hd), PerLink.put_get]

/-- Beyond the peer records and the event queue the check changes nothing. -/
theorem silenceCheck_frame (l : Link) (s : State) (h : s.cju.chan = none) :
    silenceCheck l s =
      { s with
        lkc.peers := (silenceCheck l s).lkc.peers
        cmu := s.cmu.withEvents (silenceCheck l s).cmu } := by
  rw [silenceCheck_of_no_chan l s h]
  split
  case isTrue => rw [← recordEvent_cmu (silentEvent l s) { s with lkc.peers := s.lkc.peers.put l (checkedPeer l s) }]; rfl
  case isFalse => rfl

/-- Without a channel state before the check there is none after it. -/
theorem silenceCheck_chan (l : Link) (s : State) (h : s.cju.chan = none) : (silenceCheck l s).cju.chan = none := by
  rw [silenceCheck_frame l s h]
  exact h

/-- The check of one link leaves the other link's record, and what becomes of it, as they are. -/
theorem silenceCheck_other (l m : Link) (s : State) (hne : l ≠ m) (h : s.cju.chan = none) :
    checkedPeer m (silenceCheck l s) = checkedPeer m s ∧ silenceDue m (silenceCheck l s) = silenceDue m s ∧
      silentEvent m (silenceCheck l s) = silentEvent m s := by
  rw [silenceCheck_frame l s h, silenceCheck_peers l s h]
  simp [checkedPeer, silenceDue, silentEvent, Cmu.withEvents, hne]

/-- The check takes no record out of the event queue. -/
theorem mem_events_silenceCheck (l : Link) (s : State) (h : s.cju.chan = none) (r : Record) (hr : r ∈ s.cmu.events) :
    r ∈ (silenceCheck l s).cmu.events := by
  rw [silenceCheck_of_no_chan l s h]
  split
  · exact mem_events_recordEvent _ _ r hr
  · exact hr

/-- A check takes at most one place in the event queue. -/
theorem length_events_silenceCheck_le (l : Link) (s : State) (h : s.cju.chan = none) :
    (silenceCheck l s).cmu.events.length ≤ s.cmu.events.length + 1 := by
  rw [silenceCheck_of_no_chan l s h]
  split
  · exact length_events_recordEvent_le _ _
  · exact Nat.le_succ _

/-- With room in the queue a peer that becomes SILENT has its event. -/
theorem silenceCheck_recorded (l : Link) (s : State) (h : s.cju.chan = none) (hd : silenceDue l s = true)
    (room : s.cmu.events.length < 64) : ∃ r ∈ (silenceCheck l s).cmu.events, r.body = silentEvent l s := by
  rw [silenceCheck_of_no_chan l s h, if_pos hd]
  exact exists_mem_events_recordEvent _ _ room

/-! ### Both links -/

/-- The silence check of both links, link 1 first (notes/assumptions/48). -/
def silenceBoth (s : State) : State := silenceCheck .two (silenceCheck .one s)

/-- The checks leave the times as they are. -/
theorem silenceBoth_times (s : State) : (silenceBoth s).times = s.times := by
  rw [silenceBoth, silenceCheck_times, silenceCheck_times]

/-- The checks leave the response area as it is. -/
theorem silenceBoth_response (s : State) : (silenceBoth s).cmu.response = s.cmu.response := by
  rw [silenceBoth, silenceCheck_response, silenceCheck_response]

/-- Each record is checked against the same times and the same millisecond. -/
theorem silenceBoth_peers (s : State) (h : s.cju.chan = none) (l : Link) :
    (silenceBoth s).lkc.peers.get l = checkedPeer l s := by
  obtain ⟨hp, -, -⟩ := silenceCheck_other .one .two s (by decide) h
  rw [silenceBoth, silenceCheck_peers .two _ (silenceCheck_chan .one s h), hp, silenceCheck_peers .one s h]
  cases l <;> simp

/-- Beyond the peer records and the event queue the checks change nothing. -/
theorem silenceBoth_frame (s : State) (h : s.cju.chan = none) :
    silenceBoth s =
      { s with
        lkc.peers := (silenceBoth s).lkc.peers
        cmu := s.cmu.withEvents (silenceBoth s).cmu } := by
  have h1 := silenceCheck_frame .one s h
  have h2 := silenceCheck_frame .two _ (silenceCheck_chan .one s h)
  unfold silenceBoth
  generalize silenceCheck .two (silenceCheck .one s) = t at *
  generalize silenceCheck .one s = u at *
  rw [h2, h1]
  rfl

/-- With room for two events each peer that becomes SILENT has its event. -/
theorem silenceBoth_recorded (s : State) (h : s.cju.chan = none) (room : s.cmu.events.length < 63) (l : Link)
    (hd : silenceDue l s = true) : ∃ r ∈ (silenceBoth s).cmu.events, r.body = silentEvent l s := by
  have h1 := silenceCheck_chan .one s h
  cases l with
  | one =>
    obtain ⟨r, hr, hb⟩ := silenceCheck_recorded .one s h hd (by omega)
    exact ⟨r, mem_events_silenceCheck .two _ h1 r hr, hb⟩
  | two =>
    obtain ⟨-, hdue, hevent⟩ := silenceCheck_other .one .two s (by decide) h
    have hlen := length_events_silenceCheck_le .one s h
    rw [← hevent]
    exact silenceCheck_recorded .two _ h1 (hdue.trans hd) (by omega)

end Sys2Proof.Machine
end

section
/-! PROOFS. SET_TIMING (R162): the four times that it stores and answers, the peers under the new peer silence time (R118), how
it is refused (R169), and what the resets make of the times. -/

namespace Sys2Proof.Machine

open Sys2Proof

/-- The four times as SET_TIMING answers them, in the order of R162. -/
def Times.words (t : Times) : List Word :=
  [t.cycleLimit, t.voteTimeout, t.peerSilence, t.pullSilence].map (BitVec.ofNat 32)

/-- SET_TIMING stores the clamped times, checks both peers against them and answers DONE with them. -/
theorem takeSetTiming_eq (tag : Byte) (ps : List Word) (s : State) :
    takeSetTiming tag ps s =
      settle (respond .done 0 tag (clampedTimes ps).words (silenceBoth { s with times := clampedTimes ps })) :=
  rfl

/-- SET_TIMING, taken in CONFIGURING with its four parameters. -/
theorem exec_setTiming (tag : Byte) (a b c d : Word) (s : State) (ht : Claim.takes .setTiming s)
    (hc : s.dev = .configuring) :
    exec (.setTiming tag [a, b, c, d]) s =
      .next (takeSetTiming tag [a, b, c, d] (Claim.presented .setTiming tag [a, b, c, d] s)) := by
  have hs : stateRefusal .setTiming s = none := by simp [stateRefusal, unlessConfiguring, hc]
  exact congrArg Host.Outcome.next (presentCommand_of_takes .setTiming tag [a, b, c, d] s ht rfl hs)

/-- The times that stand after SET_TIMING (R162). -/
theorem takeSetTiming_times (tag : Byte) (ps : List Word) (s : State) :
    (takeSetTiming tag ps s).times = clampedTimes ps := by
  simp [takeSetTiming_eq, silenceBoth_times]

/-- SET_TIMING answers DONE with the times that it stores. -/
theorem takeSetTiming_response (tag : Byte) (ps : List Word) (s u : State) (h : u.cmu.response = s.cmu.response) :
    Claim.response .done 0 tag (clampedTimes ps).words s (takeSetTiming tag ps u) :=
  response_settle _ _ _ _ _ _ (response_respond _ _ _ _ _ _ ((silenceBoth_response _).trans h))

/-- The peer records after SET_TIMING are the ones that the new peer silence time leaves. -/
theorem takeSetTiming_peers (tag : Byte) (ps : List Word) (s : State) (h : s.cju.chan = none) (l : Link) :
    (takeSetTiming tag ps s).lkc.peers.get l = checkedPeer l { s with times := clampedTimes ps } := by
  simpa [takeSetTiming_eq] using silenceBoth_peers { s with times := clampedTimes ps } h l

/-- A peer that SET_TIMING makes SILENT has its event in the queue, whatever the end of the step records after it. -/
theorem takeSetTiming_recorded (tag : Byte) (ps : List Word) (s : State) (h : s.cju.chan = none)
    (room : s.cmu.events.length < 63) (l : Link) (hb : (s.lkc.peers.get l).heard = true)
    (ha : ((takeSetTiming tag ps s).lkc.peers.get l).heard = false) :
    ∃ r ∈ (takeSetTiming tag ps s).cmu.events, r.body = silentEvent l s := by
  rw [takeSetTiming_peers tag ps s h] at ha
  have hd := silenceDue_of_checkedPeer l { s with times := clampedTimes ps } hb ha
  obtain ⟨r, hr, he⟩ := silenceBoth_recorded { s with times := clampedTimes ps } h room l hd
  have hk : eventKind r.body ≠ 1 := by simp [he, silentEvent, eventKind]
  rw [takeSetTiming_eq]
  exact ⟨r, mem_events_settle _ r hk hr, he⟩

/-- Beyond the times, the peer records, the response, the event queue and the step's end SET_TIMING changes nothing. -/
theorem takeSetTiming_end (tag : Byte) (ps : List Word) (s : State) (h : s.cju.chan = none) :
    EndOfStep
      (Claim.withResponse (takeSetTiming tag ps s)
        { s with
          times := (takeSetTiming tag ps s).times
          lkc.peers := (takeSetTiming tag ps s).lkc.peers
          cmu := s.cmu.withEvents (takeSetTiming tag ps s).cmu })
      (takeSetTiming tag ps s) := by
  have hend := endOfStep_withEvents
    (settle_respond_end .done 0 tag (clampedTimes ps).words (silenceBoth { s with times := clampedTimes ps }))
  have hframe := silenceBoth_frame { s with times := clampedTimes ps } h
  have htimes := takeSetTiming_times tag ps s
  have hpeers : (takeSetTiming tag ps s).lkc.peers = (silenceBoth { s with times := clampedTimes ps }).lkc.peers := by
    simp [takeSetTiming_eq]
  rw [← takeSetTiming_eq] at hend
  generalize takeSetTiming tag ps s = t at *
  generalize silenceBoth { s with times := clampedTimes ps } = w at *
  rw [htimes, hpeers]
  rw [hframe] at hend
  exact hend

/-! ### The refusals -/

/-- A command frame that fits the request area and finds no command pending is taken to steps 3 to 5 of R169. -/
theorem presentCommand_of_fits (cmd : Command) (tag : Byte) (ps : List Word) (s : State) (hr : s.resetLow = false)
    (hp : s.cmu.header.status ≠ .pending) (hn : ps.length ≤ 253) :
    presentCommand cmd tag ps s =
      takeCommand cmd tag ps
        (giveAnswer .data .okay 0 { s with cmu.request := putWords s.cmu.request 0 (commandFrame cmd tag ps) }) := by
  unfold presentCommand
  rw [if_neg (by simp [hr]), take_commandFrame cmd tag ps hn, if_neg (by simpa using hp), if_pos hn]

/-- A command of another length is answered BAD_LENGTH and does nothing (R169, step 3). -/
theorem takeCommand_of_badLength (cmd : Command) (tag : Byte) (ps : List Word) (s : State)
    (hl : lengthFits cmd ps.length = false) :
    takeCommand cmd tag ps s = respond .badLength 0 tag [] { pend s with cmu.buffer := some ⟨cmd, tag, ps⟩ } := by
  unfold takeCommand
  rw [if_pos hl]

/-- A command that the device state or the channel state does not permit is answered REFUSED_STATE and does nothing (R169,
step 5). -/
theorem takeCommand_of_refused (cmd : Command) (tag : Byte) (ps : List Word) (s : State) (c : Subcode)
    (hl : lengthFits cmd ps.length = true) (hb : ¬(s.mpu.initOp.isSome = true ∧ takenInInit cmd = false))
    (hs : stateRefusal cmd s = some c) :
    takeCommand cmd tag ps s = refusedState c tag { pend s with cmu.buffer := some ⟨cmd, tag, ps⟩ } := by
  unfold takeCommand
  rw [if_neg (by simp [hl]), if_neg hb, hs]

/-- SET_TIMING with another parameter length is answered BAD_LENGTH and stores nothing. -/
theorem exec_setTiming_badLength (tag : Byte) (ps : List Word) (s : State) (hr : s.resetLow = false)
    (hp : s.cmu.header.status ≠ .pending) (hn : ps.length ≤ 253) (hl : ps.length ≠ 4) :
    ∃ t, exec (.setTiming tag ps) s = .next t ∧ t.times = s.times ∧ Claim.response .badLength 0 tag [] s t := by
  have hfit : lengthFits .setTiming ps.length = false := by simp [lengthFits, hl]
  exact ⟨_, congrArg Host.Outcome.next ((presentCommand_of_fits .setTiming tag ps s hr hp hn).trans
    (takeCommand_of_badLength _ _ _ _ hfit)), rfl, response_respond _ _ _ _ _ _ rfl⟩

/-- Outside CONFIGURING SET_TIMING is refused and stores nothing (R161). -/
theorem exec_setTiming_refused (tag : Byte) (a b c d : Word) (s : State) (ht : Claim.takes .setTiming s)
    (hc : s.dev ≠ .configuring) :
    ∃ t, exec (.setTiming tag [a, b, c, d]) s = .next t ∧ t.times = s.times ∧
      Claim.response .refusedState 2 tag [] s t := by
  have hb := notBusy_of_takes .setTiming s ht
  have hs : stateRefusal .setTiming s = some .notConfiguring := by simp [stateRefusal, unlessConfiguring, hc]
  obtain ⟨hr, hp, -⟩ := ht
  exact ⟨_, congrArg Host.Outcome.next ((presentCommand_of_fits .setTiming tag [a, b, c, d] s hr hp (by simp)).trans
    (takeCommand_of_refused _ _ _ _ _ rfl hb hs)), rfl, response_respond _ _ _ _ _ _ rfl⟩

/-! ### The resets -/

/-- Power-on gives the default times, with RESET_N low as well (R162). -/
theorem exec_powerOn_times (p : BitVec 2) (content : List (Nat × StoredWord)) (s : State) :
    ∃ t, exec (.powerOn p content) s = .next t ∧ t.times = ⟨1000, 20, 50, 20⟩ := by
  refine ⟨_, rfl, ?_⟩
  split <;> rfl

/-- A pin reset gives the default times (R162). -/
theorem exec_pinResetAssert_times (cut : Option Cut) (s : State) :
    ∃ t, exec (.pinResetAssert cut) s = .next t ∧ t.times = ⟨1000, 20, 50, 20⟩ :=
  ⟨_, rfl, rfl⟩

/-- A command reset leaves the times as they are (R162). -/
theorem resetNow_times (f : CmdFrame) (s : State) : (resetNow f s).times = s.times := by
  simp [resetNow, done, resetBlocks]

/-- Nor does the step of a command reset change them, whether it is due or not. -/
theorem exec_commandReset_times (s t : State) (h : exec .commandReset s = .next t) : t.times = s.times := by
  obtain rfl : whenReady (drained .reset resetNow) s = t := by simpa [exec, execCommandReset] using h
  unfold whenReady drained
  (repeat' split) <;> simp [resetNow_times]

/-- Settles O18: SET_TIMING's step is `exec_setTiming`, and what it stores, answers and leaves are the lemmas about
`takeSetTiming`; the device is CONFIGURING, so no channel state acts on a peer that becomes SILENT. -/
theorem timesAreClamped : Obligations.TimesAreClamped := by
  refine ⟨?stores, ?smallest, exec_setTiming_badLength, exec_setTiming_refused, exec_powerOn_times,
    exec_pinResetAssert_times, exec_commandReset_times⟩
  case stores =>
    intro tag a b c d s ht hc hlaw
    have hchan := chan_of_configuring hlaw hc
    have htimes := takeSetTiming_times tag [a, b, c, d] (Claim.presented .setTiming tag [a, b, c, d] s)
    refine ⟨_, exec_setTiming tag a b c d s ht hc, htimes, ?response, ?peers, ?events, takeSetTiming_end _ _ _ hchan⟩
    case response =>
      rw [htimes]
      exact takeSetTiming_response tag [a, b, c, d] s _ rfl
    case peers =>
      rw [htimes]
      exact takeSetTiming_peers tag [a, b, c, d] (Claim.presented .setTiming tag [a, b, c, d] s) hchan
    case events => exact takeSetTiming_recorded tag [a, b, c, d] (Claim.presented .setTiming tag [a, b, c, d] s) hchan
  case smallest =>
    intro tag s ht hc
    exact ⟨_, exec_setTiming tag 0 0 0 0 s ht hc, (takeSetTiming_times ..).trans (by decide)⟩

end Sys2Proof.Machine
end

section
/-! PROOFS. A submission while the header shows PENDING (R171): it records its COMMAND_OVERRUN event, and what recording an
event does to the queue and its counters (R177, R178). -/

namespace Sys2Proof.Machine

open Sys2Proof

/-- Recording an event changes of the part only the event queue, its counters and ALERT. -/
theorem recordEvent_frame (b : EventBody) (s : State) :
    recordEvent b s = { s with cmu := s.cmu.withEvents (recordEvent b s).cmu } :=
  congrArg (fun c : Cmu => { s with cmu := c }) (recordEvent_cmu b s)

/-- With room in the queue the record is appended, with its sequence number, time and vote cycle, and none is counted as
dropped (R177). -/
theorem recordEvent_of_room (b : EventBody) (s : State) (h : s.cmu.events.length < 64) :
    (recordEvent b s).cmu.events = s.cmu.events ++ [⟨s.cmu.nextSeq, s.cmu.ms, voteCycle s, b⟩] ∧
      (recordEvent b s).cmu.dropped = s.cmu.dropped := by
  simp [recordEvent, Cmu.record, Config.eventMax, h]

/-- A full queue drops the event and counts it, up to 65535 (R178). -/
theorem recordEvent_of_full (b : EventBody) (s : State) (h : 64 ≤ s.cmu.events.length) :
    (recordEvent b s).cmu.events = s.cmu.events ∧
      (recordEvent b s).cmu.dropped = if s.cmu.dropped < 65535 then s.cmu.dropped + 1 else s.cmu.dropped := by
  have hcmu : (recordEvent b s).cmu =
      { s.cmu with nextSeq := s.cmu.nextSeq + 1, dropped := satInc 65535 s.cmu.dropped } :=
    if_neg (Nat.not_lt.2 h)
  rw [hcmu]
  exact ⟨rfl, rfl⟩

/-- In a full queue or not, an event uses the next sequence number (R177). -/
theorem recordEvent_nextSeq (b : EventBody) (s : State) : (recordEvent b s).cmu.nextSeq = s.cmu.nextSeq + 1 := by
  simp [recordEvent]

/-- A DATA write of the submit word with a byte enable is answered OKAY and submits (R19). -/
theorem transfer_submitAddr (be : BitVec 4) (data : Word) (s : State) (hr : s.resetLow = false) (hb : be ≠ 0) :
    transfer .data true submitAddr be data s = submit (giveAnswer .data .okay 0 s) := by
  have hword :
      apertureTransfer true submitAddr.toNat Config.requestWords be data s = submit (giveAnswer .data .okay 0 s) := by
    rw [apertureTransfer, if_neg (Nat.lt_irrefl _), if_pos rfl, if_pos ⟨rfl, hb⟩]
  rw [transfer, if_neg (by simp [hr]), if_neg (by decide), if_pos (by decide)]
  exact hword

/-- A submission made while the header shows PENDING records its event and does nothing else (R171). -/
theorem submit_of_pending (s : State) (h : s.cmu.header.status = .pending) : submit s = recordEvent .commandOverrun s :=
  if_pos h

/-- COMMAND_OVERRUN answers the write of the submit word and records its event. -/
theorem exec_commandOverrun (be : BitVec 4) (s : State) (hr : s.resetLow = false) (hb : be ≠ 0)
    (hp : s.cmu.header.status = .pending) :
    exec (.commandOverrun be) s = .next (recordEvent .commandOverrun (giveAnswer .data .okay 0 s)) :=
  congrArg Host.Outcome.next ((transfer_submitAddr be 0 s hr hb).trans (submit_of_pending _ hp))

/-- Settles O12: the step is `exec_commandOverrun`, and what recording the event changes and leaves are the lemmas about
`recordEvent`. -/
theorem overrunIsNotTaken : Obligations.OverrunIsNotTaken := by
  intro be s hr hb hp
  refine ⟨_, exec_commandOverrun be s hr hb hp, ?frame, recordEvent_of_room _ _, recordEvent_of_full _ _⟩
  case frame =>
    have hframe := recordEvent_frame .commandOverrun (giveAnswer .data .okay 0 s)
    rwa [Cmu.withEvents, recordEvent_nextSeq] at hframe

end Sys2Proof.Machine
end

section
/-! PROOFS. SET_ALERT_MASK (R179, R180): the mask that it stores, ALERT under it, how it is refused, and what the resets
make of the mask. -/

namespace Sys2Proof.Machine

open Sys2Proof

/-! ### Answering in the same step -/

/-- A command that answers without an end of step changes nothing beyond its response and what its own effect has
changed. -/
theorem respond_eq_withResponse (st : Status) (d : Nat) (tag : Byte) (ws : List Word) (u : State) :
    respond st d tag ws u = Claim.withResponse (respond st d tag ws u) u :=
  rfl

/-- While INIT_MEMORY runs, a command that R51 does not let through is answered REFUSED_BUSY and does nothing (R169,
step 4). -/
theorem takeCommand_of_busy (cmd : Command) (tag : Byte) (ps : List Word) (s : State)
    (hl : lengthFits cmd ps.length = true) (hi : s.mpu.initOp.isSome = true) (hc : takenInInit cmd = false) :
    takeCommand cmd tag ps s = respond .refusedBusy 0 tag [] { pend s with cmu.buffer := some ⟨cmd, tag, ps⟩ } := by
  unfold takeCommand
  rw [if_neg (by simp [hl]), if_pos ⟨hi, hc⟩]

/-! ### ALERT under a mask -/

/-- The kind codes are 1 to 19, so that every kind has its bit in the mask of 19 (R179). -/
theorem eventKind_sub_one_lt (b : EventBody) : eventKind b - 1 < 19 := by
  cases b <;> simp [eventKind]

/-- ALERT under the mask word of a SET_ALERT_MASK: the queue is full, or holds an event that the word enables or a
PERMIT_DROPPED (R180). -/
theorem alertLevel_setWidth (events : List Record) (w : Word) :
    alertLevel events (w.setWidth 19) =
      (decide (events.length = 64) || events.any (fun r => eventKind r.body == 9 || w.getLsbD (eventKind r.body - 1))) := by
  have hbit : ∀ r : Record, alerts (w.setWidth 19) r.body =
      (eventKind r.body == 9 || w.getLsbD (eventKind r.body - 1)) := by
    intro r
    simp [alerts, eventKind_sub_one_lt]
  simp only [alertLevel, hbit, Config.eventMax]
  rfl

/-! ### The command -/

/-- SET_ALERT_MASK, taken with its one parameter in any device state. -/
theorem exec_setAlertMask (tag : Byte) (w : Word) (s : State) (ht : Claim.takes .setAlertMask s) :
    exec (.setAlertMask tag [w]) s = .next (takeSetAlertMask tag [w] (Claim.presented .setAlertMask tag [w] s)) :=
  congrArg Host.Outcome.next (presentCommand_of_takes .setAlertMask tag [w] s ht rfl rfl)

/-- A mask word with a bit that names no kind is answered BAD_FIELD at word 1 (R179). -/
theorem takeSetAlertMask_of_le (tag : Byte) (w : Word) (s : State) (h : 524288 ≤ w.toNat) :
    takeSetAlertMask tag [w] s = respond .badField 1 tag [] s := by
  have hw : ¬param [w] 1 < 2 ^ 19 := Nat.not_lt.2 h
  rw [takeSetAlertMask, if_pos hw, badField]

/-- Any other mask word is stored whole, ALERT is tested with it at once, and it is echoed (R179, R180). -/
theorem takeSetAlertMask_of_lt (tag : Byte) (w : Word) (s : State) (h : w.toNat < 524288) :
    takeSetAlertMask tag [w] s =
      respond .done 0 tag [w]
        { s with
          cmu := { s.cmu with mask := w.setWidth 19, alert := alertLevel s.cmu.events (w.setWidth 19) } } := by
  have hp : param [w] 1 = w.toNat := rfl
  have hw : ¬¬w.toNat < 2 ^ 19 := not_not.2 h
  rw [takeSetAlertMask, hp, if_neg hw, BitVec.ofNat_toNat, BitVec.ofNat_toNat, BitVec.setWidth_eq]
  rfl

/-- While INIT_MEMORY runs SET_ALERT_MASK is answered REFUSED_BUSY and leaves the mask (R51). -/
theorem exec_setAlertMask_busy (tag : Byte) (w : Word) (s : State) (hr : s.resetLow = false)
    (hp : s.cmu.header.status ≠ .pending) (hi : s.mpu.initOp.isSome = true) :
    ∃ t, exec (.setAlertMask tag [w]) s = .next t ∧ t.cmu.mask = s.cmu.mask ∧
      Claim.response .refusedBusy 0 tag [] s t :=
  ⟨_, congrArg Host.Outcome.next ((presentCommand_of_fits .setAlertMask tag [w] s hr hp (by simp)).trans
    (takeCommand_of_busy _ _ _ _ rfl hi rfl)), rfl, response_respond _ _ _ _ _ _ rfl⟩

/-! ### The resets -/

/-- Power-on enables every kind, with RESET_N low as well (R179). -/
theorem exec_powerOn_mask (p : BitVec 2) (content : List (Nat × StoredWord)) (s : State) :
    ∃ t, exec (.powerOn p content) s = .next t ∧ t.cmu.mask = BitVec.allOnes 19 := by
  refine ⟨_, rfl, ?_⟩
  split <;> rfl

/-- A pin reset enables every kind (R179). -/
theorem exec_pinResetAssert_mask (cut : Option Cut) (s : State) :
    ∃ t, exec (.pinResetAssert cut) s = .next t ∧ t.cmu.mask = BitVec.allOnes 19 :=
  ⟨_, rfl, rfl⟩

/-- A command reset leaves the mask as it is (R179). -/
theorem resetNow_mask (f : CmdFrame) (s : State) : (resetNow f s).cmu.mask = s.cmu.mask := by
  simp [resetNow, done, resetBlocks]

/-- Nor does the step of a command reset change it, whether it is due or not. -/
theorem exec_commandReset_mask (s t : State) (h : exec .commandReset s = .next t) : t.cmu.mask = s.cmu.mask := by
  obtain rfl : whenReady (drained .reset resetNow) s = t := by simpa [exec, execCommandReset] using h
  unfold whenReady drained
  (repeat' split) <;> simp [resetNow_mask]

/-- Settles O21: SET_ALERT_MASK's step is `exec_setAlertMask`, and the two mask words that it tells apart are the lemmas
about `takeSetAlertMask`; both answer at once, so nothing but the response changes beside the mask and ALERT. -/
theorem alertMaskIsReplaced : Obligations.AlertMaskIsReplaced := by
  refine ⟨fun tag w s ht => ⟨?refuses, ?stores⟩, exec_setAlertMask_busy, exec_powerOn_mask, exec_pinResetAssert_mask,
    exec_commandReset_mask⟩
  case refuses =>
    intro hw
    refine ⟨_, exec_setAlertMask tag w s ht, ?_⟩
    rw [takeSetAlertMask_of_le tag w _ hw]
    exact ⟨respond_eq_withResponse .., response_respond _ _ _ _ _ _ rfl⟩
  case stores =>
    intro hw
    refine ⟨_, exec_setAlertMask tag w s ht, ?_⟩
    rw [takeSetAlertMask_of_lt tag w _ hw, alertLevel_setWidth]
    exact ⟨respond_eq_withResponse .., response_respond _ _ _ _ _ _ rfl⟩

end Sys2Proof.Machine
end

section
/-! PROOFS. The laws of the records that every operation keeps by itself, whatever state it starts in: `Kept s t` says that each
of them stands in `t` if it stood in `s`. One lemma for each operation carries `Kept s` over it, so that the invariants of the
array, the queues, the journal and the records are read off one walk over the operations. -/

namespace Sys2Proof.Machine

open Sys2Proof

/-- Every law that the operations keep one by one has come from `s` to `t`. -/
structure Kept (s t : State) : Prop where
  array : arrayLaw s = true → arrayLaw t = true
  event : eventLaw s = true → eventLaw t = true
  alert : alertLaw s = true → alertLaw t = true
  queue : queueLaw s = true → queueLaw t = true
  held : heldLaw s = true → heldLaw t = true
  journal : journalLaw s = true → journalLaw t = true
  revert : journalLaw s = true → revertLaw s = true → revertLaw t = true
  credit : creditLaw s = true → creditLaw t = true
  pull : pullLaw s = true → pullLaw t = true
  transmit : (∀ l, transmitLaw (s.lkc.tx.get l) = true) → ∀ l, transmitLaw (t.lkc.tx.get l) = true
  signature : signatureLaw s = true → signatureLaw t = true
  table : tableLaw s = true → tableLaw t = true
  region : tableLaw s = true → regionLaw s = true → regionLaw t = true

/-- The fields that the laws of `Kept` look at. -/
def lawView (s : State) :=
  (s.mpu.mem, s.cmu.events, s.cmu.dropped, s.cmu.mask, s.cmu.alert, s.pwq, s.ppt.held, s.cju.journal, s.cju.wCur,
    s.cju.unrevertible, s.rse.service.credits, s.rse.pull.buffers, s.rse.pull.attempts, s.lkc.tx, s.sgu, s.ptu.acc,
    s.rgt.entries, s.dev)

/-! ### The table -/

/-- The law of the table looks at the indices and the descriptors only. -/
theorem tableLaw_congr {s t : State}
    (h : t.rgt.entries.map (fun e => (e.1, e.2.desc)) = s.rgt.entries.map (fun e => (e.1, e.2.desc))) :
    tableLaw t = tableLaw s := by
  have rising : ∀ (l : List (Nat × Region)) (low : Nat),
      assocRising low l = assocRising low (l.map (fun e => (e.1, e.2.desc))) := by
    intro l
    induction l with
    | nil => intro _; rfl
    | cons e l ih => intro low; simp [assocRising, ih]
  have all : ∀ l : List (Nat × Region), l.all (fun e => e.1 < Config.regions && descriptorFits e.2.desc) =
      (l.map (fun e => (e.1, e.2.desc))).all (fun e => e.1 < Config.regions && descriptorFits e.2) := by
    intro l; simp [List.all_map, Function.comp_def]
  have descs : ∀ l : List (Nat × Region), l.map (fun e => e.2.desc) =
      (l.map (fun e => (e.1, e.2.desc))).map Prod.snd := by
    intro l; simp [Function.comp_def]
  unfold tableLaw
  rw [rising t.rgt.entries, rising s.rgt.entries, all t.rgt.entries, all s.rgt.entries, descs t.rgt.entries,
    descs s.rgt.entries, h]

theorem regionLaw_iff (s : State) :
    regionLaw s = true ↔ ∀ e ∈ s.rgt.entries, e.2.state ≠ .normal → e.2.desc.signed = true ∧ s.dev ≠ .configuring := by
  simp only [regionLaw, List.all_eq_true, Region.suspect, Bool.or_eq_true, Bool.and_eq_true, Bool.not_eq_true',
    bne_iff_ne, bne_eq_false_iff_eq, ne_eq]
  exact forall₂_congr fun e _ => ⟨fun h hn => h.resolve_left hn, fun h => Classical.or_iff_not_imp_left.2 h⟩

/-- Regions that keep index and descriptor keep the table's law. -/
theorem map_modify_desc (l : List (Nat × Region)) (index : Nat) (f : Region → Region) (hf : ∀ r, (f r).desc = r.desc) :
    (assocModify l index f).map (fun e => (e.1, e.2.desc)) = l.map (fun e => (e.1, e.2.desc)) := by
  simp only [assocModify, List.map_map]
  exact List.map_congr_left fun e _ => by by_cases h : e.1 = index <;> simp [h, hf]

/-- In a rising list an entry is the one found under its key. -/
theorem assocFind_of_mem {α : Type} (l : List (Nat × α)) (low : Nat) (hl : assocRising low l = true) (e : Nat × α)
    (he : e ∈ l) : assocFind l e.1 = some e.2 := by
  induction l generalizing low with
  | nil => cases he
  | cons x l ih =>
    obtain ⟨k, v⟩ := x
    simp only [assocRising, Bool.and_eq_true, decide_eq_true_eq] at hl
    rcases List.mem_cons.1 he with rfl | he
    · simp [assocFind]
    · have found := ih _ hl.2 he
      have hne : k ≠ e.1 := by
        intro hk
        rw [assocFind_below l (k + 1) e.1 hl.2 (by omega)] at found
        cases found
      simp [assocFind, hne, ih _ hl.2 he]

/-- What a lookup finds is in the list. -/
theorem mem_of_assocFind {α : Type} (l : List (Nat × α)) (a : Nat) (v : α) (h : assocFind l a = some v) : (a, v) ∈ l := by
  induction l with
  | nil => cases h
  | cons x l ih =>
    obtain ⟨k, w⟩ := x
    unfold assocFind at h
    split at h
    · simp_all
    · exact List.mem_cons_of_mem _ (ih h)

theorem assocErase_eq_filter {α : Type} (l : List (Nat × α)) (a : Nat) : assocErase l a = l.filter (fun e => e.1 != a) := by
  induction l with
  | nil => rfl
  | cons x l ih =>
    obtain ⟨k, v⟩ := x
    by_cases h : k = a <;> simp [assocErase, h, ih]

/-- An insertion under a new key puts one entry in among the others. -/
theorem assocInsert_perm {α : Type} (l : List (Nat × α)) (a : Nat) (v : α) (h : ∀ e ∈ l, e.1 ≠ a) :
    (assocInsert l a v).Perm ((a, v) :: l) := by
  induction l with
  | nil => exact .refl _
  | cons x l ih =>
    obtain ⟨k, w⟩ := x
    have hk : k ≠ a := h (k, w) (by simp)
    unfold assocInsert
    split
    · exact .refl _
    · rw [if_neg (fun e => hk e.symm)]
      exact ((ih fun e he => h e (by simp [he])).cons _).trans (.swap _ _ _)

theorem descriptorsApart_symm (d e : Descriptor) (h : descriptorsApart d e = true) : descriptorsApart e d = true := by
  simp only [descriptorsApart, Descriptor.overlaps, Bool.and_eq_true, Bool.not_eq_true', Bool.and_eq_false_iff,
    decide_eq_false_iff_not, beq_eq_false_iff_ne, ne_eq] at h ⊢
  obtain ⟨h1, h2⟩ := h
  refine ⟨h1.symm, ?_⟩
  rcases h2 with (h | h) | h
  · exact Or.inl (Or.inr h)
  · exact Or.inl (Or.inl h)
  · exact Or.inr fun e => h e.symm

theorem tableLaw_iff (s : State) :
    tableLaw s = true ↔ assocRising 0 s.rgt.entries = true ∧
      (∀ e ∈ s.rgt.entries, e.1 < Config.regions ∧ descriptorFits e.2.desc = true) ∧
      s.rgt.entries.Pairwise (fun d e => descriptorsApart d.2.desc e.2.desc = true) := by
  simp only [tableLaw, Bool.and_eq_true, List.all_eq_true, decide_eq_true_eq, List.pairwise_map, and_assoc]

theorem tableLaw_erase (s : State) (index : Nat) (h : tableLaw s = true) :
    tableLaw { s with rgt.entries := assocErase s.rgt.entries index } = true := by
  rw [tableLaw_iff] at h ⊢
  obtain ⟨rising, fits, apart⟩ := h
  refine ⟨assocRising_erase _ _ _ rising, fun e he => fits e (mem_assocErase _ _ _ he), ?_⟩
  simp only [assocErase_eq_filter]
  exact apart.filter _

/-- What the checks of R6 leave of a LOAD_REGION that passes them. -/
theorem fits_of_regionFault (entries : List (Nat × Region)) (ps : List Word) (h : regionFault entries ps = none) :
    param ps 1 < Config.regions ∧ descriptorFits (descriptorOf ps) = true ∧
      ∀ e ∈ entries, e.1 ≠ param ps 1 → descriptorsApart e.2.desc (descriptorOf ps) = true := by
  have passes : ∀ (c : Prop) [Decidable c] (n : Nat) (rest : Option Nat),
      (if c then some n else rest) = none ↔ ¬c ∧ rest = none := by
    intro c _ n rest
    by_cases hc : c <;> simp [hc]
  simp only [regionFault, passes, Decidable.not_not, Bool.not_eq_false, Bool.not_eq_true, List.any_eq_false,
    List.mem_filter, bne_iff_ne, and_imp] at h
  obtain ⟨index, kind, first, count, overlap, rights, slot, base, mult, flag, -⟩ := h
  refine ⟨index, ?_, fun e he hne => ?_⟩
  · simp only [descriptorFits, first, count, rights, base, mult, decide_true, Bool.true_and]
    split at slot <;> simp_all
  · simp only [descriptorsApart, overlap e he hne, Bool.not_false, Bool.true_and, Bool.not_eq_true',
      Bool.and_eq_false_iff, beq_eq_false_iff_ne]
    by_cases hd : (descriptorOf ps).signed = true
    · rw [if_pos hd, Bool.and_eq_true, List.all_eq_true] at slot
      have other := slot.2 e (List.mem_filter.2 ⟨he, by simpa using hne⟩)
      simp only [Bool.or_eq_true, Bool.not_eq_true', bne_iff_ne] at other
      exact other.elim (fun h => Or.inl (Or.inl h)) Or.inr
    · exact Or.inl (Or.inr (by simpa using hd))

/-- A descriptor that passes the checks of R6 joins the others. -/
theorem tableLaw_insert (s : State) (ps : List Word) (h : tableLaw s = true)
    (hf : regionFault s.rgt.entries ps = none) :
    tableLaw
      { s with
        rgt.entries := assocInsert (assocErase s.rgt.entries (param ps 1)) (param ps 1) ⟨descriptorOf ps, .normal, 0, 0⟩ } =
      true := by
  obtain ⟨index, new, away⟩ := fits_of_regionFault _ _ hf
  rw [tableLaw_iff] at h ⊢
  obtain ⟨rising, fits, apart⟩ := h
  have others : ∀ e ∈ assocErase s.rgt.entries (param ps 1), e ∈ s.rgt.entries ∧ e.1 ≠ param ps 1 := by
    intro e he
    rw [assocErase_eq_filter, List.mem_filter] at he
    exact ⟨he.1, by simpa using he.2⟩
  refine ⟨assocRising_insert _ _ _ _ (Nat.zero_le _) (assocRising_erase _ _ _ rising), fun e he => ?_, ?_⟩
  · rcases mem_assocInsert _ _ _ _ he with rfl | he
    · exact ⟨index, new⟩
    · exact fits e (others e he).1
  · refine ((assocInsert_perm _ _ _ fun e he => (others e he).2).pairwise_iff
      fun {_ _} => descriptorsApart_symm _ _).2 (List.pairwise_cons.2 ⟨fun e he => ?_, ?_⟩)
    · exact descriptorsApart_symm _ _ (away e (others e he).1 (others e he).2)
    · simp only [assocErase_eq_filter]
      exact apart.filter _

namespace Kept

variable {s t u : State}

theorem refl (s : State) : Kept s s :=
  ⟨id, id, id, id, id, id, fun _ h => h, id, id, id, id, id, fun _ h => h⟩

theorem trans (h : Kept s t) (k : Kept t u) : Kept s u :=
  ⟨k.array ∘ h.array, k.event ∘ h.event, k.alert ∘ h.alert, k.queue ∘ h.queue, k.held ∘ h.held, k.journal ∘ h.journal,
    fun a b => k.revert (h.journal a) (h.revert a b), k.credit ∘ h.credit, k.pull ∘ h.pull, k.transmit ∘ h.transmit,
    k.signature ∘ h.signature, k.table ∘ h.table, fun a b => k.region (h.table a) (h.region a b)⟩

/-! ### Updates -/

/-- A step that leaves the fields of the laws. -/
theorem quiet (h : Kept s t) (q : lawView u = lawView t) : Kept s u := by
  simp only [lawView, Prod.mk.injEq] at q
  obtain ⟨h1, h2, h3, h4, h5, h6, h7, h8, h9, h10, h11, h12, h13, h14, h15, h16, h17, h18⟩ := q
  refine h.trans ?_
  constructor <;>
    simp only [arrayLaw, eventLaw, alertLaw, queueLaw, heldLaw, journalLaw, revertLaw, creditLaw, pullLaw, signatureLaw,
      tableLaw, regionLaw, h1, h2, h3, h4, h5, h6, h7, h8, h9, h10, h11, h12, h13, h14, h15, h16, h17, h18, imp_self,
      implies_true]

theorem mem (h : Kept s t) (m : List (Nat × StoredWord)) (hm : Memory.wf t.mpu.mem = true → Memory.wf m = true) :
    Kept s { t with mpu.mem := m } :=
  h.trans { refl t with array := hm }

theorem cju (h : Kept s t) (c : Cju) (hj : journalLaw t = true → journalLaw { t with cju := c } = true)
    (hr : journalLaw t = true → revertLaw t = true → revertLaw { t with cju := c } = true) : Kept s { t with cju := c } :=
  h.trans { refl t with journal := hj, revert := hr }

theorem emptied (h : Kept s t) (c : Cju) (hj : c.journal = []) (hw : c.wCur = []) : Kept s { t with cju := c } :=
  h.cju c (fun _ => by simp [journalLaw, hj]) (fun _ _ => by simp [revertLaw, hw])

theorem modifyTx (h : Kept s t) (l : Link) (f : Transmitter → Transmitter)
    (hf : transmitLaw (t.lkc.tx.get l) = true → transmitLaw (f (t.lkc.tx.get l)) = true) :
    Kept s (Machine.modifyTx l f t) :=
  h.trans
    { refl t with
      transmit := fun ht m => by
        simp only [Machine.modifyTx, PerLink.get_put]
        split
        · exact hf (ht l)
        · exact ht m }

theorem sigs (h : Kept s t) (l : List Nat)
    (hl : t.sgu.sigs.length = Config.sigSlots → (∀ v ∈ t.sgu.sigs, v < Config.p) →
      l.length = Config.sigSlots ∧ ∀ v ∈ l, v < Config.p) : Kept s { t with sgu.sigs := l } :=
  h.trans
    { refl t with
      signature := fun hs => by
        simp only [signatureLaw, Bool.and_eq_true, beq_iff_eq, List.all_eq_true, decide_eq_true_eq] at hs ⊢
        obtain ⟨⟨⟨h1, h2⟩, h3⟩, h4⟩ := hs
        exact ⟨⟨hl h1 h2, h3⟩, h4⟩ }

theorem ptu (h : Kept s t) (p : Ptu) (hp : t.ptu.acc < Config.p → p.acc < Config.p) : Kept s { t with ptu := p } :=
  h.trans
    { refl t with
      signature := fun hs => by
        simp only [signatureLaw, Bool.and_eq_true, decide_eq_true_eq] at hs ⊢
        exact ⟨⟨hs.1.1, hp hs.1.2⟩, hs.2⟩ }

theorem pass (h : Kept s t) (o : Option SigningPass) (ho : ∀ p, o = some p → p.sum < Config.p) :
    Kept s { t with sgu.pass := o } :=
  h.trans
    { refl t with
      signature := fun hs => by
        simp only [signatureLaw, Bool.and_eq_true, decide_eq_true_eq] at hs ⊢
        refine ⟨hs.1, ?_⟩
        cases o with
        | none => rfl
        | some p => exact decide_eq_true (ho p rfl) }

theorem pullRecord (h : Kept s t) (p : Pull)
    (hp : pullLaw t = true → pullLaw { t with rse.pull := p } = true) : Kept s { t with rse.pull := p } :=
  h.trans { refl t with pull := hp }

theorem service (h : Kept s t) (r : Service)
    (hr : t.rse.service.credits ≤ Config.creditMax → r.credits ≤ Config.creditMax) : Kept s { t with rse.service := r } :=
  h.trans { refl t with credit := fun hc => decide_eq_true (hr (of_decide_eq_true hc)) }

/-- Changes of the regions' states and counts. -/
theorem regions (h : Kept s t) (es : List (Nat × Region))
    (hd : es.map (fun e => (e.1, e.2.desc)) = t.rgt.entries.map (fun e => (e.1, e.2.desc)))
    (hr : tableLaw t = true → regionLaw t = true → regionLaw { t with rgt.entries := es } = true) :
    Kept s { t with rgt.entries := es } :=
  h.trans
    { refl t with
      table := fun ht => (tableLaw_congr (s := t) (t := { t with rgt.entries := es }) hd).trans ht
      region := hr }

end Kept
end Sys2Proof.Machine
end

section
/-! PROOFS. The walk over the operations, in the order of the model: each keeps the laws of `Kept`. -/

namespace Sys2Proof.Machine

open Sys2Proof

/-! ### Arithmetic of the signatures -/

theorem p_pos : 0 < Config.p := by decide

theorem mod_p_lt (n : Nat) : n % Config.p < Config.p := Nat.mod_lt _ p_pos

theorem satInc_le (max n : Nat) (h : n ≤ max) : satInc max n ≤ max := by
  unfold satInc
  split <;> omega

/-! ### Events -/

theorem eventLaw_iff (s : State) :
    eventLaw s = true ↔ s.cmu.events.length ≤ Config.eventMax ∧ s.cmu.dropped ≤ Config.count16Max := by
  simp [eventLaw]

/-- A repeat count does not move ALERT: the record stays an ACCESS_REFUSED. -/
theorem alertLevel_repeat (rs : List Record) (r : Record) (b : EventBody) (mask : BitVec 19)
    (hr : rs.getLast? = some r) (hb : eventKind b = eventKind r.body) :
    alertLevel (rs.dropLast ++ [{ r with body := b }]) mask = alertLevel rs mask := by
  obtain ⟨init, rfl⟩ := List.getLast?_eq_some_iff.1 hr
  simp [alertLevel, alerts, hb]

theorem length_repeat (rs : List Record) (r r' : Record) (hr : rs.getLast? = some r) :
    (rs.dropLast ++ [r']).length = rs.length := by
  obtain ⟨init, rfl⟩ := List.getLast?_eq_some_iff.1 hr
  simp

theorem eventKind_repeated {reason : AccessReason} {ini : Initiator} {region : Option Nat} {b c : EventBody}
    (h : repeated reason ini region b = some c) : eventKind c = eventKind b := by
  unfold repeated at h
  split at h
  · split at h
    · cases h; rfl
    · cases h
  · cases h

namespace Kept

variable {s t : State}

theorem recordEvent (h : Kept s t) (b : EventBody) : Kept s (recordEvent b t) :=
  h.trans
    { refl t with
      event := by
        rw [eventLaw_iff, eventLaw_iff]
        rintro ⟨he, hd⟩
        unfold Machine.recordEvent Cmu.record
        split
        · simp only [Cmu.retest, List.length_append, List.length_singleton]
          exact ⟨by omega, hd⟩
        · exact ⟨he, satInc_le _ _ hd⟩
      alert := by
        simp only [alertLaw, Machine.recordEvent, Cmu.record, beq_iff_eq]
        intro ha
        split
        · rfl
        · exact ha }

theorem recordRefusal (h : Kept s t) (r : AccessReason) (i : Initiator) (a : Nat) (g : Option Nat) :
    Kept s (recordRefusal r i a g t) := by
  unfold Machine.recordRefusal
  split
  · rename_i last hl
    split
    · rename_i b hb
      refine h.trans { refl t with event := ?_, alert := ?_ }
      · simp only [eventLaw, length_repeat _ _ _ hl]
        exact id
      · simp only [alertLaw, alertLevel_repeat _ _ _ _ hl (eventKind_repeated hb)]
        exact id
    · exact h.recordEvent _
  · exact h.recordEvent _

theorem dropPermit (h : Kept s t) (c : PermitCause) : Kept s (dropPermit c t) := by
  unfold Machine.dropPermit
  split
  · exact (h.quiet (by rfl)).recordEvent _
  · exact h

theorem raisePermit (h : Kept s t) : Kept s (raisePermit t) := by
  unfold Machine.raisePermit
  split
  · exact h
  · exact h.quiet (by rfl)

/-! ### Transmit queues and the states that every peer hears of -/

end Kept

theorem mem_ctrlKinds_queueCtrl (f : CtrlFrame) (l : List CtrlFrame) (k : Nat) :
    k ∈ (queueCtrl f l).map ctrlKind ↔ k = ctrlKind f ∨ k ∈ l.map ctrlKind := by
  have merged : ∀ g : CtrlFrame, ctrlKind g = ctrlKind f → ctrlKind (mergeCtrl g f) = ctrlKind f := by
    intro g hg
    unfold mergeCtrl
    split
    · rfl
    · rfl
  induction l with
  | nil => simp [queueCtrl]
  | cons g l ih =>
    by_cases hg : ctrlKind g = ctrlKind f
    · simp [queueCtrl, hg, merged g hg]
    · simp only [queueCtrl, if_neg hg, List.map_cons, List.mem_cons, ih]
      tauto

theorem nodup_queueCtrl (f : CtrlFrame) (l : List CtrlFrame) (h : (l.map ctrlKind).Nodup) :
    ((queueCtrl f l).map ctrlKind).Nodup := by
  induction l with
  | nil => simp [queueCtrl]
  | cons g l ih =>
    simp only [List.map_cons, List.nodup_cons] at h
    by_cases hg : ctrlKind g = ctrlKind f
    · have hm : ctrlKind (mergeCtrl g f) = ctrlKind g := by
        rw [hg]
        unfold mergeCtrl
        split <;> rfl
      simpa [queueCtrl, hg, hm] using h
    · simp only [queueCtrl, if_neg hg, List.map_cons, List.nodup_cons, mem_ctrlKinds_queueCtrl]
      exact ⟨fun hk => hk.elim hg h.1, ih h.2⟩

theorem transmitLaw_iff (x : Transmitter) :
    transmitLaw x = true ↔ (x.ctrl.map ctrlKind).Nodup ∧ x.blocks.length ≤ Config.creditMax := by
  simp [transmitLaw]

theorem transmitLaw_beginFrame (s : State) (x : Transmitter) (h : transmitLaw x = true) :
    transmitLaw (beginFrame s x) = true := by
  rw [transmitLaw_iff] at h ⊢
  unfold beginFrame
  (repeat' split)
  · exact h
  · simp_all
  · simp_all; omega
  · exact h

namespace Kept

variable {s t : State}

theorem sendCtrl (h : Kept s t) (f : CtrlFrame) (l : Link) : Kept s (sendCtrl f l t) := by
  unfold Machine.sendCtrl
  split
  · exact h
  · refine h.modifyTx l _ fun hx => ?_
    rw [transmitLaw_iff] at hx ⊢
    exact ⟨nodup_queueCtrl f _ hx.1, hx.2⟩

theorem sendBoth (h : Kept s t) (f : CtrlFrame) : Kept s (sendBoth f t) := (h.sendCtrl f .one).sendCtrl f .two

theorem helloTrigger (h : Kept s t) : Kept s (helloTrigger t) := h.sendBoth .hello

/-- Outside a reset the device state moves on, and a SUSPECT region may stand in every state it moves to. -/
theorem setDev (h : Kept s t) (d : DeviceState) (hd : d ≠ .configuring) : Kept s (setDev d t) := by
  unfold Machine.setDev
  split
  · exact h
  · have moved : Kept t { t with dev := d } :=
      { refl t with
        region := fun _ hr => by
          rw [regionLaw_iff] at hr ⊢
          exact fun e he hn => ⟨(hr e he hn).1, hd⟩ }
    exact (h.trans moved).helloTrigger

theorem setChan (h : Kept s t) (c : Option ChannelState) : Kept s (setChan c t) := by
  unfold Machine.setChan
  simp only []
  (repeat' split)
  · exact h
  · exact (h.quiet (by rfl)).helloTrigger
  · exact (h.quiet (by rfl)).helloTrigger.dropPermit _

theorem setAgreed (h : Kept s t) (b : Bool) : Kept s (setAgreed b t) := by
  unfold Machine.setAgreed
  split
  · exact h
  · exact (h.quiet (by rfl)).helloTrigger

theorem emptyJournal (h : Kept s t) : Kept s (emptyJournal t) := h.emptied _ rfl rfl

theorem enterReady (h : Kept s t) : Kept s (enterReady t) := h.emptyJournal.setChan _

/-! ### Regions, signatures and the array -/

/-- A change of a region that keeps its descriptor and its state. -/
theorem modifyCounts (h : Kept s t) (index : Nat) (f : Region → Region) (hd : ∀ r, (f r).desc = r.desc)
    (hs : ∀ r, (f r).state = r.state) : Kept s (modifyRegion index f t) := by
  refine h.regions _ (map_modify_desc _ _ _ hd) fun _ hr => ?_
  rw [regionLaw_iff] at hr ⊢
  simp only [assocModify, List.mem_map, forall_exists_index, and_imp, forall_apply_eq_imp_iff₂]
  intro e he
  by_cases hi : e.1 = index
  · simpa [hi, hd, hs] using hr e he
  · simpa [hi] using hr e he

theorem countCorrected (h : Kept s t) (index : Nat) : Kept s (countCorrected index t) :=
  h.modifyCounts index _ (fun _ => rfl) fun _ => rfl

theorem countUncorrectable (h : Kept s t) (index : Nat) : Kept s (countUncorrectable index t) :=
  h.modifyCounts index _ (fun _ => rfl) fun _ => rfl

theorem setSig (h : Kept s t) (slot v : Nat) (hv : v < Config.p) : Kept s (setSig slot v t) :=
  h.sigs _ fun hl hp => ⟨by simpa using hl, fun w hw => (List.mem_or_eq_of_mem_set hw).elim (hp w) (· ▸ hv)⟩

theorem accountWrite (h : Kept s t) (a : Nat) (old new : Word) : Kept s (accountWrite a old new t) := by
  unfold Machine.accountWrite
  split
  · simp only []
    split
    · refine (h.ptu _ fun hp => ?_).setSig _ _ (mod_p_lt _)
      dsimp only
      split
      · exact mod_p_lt _
      · exact hp
    · exact h
  · exact h

theorem storeWord (h : Kept s t) (a : Nat) (v : Word) : Kept s (storeWord a v t) := h.mem _ (Memory.wf_put _ _ _)

theorem writeWord (h : Kept s t) (a : Nat) (old new : Word) : Kept s (writeWord a old new t) :=
  (h.storeWord a new).accountWrite a old new

/-! ### Findings -/

/-- The called state goes to a signed region outside CONFIGURING. -/
theorem markSuspect (h : Kept s t) (index : Nat) (located : Bool) : Kept s (markSuspect index located t) := by
  unfold Machine.markSuspect
  split
  · exact h
  · rename_i hc
    split
    · rename_i r hf
      split
      · rename_i hs
        refine (h.regions (assocModify t.rgt.entries index fun r => { r with state := calledState located r.state })
          (map_modify_desc _ _ _ fun _ => rfl) fun ht hr => ?_).quiet (by rfl)
        rw [regionLaw_iff] at hr ⊢
        simp only [assocModify, List.mem_map, forall_exists_index, and_imp, forall_apply_eq_imp_iff₂]
        intro e he
        by_cases hi : e.1 = index
        · have found := assocFind_of_mem _ _ ((tableLaw_iff _).1 ht).1 e he
          rw [hi, hf] at found
          cases found
          simp [hi, hs, hc]
        · simpa [hi] using hr e he
      · exact h
    · exact h

theorem suspectPermit (h : Kept s t) (index : Nat) : Kept s (suspectPermit index t) := by
  unfold Machine.suspectPermit
  (repeat' split)
  · exact h.dropPermit _
  · exact h
  · exact h

theorem offerRepair (h : Kept s t) (index a : Nat) : Kept s (offerRepair index a t) := by
  unfold Machine.offerRepair
  simp only []
  (repeat' split)
  · exact (h.markSuspect _ _).suspectPermit _
  · exact ((h.quiet (by rfl)).markSuspect _ _).suspectPermit _
  · exact ((h.quiet (by rfl)).markSuspect _ _).suspectPermit _
  · exact (((h.quiet (by rfl)).markSuspect _ _).recordEvent _).suspectPermit _

theorem damaged (h : Kept s t) (index : Nat) (k : RegionKind) (a : Nat) : Kept s (damaged index k a t) := by
  unfold Machine.damaged
  (repeat' split)
  · exact h
  · exact h.offerRepair _ _
  · exact (h.markSuspect _ _).suspectPermit _
  · exact h

theorem findUncorrectable (h : Kept s t) (ini : Option Initiator) (a : Nat) : Kept s (findUncorrectable ini a t) := by
  unfold Machine.findUncorrectable
  split
  · exact ((h.countUncorrectable _).recordEvent _).damaged _ _ _
  · exact h.recordEvent _

theorem findInPass (h : Kept s t) (a : Nat) : Kept s (findInPass a t) := by
  unfold Machine.findInPass
  split
  · exact (((h.countUncorrectable _).recordEvent _).markSuspect _ _).suspectPermit _
  · exact h

theorem findOverwritten (h : Kept s t) (a : Nat) : Kept s (findOverwritten a t) := by
  unfold Machine.findOverwritten
  (repeat' split)
  · exact ((h.recordEvent _).markSuspect _ _).suspectPermit _
  · exact h
  · exact h

/-! ### Block grants -/

/-- A fold of operations that each keep the laws. -/
theorem foldl {α : Type} (f : State → α → State) (hf : ∀ u a, Kept s u → Kept s (f u a)) (l : List α) (h : Kept s t) :
    Kept s (l.foldl f t) := by
  induction l generalizing t with
  | nil => exact h
  | cons a l ih => exact ih (hf t a h)

theorem scrubWord (h : Kept s t) (found : Nat → State → State) (hf : ∀ a u, Kept s u → Kept s (found a u)) (a : Nat) :
    Kept s (scrubWord found a t) := by
  unfold Machine.scrubWord
  simp only []
  (repeat' split)
  · exact h
  · exact (h.storeWord _ _).countCorrected _
  · exact h.storeWord _ _
  · exact hf _ _ h

theorem scrubBlock (h : Kept s t) (found : Nat → State → State) (hf : ∀ a u, Kept s u → Kept s (found a u)) (b : Nat) :
    Kept s (scrubBlock found b t) := h.foldl _ (fun _ _ hu => hu.scrubWord found hf _) _

theorem overwriteWord (h : Kept s t) (a : Nat) (v : Word) : Kept s (overwriteWord a v t) := by
  unfold Machine.overwriteWord
  simp only []
  split
  · exact (h.findOverwritten _).writeWord _ _ _
  · exact h.writeWord _ _ _

theorem overwriteAll (h : Kept s t) (ws : List (Nat × Word)) : Kept s (overwriteAll ws t) :=
  h.foldl _ (fun _ _ hu => hu.overwriteWord _ _) _

end Kept
end Sys2Proof.Machine
end

section
/-! PROOFS. The walk over the operations goes on: the queue and the held transfers, the services, the pulls and the vote. -/

namespace Sys2Proof.Machine

open Sys2Proof

/-! ### The posted-write queue and the held transfers -/

theorem queueLaw_iff (s : State) :
    queueLaw s = true ↔ s.pwq.entries.length ≤ Config.pwqMax ∧
      (s.pwq.hold = true ∨ s.pwq.entries.length < s.pwq.upper) ∧ 4 ≤ s.pwq.upper ∧ s.pwq.upper ≤ Config.pwqMax ∧
      s.pwq.lower < s.pwq.upper := by
  simp [queueLaw, and_assoc]

theorem heldLaw_iff (s : State) :
    heldLaw s = true ↔ ∀ i, s.ppt.held.countP (fun h => h.transfer.ini == i) ≤ 1 := by
  simp only [heldLaw, List.all_eq_true, decide_eq_true_eq]
  exact ⟨fun h i => h i (by cases i <;> simp), fun h i _ => h i⟩

namespace Kept

variable {s t : State}

/-- The held transfers become others, no more of each kind. -/
theorem heldList (h : Kept s t) (l : List Held)
    (hl : (∀ i, t.ppt.held.countP (fun h => h.transfer.ini == i) ≤ 1) → ∀ i, l.countP (fun h => h.transfer.ini == i) ≤ 1) :
    Kept s { t with ppt.held := l } :=
  h.trans { refl t with held := fun ht => (heldLaw_iff _).2 (hl ((heldLaw_iff _).1 ht)) }

theorem giveAnswer (h : Kept s t) (i : Initiator) (r : Resp) (d : Word) : Kept s (giveAnswer i r d t) := h.quiet (by rfl)

theorem lowerHold (h : Kept s t) : Kept s (lowerHold t) := by
  unfold Machine.lowerHold
  split
  · refine h.trans { refl t with queue := fun hq => ?_ }
    rw [queueLaw_iff] at hq ⊢
    exact ⟨hq.1, Or.inr (by dsimp only; omega), hq.2.2⟩
  · exact h

/-- Where the hold flag is clear there is room for one more entry, and the flag rises at U. -/
theorem acceptWrite (h : Kept s t) (x : Transfer) (hc : t.pwq.hold = false) : Kept s (acceptWrite x t) := by
  unfold Machine.acceptWrite
  split
  · exact h
  · split
    · refine h.trans ?_
      unfold raiseHold
      split
      · rename_i hu
        refine { refl t with queue := fun hq => ?_ }
        rw [queueLaw_iff] at hq ⊢
        simp only [hc, Bool.false_eq_true, false_or, List.length_append, List.length_singleton] at hq hu ⊢
        exact ⟨by omega, Or.inl trivial, hq.2.2⟩
      · rename_i hu
        refine { refl t with queue := fun hq => ?_ }
        rw [queueLaw_iff] at hq ⊢
        simp only [hc, Bool.false_eq_true, false_or, List.length_append, List.length_singleton] at hq hu ⊢
        exact ⟨by omega, by omega, hq.2.2⟩
    · exact h

theorem judge (h : Kept s t) (w : Bool) (x : Transfer) : Kept s (judge w x t).1 := by
  unfold Machine.judge
  split
  · exact (h.recordRefusal _ _ _ _).giveAnswer _ _ _
  · (repeat' split)
    · exact h
    · rename_i hc
      exact (h.acceptWrite x (by simpa using hc)).giveAnswer _ _ _
    · exact h
    · exact h
    · exact h

end Kept

theorem countP_heldOf (s : State) (i : Initiator) (h : (heldOf s i).isSome = false) :
    s.ppt.held.countP (fun h => h.transfer.ini == i) = 0 := by
  rw [List.countP_eq_zero]
  simpa [heldOf] using h

/-- A transfer that arrives is the first of its kind. -/
theorem countP_append_held (l : List Held) (x : Held)
    (h : l.countP (fun g => g.transfer.ini == x.transfer.ini) = 0)
    (hl : ∀ i, l.countP (fun g => g.transfer.ini == i) ≤ 1) (i : Initiator) :
    (l ++ [x]).countP (fun g => g.transfer.ini == i) ≤ 1 := by
  rw [List.countP_append]
  by_cases hi : x.transfer.ini = i
  · subst hi
    simp [h]
  · simpa [hi] using hl i

namespace Kept

variable {s t : State}

theorem arrive (h : Kept s t) (x : Transfer) : Kept s (arrive x t) := by
  unfold Machine.arrive
  split
  · exact h
  · rename_i hh
    have none : t.ppt.held.countP (fun g => g.transfer.ini == x.ini) = 0 := countP_heldOf t x.ini (by simpa using hh)
    split
    · exact (h.heldList _ fun hl i => countP_append_held _ ⟨x, .port⟩ none hl i).giveAnswer _ _ _
    · split
      · exact h.judge _ _
      · rename_i k _
        refine ((h.judge _ _).heldList _ fun hl i => ?_).giveAnswer _ _ _
        exact countP_append_held _ ⟨x, k⟩ (by simpa using none) hl i

theorem unhold (h : Kept s t) (i : Initiator) : Kept s (unhold i t) :=
  h.heldList _ fun hl j => (List.filter_sublist.countP_le).trans (hl j)

/-- Transfers that keep their initiator. -/
theorem mapHeld (h : Kept s t) (f : Held → Held) (hf : ∀ g, (f g).transfer = g.transfer) :
    Kept s { t with ppt.held := t.ppt.held.map f } :=
  h.heldList _ fun hl i => by
    rw [List.countP_map]
    simpa only [Function.comp_def, hf] using hl i

theorem rehold (h : Kept s t) (i : Initiator) (k : Hold) : Kept s (rehold i k t) :=
  h.mapHeld _ fun g => by split <;> rfl

theorem releaseOne (h : Kept s t) (x : Held) : Kept s (releaseOne x t) := by
  unfold Machine.releaseOne
  (repeat' split)
  · exact (h.judge _ _).unhold _
  · exact (h.judge _ _).rehold _ _
  · exact h

theorem releaseHeld (h : Kept s t) : Kept s (releaseHeld t) := by
  unfold Machine.releaseHeld
  split
  · exact h
  · exact h.foldl _ (fun _ _ hu => hu.releaseOne _) _

theorem leaveQueue (h : Kept s t) (gone stay : List PwqEntry) (hs : stay.length ≤ t.pwq.entries.length) :
    Kept s (leaveQueue gone stay t) := by
  have left : Kept t { t with pwq.entries := stay } :=
    { refl t with
      queue := fun hq => by
        rw [queueLaw_iff] at hq ⊢
        exact ⟨by dsimp only; omega, hq.2.1.imp id (fun hu => by dsimp only; omega), hq.2.2⟩ }
  refine ((h.trans left).mapHeld (lessHazard gone) fun g => ?_).lowerHold
  unfold lessHazard
  split <;> rfl

theorem dropSigned (h : Kept s t) : Kept s (dropSigned t) := h.leaveQueue _ _ (List.length_filter_le _ _)

/-! ### Services -/

theorem startSend (h : Kept s t) (l : Link) : Kept s (startSend l t) := by
  unfold Machine.startSend
  split
  · exact h
  · exact h.modifyTx l _ (transmitLaw_beginFrame t _)

theorem kick (h : Kept s t) : Kept s (kick t) := (h.startSend .one).startSend .two

theorem endService (h : Kept s t) (r : PullResult) (es : Option (List SigEntry)) : Kept s (endService r es t) := by
  unfold Machine.endService
  split
  · split
    · rename_i l _ _
      have withdrawn := (h.sendCtrl (.pullEnd ⟨r, t.cju.cycle, BitVec.ofNat 32 t.rse.service.sent, es⟩) l).modifyTx l
        (fun x => { x with blocks := [], stale := sendingBlock x }) fun hx => by
          rw [transmitLaw_iff] at hx ⊢
          exact ⟨hx.1, Nat.zero_le _⟩
      exact ((withdrawn.quiet (by rfl)).helloTrigger).recordEvent _
    · exact h
  · exact h

theorem endIfLost (h : Kept s t) : Kept s (endIfLost t) := by
  unfold Machine.endIfLost
  split
  · exact h
  · exact h.endService _ _

theorem reconsiderMarks (h : Kept s t) : Kept s (reconsiderMarks t) := h.quiet (by rfl)

theorem forgetTried (h : Kept s t) : Kept s (forgetTried t) := by
  unfold Machine.forgetTried
  split
  · exact h
  · exact h.quiet (by rfl)

theorem walkEnds (h : Kept s t) : Kept s (walkEnds t) := by
  unfold Machine.walkEnds
  split
  · exact h.quiet (by rfl)
  · exact h

theorem marksReturn (h : Kept s t) : Kept s (marksReturn t) := by
  unfold Machine.marksReturn
  split
  · exact h.quiet (by rfl)
  · exact h

theorem nothingLeft (h : Kept s t) : Kept s (nothingLeft t) := by
  unfold Machine.nothingLeft
  split
  · exact h.quiet (by rfl)
  · exact h

theorem finishService (h : Kept s t) : Kept s (finishService t) := by
  unfold Machine.finishService
  (repeat' split)
  · exact h.endService _ _
  · exact h
  · exact h

theorem creditTimer (h : Kept s t) : Kept s (creditTimer t) := by
  unfold Machine.creditTimer
  split
  · exact h.quiet (by rfl)
  · exact h.quiet (by rfl)

theorem serviceTick (h : Kept s t) : Kept s (serviceTick t) :=
  h.walkEnds.marksReturn.nothingLeft.finishService.creditTimer

theorem settle (h : Kept s t) : Kept s (settle t) := h.releaseHeld.serviceTick.kick

theorem takePull (h : Kept s t) (l : Link) (f : PullFrame) : Kept s (takePull l f t) := by
  unfold Machine.takePull
  split
  · exact (h.sendCtrl _ _).recordEvent _
  · rename_i hr
    refine ((h.service (newService t l f) fun _ => ?_).helloTrigger).recordEvent _
    have fits : f.credits.toNat ≤ Config.creditMax := by
      simp only [pullRefusal] at hr
      (repeat' split at hr) <;> first | contradiction | simp_all
    unfold newService
    split <;> exact fits

theorem takeCredit (h : Kept s t) (l : Link) (n : Byte) : Kept s (takeCredit l n t) := by
  unfold Machine.takeCredit
  split
  · exact h.service _ fun _ => Nat.min_le_left _ _
  · exact h

theorem afterBlock (h : Kept s t) (b : Nat) : Kept s (afterBlock b t) := by
  unfold Machine.afterBlock
  split
  · exact h.quiet (by rfl)
  · exact h.quiet (by rfl)

theorem markWaiting (h : Kept s t) : Kept s (markWaiting t) := h.quiet (by rfl)

theorem sendBlock (h : Kept s t) (b : Nat) (ws : List Word) (room : blockRoom t = true) : Kept s (sendBlock b ws t) := by
  unfold Machine.sendBlock
  split
  · rename_i l hl
    have queued := h.modifyTx l (fun x => { x with blocks := x.blocks ++ [⟨BitVec.ofNat 16 b, t.cju.cycle, ws⟩] })
      fun hx => by
        rw [transmitLaw_iff] at hx ⊢
        simp only [blockRoom, hl, decide_eq_true_eq] at room
        simp only [List.length_append, List.length_singleton]
        exact ⟨hx.1, room⟩
    have counted := queued.service
      { t.rse.service with
        credits := t.rse.service.credits - 1
        sent := satInc Config.count32Max t.rse.service.sent
        tried := setErase t.rse.service.tried b } fun hc => (Nat.sub_le _ _).trans hc
    exact ((counted.quiet (by rfl)).afterBlock b).markWaiting
  · exact h

theorem blockUnavailable (h : Kept s t) (b : Nat) : Kept s (blockUnavailable b t) := by
  unfold Machine.blockUnavailable
  split
  · exact h.endService _ _
  · exact (h.quiet (by rfl)).afterBlock b
  · exact ((h.quiet (by rfl)).afterBlock b).markWaiting

end Kept

/-! ### What the reads of a block leave alone -/

/-- A state without what findings and corrections may change. -/
def unread (s : State) : State :=
  { s with
    rgt.entries := []
    mpu.mem := []
    cju := { s.cju with repair := [], repairOverflow := false }
    ptu.turned := false
    vtu := { s.vtu with permitted := false, level := false }
    rse.pull.clean := 0
    cmu := { s.cmu with events := [], nextSeq := 0, dropped := 0, alert := false } }

theorem unread_findUncorrectable (i : Option Initiator) (a : Nat) (s : State) :
    unread (findUncorrectable i a s) = unread s := by
  have h := findUncorrectable_keeps i a s
  revert h
  generalize findUncorrectable i a s = t
  intro h
  obtain ⟨a1, a2, a3, a4, a5, a6, ⟨e, f⟩, a8, a9, ⟨m, m2, m3, m4, m5⟩, a11, c, p, a14, v, ⟨r, r2⟩, k⟩ := t
  obtain ⟨b1, b2, b3, b4, b5, b6, ⟨e', f'⟩, b8, b9, ⟨m', m2', m3', m4', m5'⟩, b11, c', p', b14, v', ⟨r', r2'⟩, k'⟩ := s
  cases c; cases c'; cases p; cases p'; cases v; cases v'; cases r; cases r'; cases k; cases k'
  simp_all [unread]

theorem unread_scrubWord (found : Nat → State → State) (hf : ∀ a s, unread (found a s) = unread s) (a : Nat) (s : State) :
    unread (scrubWord found a s) = unread s := by
  unfold scrubWord
  simp only []
  (repeat' split)
  · rfl
  · rfl
  · rfl
  · exact hf a s

theorem unread_scrubBlock (found : Nat → State → State) (hf : ∀ a s, unread (found a s) = unread s) (b : Nat) (s : State) :
    unread (scrubBlock found b s) = unread s :=
  foldl_keep _ unread (fun s a => unread_scrubWord found hf a s) _ s

/-- A field that findings and corrections leave is the same where the rest of the state is. -/
theorem scrub_keep {α : Type} (g : State → α) (hg : ∀ s, g (unread s) = g s) (i : Option Initiator) (b : Nat) (s : State) :
    g (scrubBlock (findUncorrectable i) b s) = g s := by
  rw [← hg, unread_scrubBlock _ (unread_findUncorrectable i), hg]

end Sys2Proof.Machine
end

section
/-! PROOFS. The walk over the operations ends: the pulls, the vote, the commands, the grants, and the step itself. -/

namespace Sys2Proof.Machine

open Sys2Proof

theorem pullLaw_iff (s : State) :
    pullLaw s = true ↔ (s.rse.pull.buffers.map Buffer.slot).Nodup ∧ (∀ b ∈ s.rse.pull.buffers, b.slot < Config.creditMax) ∧
      s.rse.pull.attempts ≤ 3 := by
  simp [pullLaw, and_assoc]

namespace Kept

variable {s t : State}

/-! ### Pulls -/

theorem clearPrev (h : Kept s t) : Kept s (clearPrev t) := h.quiet (by rfl)

theorem sortKept (h : Kept s t) : Kept s (sortKept t) := h.quiet (by rfl)

/-- A pull record without a full buffer. -/
theorem pullEmpty (h : Kept s t) (p : Pull) (hb : p.buffers = []) (ha : t.rse.pull.attempts ≤ 3 → p.attempts ≤ 3) :
    Kept s { t with rse.pull := p } :=
  h.pullRecord p fun hp => by
    rw [pullLaw_iff] at hp ⊢
    simpa [hb] using ha hp.2.2

theorem beginPull (h : Kept s t) (k : PullKind) (l : Link) (f : PullFrame) : Kept s (beginPull k l f t) := by
  unfold Machine.beginPull
  refine Kept.recordEvent (Kept.sendCtrl (h.pullEmpty _ ?_ ?_) _ _) _
  · rfl
  · exact id

theorem startDelta (h : Kept s t) (l : Link) : Kept s (startDelta l t) := h.clearPrev.beginPull _ _ _

theorem startFull (h : Kept s t) (l : Link) : Kept s (startFull l t) := (h.clearPrev.setChan _).beginPull _ _ _

theorem testFull (h : Kept s t) : Kept s (testFull t) := by
  unfold Machine.testFull
  (repeat' split)
  · exact h.startFull _
  · exact h
  · exact h

theorem failPull (h : Kept s t) (c : PullCause) (r : Option PullResult) : Kept s (failPull c r t) := by
  unfold Machine.failPull
  split
  · exact ((((h.pullEmpty _ rfl fun _ => Nat.min_le_left _ _).clearPrev.setAgreed _).recordEvent _).setChan _).testFull
  · exact h

theorem mendRegions (h : Kept s t) : Kept s (mendRegions t) := by
  refine h.regions _ ?_ fun _ hr => ?_
  · simp only [List.map_map]
    exact List.map_congr_left fun e _ => by by_cases he : e.2.desc.signed = true <;> simp [he]
  · rw [regionLaw_iff] at hr ⊢
    simp only [List.mem_map, forall_exists_index, and_imp, forall_apply_eq_imp_iff₂]
    intro e he
    by_cases hd : e.2.desc.signed = true
    · simp [hd]
    · simpa [hd] using hr e he

theorem succeedPull (h : Kept s t) (f : PullEndFrame) (es : List SigEntry) : Kept s (succeedPull f es t) := by
  unfold Machine.succeedPull
  split
  · have idle := h.mendRegions.pullRecord
      { t.rse.pull with phase := .idle, timer := none, attempts := 0, ending := none } fun hp => by
        rw [pullLaw_iff] at hp ⊢
        exact ⟨hp.1, hp.2.1, Nat.zero_le _⟩
    exact (((idle.quiet (by rfl)).setAgreed true).enterReady.sortKept).recordEvent _
  · exact h

theorem completionCheck (h : Kept s t) : Kept s (completionCheck t) := by
  unfold Machine.completionCheck
  (repeat' split)
  · exact h.succeedPull _ _
  · exact h.failPull _ _
  · exact h
  · exact h

theorem beginRegion (h : Kept s t) (slots : List Nat) (bad : Nat) : Kept s (beginRegion slots bad t) := by
  have ended : Kept s { t with sgu.pass := none } := h.pass none fun _ hp => nomatch hp
  unfold Machine.beginRegion
  split
  · exact ended
  · rename_i k rest
    split
    · rename_i e _
      have begun : Kept s { t with sgu.pass := some ⟨k :: rest, e.2.desc.first, 0, bad⟩ } :=
        h.pass _ fun p hp => by cases hp; exact p_pos
      exact begun.quiet (by rfl)
    · exact ended

theorem takeStored (h : Kept s t) (a : Nat) (v : Word) : Kept s (takeStored a v t) := h.mem _ (Memory.wf_put _ _ _)

theorem signBlock (h : Kept s t) : Kept s (signBlock t) := by
  unfold Machine.signBlock
  simp only []
  (repeat' split)
  · refine Kept.pass ?_ _ fun p hp => by cases hp; exact mod_p_lt _
    exact (h.scrubBlock _ (fun _ _ hu => hu.findInPass _) _).foldl _ (fun _ _ hu => hu.takeStored _ _) _
  · refine ((Kept.setSig ?_ _ _ (mod_p_lt _))).beginRegion _ _
    exact (h.scrubBlock _ (fun _ _ hu => hu.findInPass _) _).foldl _ (fun _ _ hu => hu.takeStored _ _) _
  · exact h
  · exact h
  · exact h

theorem linkErrorEvent (h : Kept s t) (l : Link) (r : LinkReason) (a : Option Nat) : Kept s (linkErrorEvent l r a t) := by
  unfold Machine.linkErrorEvent
  simp only []
  split
  · exact h
  · exact (h.quiet (by rfl)).recordEvent _

end Kept

theorem freeBuffer_some (bs : List Buffer) (k : Nat) (h : freeBuffer bs = some k) :
    k < Config.creditMax ∧ ∀ b ∈ bs, b.slot ≠ k := by
  unfold freeBuffer at h
  have hm := List.mem_of_find?_eq_some h
  have hf := List.find?_some h
  exact ⟨List.mem_range.1 hm, by simpa using hf⟩

namespace Kept

variable {s t : State}

theorem takeBlock (h : Kept s t) (l : Link) (f : BlockFrame) : Kept s (takeBlock l f t) := by
  unfold Machine.takeBlock
  simp only []
  have timed : Kept s { t with rse.pull.timer := some t.times.pullSilence } := h.quiet (by rfl)
  (repeat' split)
  · rename_i k hk
    refine timed.pullRecord _ fun hp => ?_
    rw [pullLaw_iff] at hp ⊢
    obtain ⟨nodup, small, attempts⟩ := hp
    obtain ⟨hlt, hne⟩ := freeBuffer_some _ _ hk
    simp only [List.map_append, List.map_cons, List.map_nil, List.mem_append, List.mem_singleton]
    refine ⟨?_, ?_, attempts⟩
    · rw [List.nodup_append]
      refine ⟨nodup, List.nodup_singleton _, fun a ha b hb => ?_⟩
      obtain ⟨x, hx, rfl⟩ := List.mem_map.1 ha
      rw [List.mem_singleton.1 hb]
      exact hne x hx
    · rintro b (hb | rfl)
      · exact small b hb
      · exact hlt
  · exact timed.linkErrorEvent _ _ _
  · exact timed.linkErrorEvent _ _ _
  · exact h

theorem pullProgress (h : Kept s t) : Kept s (pullProgress t) := by
  unfold Machine.pullProgress
  (repeat' split)
  · exact h.failPull _ _
  · exact h.failPull _ _
  · exact h.completionCheck
  · exact h.beginRegion _ _
  · exact h
  · exact h

theorem takePullEnd (h : Kept s t) (l : Link) (f : PullEndFrame) : Kept s (takePullEnd l f t) := by
  unfold Machine.takePullEnd
  (repeat' split)
  · exact Kept.pullProgress (h.quiet (by rfl))
  · exact h.failPull _ _
  · exact h

theorem writeBuffer (h : Kept s t) : Kept s (writeBuffer t) := by
  unfold Machine.writeBuffer
  split
  · rename_i b rest l hb _
    simp only []
    have written := h.overwriteAll (blockWrites b.block b.words)
    have left : ∀ u, Kept s u → u.rse.pull.buffers = b :: rest →
        Kept s { u with rse.pull.buffers := rest } := fun u hu hbu => hu.pullRecord _ fun hp => by
      rw [pullLaw_iff, hbu] at hp
      rw [pullLaw_iff]
      exact ⟨(List.nodup_cons.1 hp.1).2, fun x hx => hp.2.1 x (List.mem_cons_of_mem _ hx), hp.2.2⟩
    split
    · exact ((left _ (written.quiet (by rfl)) (by simpa using hb)).sendCtrl _ _).pullProgress
    · exact ((left _ written (by simpa using hb)).sendCtrl _ _).pullProgress
  · exact h

/-! ### The vote -/

theorem markResend (h : Kept s t) : Kept s (markResend t) := by
  unfold Machine.markResend
  split
  · exact h.quiet (by rfl)
  · exact h

theorem advance (h : Kept s t) (own : VoteFrame) : Kept s (advance own t) :=
  (h.emptied
    { t.cju with
      wPrev := t.cju.wCur, wPrevValid := true, wCur := [], journal := [], unrevertible := false,
      cycle := t.cju.cycle + 1 } rfl rfl).quiet (by rfl)

theorem staleDelta (h : Kept s t) : Kept s (staleDelta t) := by
  unfold Machine.staleDelta
  split
  · exact h.endService _ _
  · exact h

theorem memberOutcome (h : Kept s t) (own : VoteFrame) : Kept s (memberOutcome own t) := by
  unfold Machine.memberOutcome
  simp only []
  have entered := ((h.markResend.advance own).staleDelta.setAgreed true).enterReady
  split
  · exact entered
  · exact entered.raisePermit

theorem emptyNext (h : Kept s t) : Kept s (emptyNext t) := h.quiet (by rfl)

theorem applyOutcome (h : Kept s t) (o : VoteOutcome) (own : VoteFrame) : Kept s (applyOutcome o own t) := by
  cases o with
  | member3 => exact h.memberOutcome own
  | member2 => exact h.memberOutcome own
  | collectiveAbandon => exact h.emptyNext.enterReady
  | outvoted => exact (h.endService _ _).setChan _
  | excluded => exact ((h.emptyJournal.clearPrev.setAgreed _).endIfLost).setChan _
  | noQuorum =>
    unfold Machine.applyOutcome noQuorumOutcome
    dsimp only
    split
    · exact (((h.advance own).staleDelta.setAgreed _).endIfLost).enterReady
    · exact ((h.emptyNext.setAgreed _).endIfLost).enterReady

theorem recordDecision (h : Kept s t) (d : Decision) : Kept s (recordDecision d t) := by
  unfold Machine.recordDecision
  simp only []
  (repeat' split)
  all_goals first
    | exact h.quiet (by rfl)
    | exact (h.quiet (by rfl)).recordEvent _

theorem afterDecision (h : Kept s t) (o : VoteOutcome) (server : Option Link) : Kept s (afterDecision o server t) := by
  unfold Machine.afterDecision
  split
  · exact h.startDelta _
  · exact h.testFull
  · exact h

theorem completeDecision (h : Kept s t) (o : VoteOutcome) (server : Option Link) (own : VoteFrame)
    (frames : PerLink (Option VoteFrame)) : Kept s (completeDecision o server own frames t) :=
  ((((h.applyOutcome o own).reconsiderMarks).quiet (by rfl)).recordDecision _).afterDecision _ _

theorem checkRegion (h : Kept s t) (e : Nat × Region) : Kept s (checkRegion t e) := by
  unfold Machine.checkRegion
  simp only []
  (repeat' split)
  · exact ((h.markSuspect _ _).recordEvent _).suspectPermit _
  · exact h
  · exact h

theorem rollbackCheck (h : Kept s t) : Kept s (rollbackCheck t) := h.foldl _ (fun _ _ hu => hu.checkRegion _) _

theorem finishDecisionRollback (h : Kept s t) (d : Deciding) : Kept s (finishDecisionRollback d t) :=
  (h.rollbackCheck.quiet (by rfl)).completeDecision _ _ _ _

theorem takeDecision (h : Kept s t) : Kept s (takeDecision t) := by
  unfold Machine.takeDecision
  split
  · have taken : Kept s (takeFrames t) := h.quiet (by rfl)
    simp only []
    split
    · split
      · exact taken.completeDecision _ _ _ _
      · exact (taken.dropPermit _).completeDecision _ _ _ _
    · split
      · exact (((taken.dropPermit _).quiet (by rfl)).setChan _).finishDecisionRollback _
      · exact ((taken.dropPermit _).quiet (by rfl)).setChan _
  · exact h

theorem testDecision (h : Kept s t) : Kept s (testDecision t) := by
  unfold Machine.testDecision
  split
  · exact h.takeDecision
  · exact h

theorem linkChanged (h : Kept s t) : Kept s (linkChanged t) := h.testDecision.testFull

theorem handOver (h : Kept s t) (f : VoteFrame) : Kept s (handOver f t) :=
  (((h.quiet (by rfl)).sendBoth _).setChan _).testDecision

theorem finishRollback (h : Kept s t) : Kept s (finishRollback t) := by
  unfold Machine.finishRollback
  split
  · exact h.finishDecisionRollback _
  · exact h.rollbackCheck.handOver _

theorem abandon (h : Kept s t) (c : AbandonCause) : Kept s (abandon c t) := by
  unfold Machine.abandon
  simp only []
  have dropped : Kept s (Machine.dropSigned
      { Machine.recordEvent (.abandoned c) (Machine.dropPermit .abandon t) with cju.timer := none }) :=
    (((h.dropPermit _).recordEvent _).quiet (by rfl)).dropSigned
  (repeat' split)
  · exact dropped.handOver _
  · exact (dropped.setChan _).finishRollback
  · exact dropped.setChan _
  · exact h

theorem abandonFor (h : Kept s t) (a : Nat) : Kept s (abandonFor a t) := by
  unfold Machine.abandonFor
  (repeat' split)
  · exact h.abandon _
  · exact h
  · exact h

theorem endDrain (h : Kept s t) : Kept s (endDrain t) := by
  unfold Machine.endDrain
  split
  · exact h.abandon _
  · exact h.handOver _

end Kept
end Sys2Proof.Machine
end

section
/-! PROOFS. What each grant of the memory port says of the state it is granted in, the commands, the grants and the step under
the laws of `Kept`, and the invariants that follow. -/

namespace Sys2Proof.Machine

open Sys2Proof

/-! ### What a grant stands on (R42 to R47) -/

theorem classRequest_of_scanSlots (s : State) (n i : Nat) (g : Grant) (p : Nat) (h : scanSlots s n i = some (g, p)) :
    ∃ c, classRequest s c = some g := by
  induction n generalizing i with
  | zero => cases h
  | succ n ih =>
    unfold scanSlots at h
    split at h
    · rename_i g' hg
      cases h
      exact ⟨_, hg⟩
    · exact ih _ h

theorem classRequest_of_nextGrant {s : State} {g : Grant} {p : Nat} (h : nextGrant s = some (g, p)) :
    ∃ c, classRequest s c = some g := classRequest_of_scanSlots s _ _ g p h

/-- What a requested grant says of the state. -/
def Grant.asked (s : State) : Grant → Prop
  | .procRead => s.mpu.writeBack.isSome = false ∧ (firstAccess s).isSome = true
  | .writeBack => s.mpu.writeBack.isSome = true
  | .headWrite => s.mpu.writeBack.isSome = false ∧ (firstAccess s).isSome = false ∧
      ∃ e rest, s.pwq.entries = e :: rest ∧ needsCapture s e = false
  | .capture => ∃ e rest, s.pwq.entries = e :: rest ∧ needsCapture s e = true
  | .rollback => s.cju.chan = some .rollingBack ∧ s.cju.journal ≠ []
  | .patrol => s.ptu.request = true
  | .serverRead => s.rse.pull.buffers = [] ∧ 1 ≤ s.rse.service.credits ∧ (serverTarget s).isSome = true ∧ blockRoom s = true
  | .requesterWrite => s.rse.pull.buffers ≠ []
  | .initBlock => s.mpu.initOp.isSome = true ∧ resetPending s = false
  | .signing => s.mpu.initOp.isSome = false ∧ s.sgu.pass.isSome = true ∧ s.dev = .signing
  | .resigning => s.mpu.initOp.isSome = false ∧ s.sgu.pass.isSome = true ∧ s.dev ≠ .signing

theorem asked_of_classRequest (s : State) (c : PortClass) (g : Grant) (h : classRequest s c = some g) : g.asked s := by
  cases c with
  | proc =>
    simp only [classRequest, procRequest] at h
    (repeat' split at h) <;> cases h <;> simp_all [Grant.asked]
  | journal =>
    simp only [classRequest, journalRequest] at h
    (repeat' split at h) <;> cases h <;> simp_all [Grant.asked]
  | patrol =>
    simp only [classRequest] at h
    split at h <;> cases h
    assumption
  | link =>
    simp only [classRequest, linkRequest] at h
    (repeat' split at h) <;> cases h <;> simp_all [Grant.asked]
  | setup =>
    simp only [classRequest, setupRequest] at h
    (repeat' split at h) <;> cases h <;> simp_all [Grant.asked]

/-- A grant that is not the arbiter's next one has no effect; the next one works on the state with the new pointer. -/
theorem granted_cases (g : Grant) (work : State → State) (s : State) :
    granted g work s = s ∨
      ∃ p, nextGrant s = some (g, p) ∧ g.asked { s with mpu.pointer := p } ∧
        granted g work s = work { s with mpu.pointer := p } := by
  unfold granted
  split
  · rename_i h p hn
    split
    · rename_i hg
      subst hg
      obtain ⟨c, hc⟩ := classRequest_of_nextGrant hn
      exact Or.inr ⟨p, hn, asked_of_classRequest { s with mpu.pointer := p } c h (by cases c <;> exact hc), rfl⟩
    · exact Or.inl rfl
  · exact Or.inl rfl

/-! ### The journal's marks -/

theorem journalLaw_iff (s : State) :
    journalLaw s = true ↔ s.cju.journal.length ≤ Config.journalMax ∧ (s.cju.journal.map JournalEntry.block).Nodup ∧
      ∀ e ∈ s.cju.journal, e.block ∈ s.cju.wCur := by
  simp [journalLaw, and_assoc]

theorem revertLaw_iff (s : State) :
    revertLaw s = true ↔ s.cju.unrevertible = true ∨ ∀ b ∈ s.cju.wCur, ∃ e ∈ s.cju.journal, e.block = b := by
  simp [revertLaw]

theorem assocFind_ne_none {α : Type} (e : Nat × α) (l : List (Nat × α)) (h : e ∈ l) : assocFind l e.1 ≠ none := by
  induction l with
  | nil => cases h
  | cons x l ih =>
    obtain ⟨k, v⟩ := x
    unfold assocFind
    split
    · simp
    · rename_i hk
      rcases List.mem_cons.1 h with rfl | h
      · exact absurd rfl hk
      · exact ih h

theorem unloadRegion_entries (index : Nat) (s : State) :
    (unloadRegion index s).rgt.entries = assocErase s.rgt.entries index := by
  unfold unloadRegion
  split
  · unfold zeroSlot
    split <;> rfl
  · rename_i hn
    rw [assocErase_eq_filter, List.filter_eq_self.2]
    intro e he
    simp only [bne_iff_ne, ne_eq]
    rintro rfl
    exact assocFind_ne_none e _ he hn

namespace Kept

variable {s t : State}

theorem whenReady (h : Kept s t) (f : State → State) (hf : Kept s (f t)) : Kept s (whenReady f t) := by
  unfold Machine.whenReady
  split
  · exact h
  · exact hf

/-! ### Commands -/

theorem respond (h : Kept s t) (st : Status) (d : Nat) (tag : Byte) (ws : List Word) : Kept s (respond st d tag ws t) :=
  h.quiet (by rfl)

theorem startWalk (h : Kept s t) : Kept s (startWalk t) := h.ptu _ fun _ => p_pos

theorem stopWalk (h : Kept s t) : Kept s (stopWalk t) := h.ptu _ fun _ => p_pos

theorem silenceCheck (h : Kept s t) (l : Link) : Kept s (silenceCheck l t) := by
  unfold Machine.silenceCheck
  simp only []
  split
  · exact (Kept.recordEvent (h.quiet (by rfl)) _).linkChanged
  · exact h

/-- Thresholds in their ranges, with the hold flag judged against them (R29). -/
theorem thresholds (h : Kept s t) (upper lower : Nat) (h4 : 4 ≤ upper) (h32 : upper ≤ 32) (hl : lower < upper) :
    Kept s (Machine.lowerHold (raiseHold { t with pwq := { t.pwq with upper := upper, lower := lower } })) := by
  refine Kept.lowerHold (h.trans ?_)
  unfold raiseHold
  have max : Config.pwqMax = 32 := rfl
  split
  · refine { refl t with queue := fun hq => ?_ }
    rw [queueLaw_iff] at hq ⊢
    exact ⟨hq.1, Or.inl rfl, h4, h32, hl⟩
  · rename_i hu
    refine { refl t with queue := fun hq => ?_ }
    rw [queueLaw_iff] at hq ⊢
    exact ⟨hq.1, Or.inr (Nat.lt_of_not_le hu), h4, h32, hl⟩

/-- Records leave the event queue, or the mask is new: ALERT is tested again. -/
theorem retest (h : Kept s t) (c : Cmu) (he : c.events.length ≤ t.cmu.events.length) (hd : c.dropped = t.cmu.dropped) :
    Kept s { t with cmu := Cmu.retest c } :=
  h.trans
    { refl t with
      event := fun ht => by
        rw [eventLaw_iff] at ht ⊢
        exact ⟨he.trans ht.1, hd.le.trans ht.2⟩
      alert := fun _ => by simp [alertLaw, Cmu.retest] }

theorem takeRestore (h : Kept s t) (tag : Byte) (ps : List Word) : Kept s (takeRestore tag ps t) := by
  unfold Machine.takeRestore
  (repeat' split)
  · exact h.respond _ _ _ _
  · have forgotten : Kept s { t with rse.pull.attempts := 0 } := h.pullRecord { t.rse.pull with attempts := 0 } fun hp => by
      rw [pullLaw_iff] at hp ⊢
      exact ⟨hp.1, hp.2.1, Nat.zero_le _⟩
    exact ((forgotten.startFull _).respond _ _ _ _).settle
  · exact h.respond _ _ _ _

theorem takeSetPatrol (h : Kept s t) (tag : Byte) (ps : List Word) : Kept s (takeSetPatrol tag ps t) := by
  unfold Machine.takeSetPatrol
  simp only []
  have set : ∀ e i, Kept s { t with ptu := { t.ptu with enable := e, interval := i } } := fun _ _ => h.quiet (by rfl)
  (repeat' split)
  · exact h.respond _ _ _ _
  · exact (set _ _).startWalk.respond _ _ _ _
  · exact (set _ _).stopWalk.respond _ _ _ _
  · exact (set _ _).respond _ _ _ _

theorem effectOf (h : Kept s t) (cmd : Command) (tag : Byte) (ps : List Word) : Kept s (effectOf cmd tag ps t) := by
  cases cmd with
  | clearTable =>
    dsimp only [Machine.effectOf, takeClearTable]
    split
    · exact h.respond _ _ _ _
    · exact h
  | loadSlots =>
    dsimp only [Machine.effectOf, takeLoadSlots]
    split
    · exact h.respond _ _ _ _
    · exact Kept.respond (h.quiet (by rfl)) _ _ _ _
  | setTiming =>
    have timed : Kept s { t with times := clampedTimes ps } := h.quiet (by rfl)
    have checked : Kept s (silenceBoth { t with times := clampedTimes ps }) :=
      (timed.silenceCheck .one).silenceCheck .two
    dsimp only [Machine.effectOf]
    rw [takeSetTiming_eq]
    exact (checked.respond _ _ _ _).settle
  | setQueue =>
    have u4 : 4 ≤ clampedUpper ps := Nat.le_max_left _ _
    have u32 : clampedUpper ps ≤ 32 := by
      unfold clampedUpper clamp
      omega
    have lu : clampedLower ps < clampedUpper ps := by
      have := Nat.min_le_left (clampedUpper ps - 1) (param ps 2)
      unfold clampedLower
      omega
    dsimp only [Machine.effectOf, takeSetQueue]
    exact ((h.thresholds _ _ u4 u32 lu).respond _ _ _ _).settle
  | initMemory =>
    dsimp only [Machine.effectOf, takeInitMemory]
    (repeat' split)
    · exact h.respond _ _ _ _
    · exact h.respond _ _ _ _
    · exact h
  | openCycle =>
    dsimp only [Machine.effectOf, takeOpenCycle]
    split
    · exact ((Kept.setChan (h.quiet (by rfl)) _).respond _ _ _ _).settle
    · exact h.respond _ _ _ _
  | closeCycle =>
    dsimp only [Machine.effectOf, takeCloseCycle]
    split
    · exact ((Kept.setChan (h.quiet (by rfl)) _).respond _ _ _ _).settle
    · exact h.respond _ _ _ _
  | abandonCycle =>
    dsimp only [Machine.effectOf, takeAbandonCycle]
    exact ((h.abandon _).respond _ _ _ _).settle
  | restore => exact h.takeRestore tag ps
  | setPatrol => exact h.takeSetPatrol tag ps
  | setAlertMask =>
    dsimp only [Machine.effectOf, takeSetAlertMask]
    split
    · exact h.respond _ _ _ _
    · exact Kept.respond (h.retest { t.cmu with mask := BitVec.ofNat 19 (param ps 1) } le_rfl rfl) _ _ _ _
  | readRegion =>
    dsimp only [Machine.effectOf, takeReadRegion]
    split
    · exact h.respond _ _ _ _
    · exact h.respond _ _ _ _
  | readEvents =>
    dsimp only [Machine.effectOf, takeReadEvents]
    split
    · exact h.respond _ _ _ _
    · exact Kept.respond (h.retest { t.cmu with events := t.cmu.events.drop (param ps 1) } (by simp) rfl) _ _ _ _
  | loadRegion => exact h
  | endConfig => exact h
  | reset => exact h
  | readState => exact h.respond _ _ _ _
  | readPeers => exact h.respond _ _ _ _

theorem takeCommand (h : Kept s t) (cmd : Command) (tag : Byte) (ps : List Word) : Kept s (takeCommand cmd tag ps t) := by
  unfold Machine.takeCommand
  simp only []
  have taken : Kept s { pend t with cmu.buffer := some ⟨cmd, tag, ps⟩ } := h.quiet (by rfl)
  (repeat' split)
  · exact taken.respond _ _ _ _
  · exact taken.respond _ _ _ _
  · exact taken.respond _ _ _ _
  · exact taken.effectOf _ _ _

theorem submit (h : Kept s t) : Kept s (submit t) := by
  unfold Machine.submit
  have pended : Kept s (pend t) := h.quiet (by rfl)
  (repeat' split)
  · exact h.recordEvent _
  · exact pended.respond _ _ _ _
  · exact pended.respond _ _ _ _
  · exact h.takeCommand _ _ _

theorem presentCommand (h : Kept s t) (cmd : Command) (tag : Byte) (ps : List Word) :
    Kept s (presentCommand cmd tag ps t) := by
  unfold Machine.presentCommand
  simp only []
  have written : ∀ q, Kept s (Machine.giveAnswer .data .okay 0 { t with cmu.request := q }) := fun _ => h.quiet (by rfl)
  (repeat' split)
  · exact h.giveAnswer _ _ _
  · exact (written _).recordEvent _
  · exact (written _).takeCommand _ _ _
  · exact Kept.respond ((written _).quiet (by rfl)) _ _ _ _

theorem refuseAddress (h : Kept s t) (i : Initiator) (a : Nat) : Kept s (refuseAddress i a t) :=
  (h.recordRefusal _ _ _ _).giveAnswer _ _ _

theorem transfer (h : Kept s t) (i : Initiator) (w : Bool) (a : BitVec 26) (be : BitVec 4) (d : Word) :
    Kept s (transfer i w a be d t) := by
  unfold Machine.transfer
  simp only []
  (repeat' split)
  · exact h.giveAnswer _ _ _
  · exact h.arrive _
  · unfold apertureTransfer
    (repeat' split)
    · exact Kept.giveAnswer (h.quiet (by rfl)) _ _ _
    · exact h.giveAnswer _ _ _
    · exact (h.giveAnswer _ _ _).submit
    · exact h.giveAnswer _ _ _
    · exact h.refuseAddress _ _
    · exact h.giveAnswer _ _ _
  · exact h.refuseAddress _ _

/-! ### The draining commands -/

theorem zeroSlot (h : Kept s t) (d : Descriptor) : Kept s (zeroSlot d t) := by
  unfold Machine.zeroSlot
  split
  · exact h.setSig _ _ p_pos
  · exact h

theorem unloadRegion (h : Kept s t) (index : Nat) : Kept s (unloadRegion index t) := by
  unfold Machine.unloadRegion
  split
  · have erased : Kept t { t with rgt.entries := assocErase t.rgt.entries index } :=
      { refl t with
        table := tableLaw_erase t index
        region := fun _ hr => by
          rw [regionLaw_iff] at hr ⊢
          exact fun e he => hr e (mem_assocErase _ _ _ he) }
    exact (h.trans erased).zeroSlot _
  · exact h

theorem storeRegion (h : Kept s t) (ps : List Word) (hf : regionFault t.rgt.entries ps = none) :
    Kept s (storeRegion (param ps 1) (descriptorOf ps) t) := by
  unfold Machine.storeRegion
  simp only []
  refine Kept.zeroSlot ?_ _
  have unloaded := h.unloadRegion (param ps 1)
  refine { unloaded with table := fun hs => ?_, region := fun hs hr => ?_ }
  · have inserted := tableLaw_insert t ps (h.table hs) hf
    rw [tableLaw_iff] at inserted ⊢
    rw [unloadRegion_entries]
    exact inserted
  · have law := unloaded.region hs hr
    rw [regionLaw_iff] at law ⊢
    intro e he
    rcases mem_assocInsert _ _ _ _ he with rfl | he
    · exact fun hn => absurd rfl hn
    · exact law e he

/-- A command reset: the blocks take their reset values and the device state becomes CONFIGURING, with every region NORMAL. -/
theorem resetDev (h : Kept s t) : Kept s (Machine.setDev .configuring (resetBlocks t)) := by
  have normal : ∀ e ∈ (resetRgt t.rgt).entries, e.2.state = .normal := by
    intro e he
    obtain ⟨x, -, rfl⟩ := List.mem_map.1 he
    rfl
  have blocks : Kept t (resetBlocks t) :=
    { refl t with
      queue := fun hq => by
        rw [queueLaw_iff] at hq ⊢
        exact ⟨Nat.zero_le _, Or.inr (by simp [resetBlocks]; omega), hq.2.2⟩
      journal := fun _ => rfl
      revert := fun _ _ => rfl
      credit := fun _ => rfl
      pull := fun _ => rfl
      transmit := fun ht l => by
        have hx := (transmitLaw_iff _).1 (ht l)
        rw [transmitLaw_iff]
        cases l <;> exact ⟨List.nodup_nil, Nat.zero_le _⟩
      signature := fun hs => by
        have hs' : t.ptu.acc < Config.p := by
          simp only [signatureLaw, Bool.and_eq_true, decide_eq_true_eq] at hs
          exact hs.1.2
        simp [signatureLaw, resetBlocks, Sgu.initial, hs', p_pos]
      table := fun ht => by
        have kept : tableLaw (resetBlocks t) = tableLaw t := tableLaw_congr (by simp [resetBlocks, resetRgt])
        rw [kept]
        exact ht
      region := fun _ _ => (regionLaw_iff _).2 fun e he hn => absurd (normal e he) hn }
  have moved : Kept t { resetBlocks t with dev := .configuring } :=
    { blocks with region := fun _ _ => (regionLaw_iff _).2 fun e he hn => absurd (normal e he) hn }
  unfold Machine.setDev
  split
  · exact h.trans blocks
  · exact (h.trans moved).helloTrigger

theorem resetNow (h : Kept s t) (f : CmdFrame) : Kept s (resetNow f t) :=
  (((((((h.endService _ _).kick.dropPermit _).recordEvent _).resetDev).setChan _).setAgreed _).stopWalk.respond _ _ _ _).settle

theorem clearTableNow (h : Kept s t) (f : CmdFrame) : Kept s (clearTableNow f t) := by
  unfold Machine.clearTableNow
  simp only []
  split
  · exact (Kept.respond (Kept.stopWalk (h.foldl _ (fun _ _ hu => hu.unloadRegion _) _)) _ _ _ _).settle
  · exact ((h.unloadRegion _).stopWalk.respond _ _ _ _).settle

theorem loadRegionNow (h : Kept s t) (f : CmdFrame) : Kept s (loadRegionNow f t) := by
  unfold Machine.loadRegionNow
  split
  · exact (h.respond _ _ _ _).settle
  · rename_i hf
    exact ((h.storeRegion f.params hf).stopWalk.respond _ _ _ _).settle

theorem enterSigning (h : Kept s t) : Kept s (enterSigning t) :=
  (Kept.setDev (h.quiet (by rfl)) _ (by decide)).beginRegion _ _

theorem endConfigNow (h : Kept s t) (f : CmdFrame) : Kept s (endConfigNow f t) := by
  unfold Machine.endConfigNow
  (repeat' split)
  · exact (h.respond _ _ _ _).settle
  · exact (h.respond _ _ _ _).settle
  · exact (h.enterSigning.respond _ _ _ _).settle

theorem drained (h : Kept s t) (cmd : Command) (work : CmdFrame → State → State)
    (hw : ∀ f u, Kept s u → Kept s (work f u)) : Kept s (drained cmd work t) := by
  unfold Machine.drained
  (repeat' split)
  · exact hw _ _ h
  · exact h
  · exact h

/-! ### Frames -/

theorem refresh (h : Kept s t) (l : Link) : Kept s (refresh l t) := by
  unfold Machine.refresh
  simp only []
  split
  · exact h.quiet (by rfl)
  · exact (Kept.recordEvent (h.quiet (by rfl)) _).linkChanged

theorem restartSilence (h : Kept s t) (l : Link) (f : HelloFields) (m : Bool) : Kept s (restartSilence l f m t) := by
  unfold Machine.restartSilence
  split
  · exact h.quiet (by rfl)
  · exact h

theorem abortService (h : Kept s t) (l : Link) (f : HelloFields) : Kept s (abortService l f t) := by
  unfold Machine.abortService
  (repeat' split)
  · exact h.endService _ _
  · exact h
  · exact h

theorem receiveHello (h : Kept s t) (l : Link) (fp : BitVec 16) (f : HelloFields) : Kept s (receiveHello l fp f t) := by
  unfold Machine.receiveHello
  simp only []
  have put : ∀ p, Kept s (putPeer l p t) := fun _ => h.quiet (by rfl)
  (repeat' split)
  · exact (((put _).restartSilence _ _ _).abortService _ _).testFull
  · exact ((((put _).recordEvent _).restartSilence _ _ _).abortService _ _).testFull
  · exact (((put _).restartSilence _ _ _).abortService _ _).testDecision.testFull
  · exact ((((put _).recordEvent _).restartSilence _ _ _).abortService _ _).testDecision.testFull

theorem takeVote (h : Kept s t) (l : Link) (f : VoteFrame) : Kept s (takeVote l f t) := by
  have put : ∀ x, Kept s (putTable l x t) := fun _ => h.quiet (by rfl)
  unfold Machine.takeVote placeVote
  (repeat' split)
  · exact put _
  · exact (put _).testDecision
  · exact put _
  · exact h
  · exact h.recordEvent _
  · exact h

theorem receiveOther (h : Kept s t) (l : Link) (fp : BitVec 16) (consumer : State → State)
    (hc : ∀ u, Kept s u → Kept s (consumer u)) : Kept s (receiveOther l fp consumer t) := by
  unfold Machine.receiveOther
  simp only []
  split
  · exact hc _ (h.refresh l)
  · exact h.refresh l

theorem receive (h : Kept s t) (l : Link) (f : SentFrame) : Kept s (receive l f t) := by
  unfold Machine.receive listening
  split
  · exact h
  · refine Kept.settle ?_
    unfold receiveFrame
    split
    · exact h.receiveHello _ _ _
    · exact h.receiveOther _ _ _ fun _ hu => hu.takeVote _ _
    · exact h.receiveOther _ _ _ fun _ hu => hu.takePull _ _
    · exact h.receiveOther _ _ _ fun _ hu => hu.takeBlock _ _
    · exact h.receiveOther _ _ _ fun _ hu => hu.takeCredit _ _
    · exact h.receiveOther _ _ _ fun _ hu => hu.takePullEnd _ _

theorem receiveBytes (h : Kept s t) (l : Link) (bs : List Byte) : Kept s (receiveBytes l bs t) := by
  unfold Machine.receiveBytes
  split
  · exact h.receive _ _
  · unfold listening badFrame
    simp only []
    split
    · exact h
    · exact Kept.linkErrorEvent (h.quiet (by rfl)) _ _ _

theorem transmitEnd (h : Kept s t) (l : Link) : Kept s (transmitEnd l t) := by
  unfold Machine.transmitEnd
  split
  · exact (h.modifyTx l _ fun hx => hx).settle
  · exact h

/-! ### Grants -/

theorem procRead (h : Kept s t) : Kept s (procRead t) := by
  unfold Machine.procRead
  split
  · refine Kept.settle ?_
    unfold readForPort
    simp only []
    (repeat' split)
    · exact (h.unhold _).giveAnswer _ _ _
    · exact Kept.countCorrected (((h.unhold _).giveAnswer _ _ _).quiet (by rfl)) _
    · exact ((h.unhold _).giveAnswer _ _ _).quiet (by rfl)
    · exact (((h.unhold _).giveAnswer _ _ _).findUncorrectable _ _).abandonFor _
  · exact h

theorem writeBack (h : Kept s t) : Kept s (writeBack t) := by
  unfold Machine.writeBack
  simp only []
  have taken : Kept s { t with mpu.writeBack := none } := h.quiet (by rfl)
  (repeat' split)
  · exact taken.storeWord _ _
  · exact taken
  · exact h

/-- A mark without an entry is set only together with UNREVERTIBLE (R83). -/
theorem overflow (h : Kept s t) (e : PwqEntry) : Kept s (overflow e t) := by
  unfold Machine.overflow
  simp only []
  have marked : Kept s
      { t with cju := { t.cju with wCur := setInsert t.cju.wCur (blockOf e.word), unrevertible := true } } := by
    refine h.cju _ (fun hj => ?_) fun _ _ => (revertLaw_iff _).2 (Or.inl rfl)
    rw [journalLaw_iff] at hj ⊢
    exact ⟨hj.1, hj.2.1, fun x hx => (mem_setInsert _ _ _).2 (Or.inr (hj.2.2 x hx))⟩
  (repeat' split)
  · exact marked.forgetTried
  · exact marked.forgetTried.recordEvent _
  · exact h

theorem performEntry (h : Kept s t) (e : PwqEntry) : Kept s (performEntry e t) := by
  unfold Machine.performEntry
  simp only []
  have found : Kept s (match (readWord t e.word).cond with
      | .good => t
      | .correctable => Machine.countCorrected e.region t
      | .uncorrectable => Machine.findUncorrectable (some e.ini) e.word t) := by
    split
    · exact h
    · exact h.countCorrected _
    · exact h.findUncorrectable _ _
  split
  · exact found.recordRefusal _ _ _ _
  · exact found.writeWord _ _ _

theorem headWrite (h : Kept s t) : Kept s (headWrite t) := by
  unfold Machine.headWrite
  split
  · rename_i e rest he
    simp only []
    have left := ((h.overflow e).performEntry e).leaveQueue [e] rest (by simp [he])
    split
    · exact (left.abandonFor _).settle
    · exact left.settle
  · exact h

/-- A capture adds the mark together with its entry, where there was neither and the journal had room (R80 to R82). -/
theorem captureHead (h : Kept s t) (ha : Grant.capture.asked t) : Kept s (captureHead t) := by
  obtain ⟨e, rest, he, hn⟩ := ha
  simp only [needsCapture, Bool.and_eq_true, Bool.not_eq_true', decide_eq_true_eq, List.contains_eq_mem,
    decide_eq_false_iff_not] at hn
  obtain ⟨⟨-, fresh⟩, room⟩ := hn
  unfold Machine.captureHead
  rw [he]
  simp only []
  have scrubbed := h.scrubBlock (Machine.findUncorrectable (some e.ini)) (fun _ _ hu => hu.findUncorrectable _ _)
    (blockOf e.word)
  have hj := scrub_keep (fun u => u.cju.journal) (fun _ => rfl) (some e.ini) (blockOf e.word) t
  have hw := scrub_keep (fun u => u.cju.wCur) (fun _ => rfl) (some e.ini) (blockOf e.word) t
  generalize Machine.scrubBlock (Machine.findUncorrectable (some e.ini)) (blockOf e.word) t = u at scrubbed hj hw
  have captured : Kept s
      { u with
        cju :=
          { u.cju with
            journal := u.cju.journal ++ [preImage t (blockOf e.word)], wCur := setInsert u.cju.wCur (blockOf e.word) } } := by
    have block : (preImage t (blockOf e.word)).block = blockOf e.word := rfl
    refine scrubbed.cju _ (fun law => ?_) fun law rev => ?_
    · rw [journalLaw_iff] at law ⊢
      obtain ⟨length, nodup, marked⟩ := law
      rw [← hj] at room
      simp only [List.length_append, List.length_singleton, List.map_append, List.map_cons, List.map_nil,
        List.mem_append, List.mem_singleton, mem_setInsert, block]
      refine ⟨room, ?_, ?_⟩
      · rw [List.nodup_append]
        refine ⟨nodup, List.nodup_singleton _, fun a ha b hb hab => ?_⟩
        obtain ⟨x, hx, rfl⟩ := List.mem_map.1 ha
        have mark := marked x hx
        rw [hab, List.mem_singleton.1 hb, hw] at mark
        exact fresh mark
      · rintro x (hx | rfl)
        · exact Or.inr (marked x hx)
        · exact Or.inl rfl
    · rw [revertLaw_iff] at rev ⊢
      refine rev.imp id fun rev b hb => ?_
      rcases (mem_setInsert _ _ _).1 hb with rfl | hb
      · exact ⟨_, List.mem_append_right _ (List.mem_singleton.2 rfl), rfl⟩
      · obtain ⟨x, hx, hxb⟩ := rev b hb
        exact ⟨x, List.mem_append_left _ hx, hxb⟩
  split
  · exact (captured.forgetTried.abandonFor _).settle
  · exact captured.forgetTried.settle

/-- A rollback takes the newest entry and its mark away together (R84). -/
theorem rollbackNewest (h : Kept s t) : Kept s (rollbackNewest t) := by
  unfold Machine.rollbackNewest
  split
  · rename_i e he
    simp only []
    have put := h.overwriteAll (knownWrites e)
    have hj : (Machine.overwriteAll (knownWrites e) t).cju = t.cju := by simp
    generalize Machine.overwriteAll (knownWrites e) t = u at put hj
    obtain ⟨init, hi⟩ := List.getLast?_eq_some_iff.1 he
    rw [← hj] at hi
    have back : Kept s
        { u with cju := { u.cju with journal := u.cju.journal.dropLast, wCur := setErase u.cju.wCur e.block } } := by
      refine put.cju _ (fun law => ?_) fun law rev => ?_
      · rw [journalLaw_iff, hi] at law
        rw [journalLaw_iff]
        obtain ⟨length, nodup, marked⟩ := law
        simp only [hi, List.dropLast_concat, List.length_append, List.length_singleton] at length ⊢
        rw [List.map_append, List.nodup_append] at nodup
        refine ⟨by omega, nodup.1, fun x hx => (mem_setErase _ _ _).2 ⟨marked x (List.mem_append_left _ hx), ?_⟩⟩
        exact nodup.2.2 _ (List.mem_map_of_mem hx) _ (by simp)
      · rw [revertLaw_iff, hi] at rev
        rw [revertLaw_iff]
        refine rev.imp id fun rev b hb => ?_
        obtain ⟨hb, hne⟩ := (mem_setErase _ _ _).1 hb
        obtain ⟨x, hx, hxb⟩ := rev b hb
        simp only [hi, List.dropLast_concat]
        rcases List.mem_append.1 hx with hx | hx
        · exact ⟨x, hx, hxb⟩
        · rw [List.mem_singleton.1 hx] at hxb
          exact absurd hxb.symm hne
    split
    · exact back.reconsiderMarks.finishRollback.settle
    · exact back.reconsiderMarks.settle
  · exact h

theorem patrolBlock (h : Kept s t) : Kept s (patrolBlock t) := by
  unfold Machine.patrolBlock
  split
  · rename_i b _
    split
    · rename_i e _
      simp only []
      have entered : Kept s (Machine.enterRegion e.2 b t) := by
        unfold Machine.enterRegion
        split
        · exact h.ptu _ fun _ => p_pos
        · exact h
      have scrubbed := entered.scrubBlock (Machine.findUncorrectable none) (fun _ _ hu => hu.findUncorrectable _ _) b
      have added : ∀ u, Kept s u → Kept s (Machine.accumulate e.2.desc b (readBlock t b) u) := by
        intro u hu
        unfold Machine.accumulate
        split
        · exact hu.ptu _ fun _ => mod_p_lt _
        · exact hu
      have ended : ∀ u, Kept s u → Kept s (Machine.endOfRegion e.1 b u) := by
        intro u hu
        unfold Machine.endOfRegion
        (repeat' split)
        · exact ((hu.markSuspect _ _).recordEvent _).suspectPermit _
        · exact hu
        · exact hu
      exact (ended _ (added _ scrubbed)).quiet (by rfl)
    · exact h.quiet (by rfl)
  · exact h.quiet (by rfl)

theorem serveBlock (h : Kept s t) (ha : Grant.serverRead.asked t) : Kept s (serveBlock t) := by
  unfold Machine.serveBlock
  split
  · rename_i b _
    simp only []
    have scrubbed := h.scrubBlock (Machine.findUncorrectable none) (fun _ _ hu => hu.findUncorrectable _ _) b
    have room : blockRoom (Machine.scrubBlock (Machine.findUncorrectable none) b t) = true :=
      (scrub_keep blockRoom (fun _ => rfl) none b t).trans ha.2.2.2
    (repeat' split)
    · exact scrubbed.sendBlock _ _ room
    · exact scrubbed.endService _ _
    · exact scrubbed.sendBlock _ _ room
    · exact scrubbed.blockUnavailable _
  · exact h

theorem initBlock (h : Kept s t) : Kept s (initBlock t) := by
  unfold Machine.initBlock
  simp only []
  (repeat' split)
  · exact (h.overwriteAll _).quiet (by rfl)
  · exact Kept.recordEvent ((h.overwriteAll _).quiet (by rfl)) _
  · exact h

theorem join (h : Kept s t) (bad : Nat) : Kept s (join bad t) := by
  unfold Machine.join
  simp only []
  have running : ∀ b, Kept s (Machine.setDev .running (Machine.recordEvent b
      { t with
        start :=
          some ⟨t.rgt.fingerprint, bad, (t.rgt.entries.filter (fun e => e.2.desc.signed && e.2.suspect)).map Prod.fst,
            peersHeard t, runningAhead t.lkc.peers.one || runningAhead t.lkc.peers.two, t.cmu.ms⟩ })) :=
    fun _ => (Kept.recordEvent (h.quiet (by rfl)) _).setDev _ (by decide)
  (repeat' split)
  · exact ((running _).startWalk.setChan _).testFull
  · exact ((running _).setChan _).testFull
  · exact ((Kept.setAgreed ((running _).startWalk.quiet (by rfl)) _).enterReady).sortKept
  · exact ((Kept.setAgreed ((running _).quiet (by rfl)) _).enterReady).sortKept

theorem signingRead (h : Kept s t) : Kept s (signingRead t) := by
  unfold Machine.signingRead
  simp only []
  split
  · exact (h.signBlock.join _).settle
  · exact h.signBlock

theorem reSigningRead (h : Kept s t) : Kept s (reSigningRead t) := by
  unfold Machine.reSigningRead
  simp only []
  split
  · exact h.signBlock.completionCheck.settle
  · exact h.signBlock

theorem granted (h : Kept s t) (g : Grant) (work : State → State)
    (hw : ∀ u, Kept s u → g.asked u → Kept s (work u)) : Kept s (granted g work t) := by
  rcases granted_cases g work t with hg | ⟨p, -, ha, hg⟩
  · rw [hg]
    exact h
  · rw [hg]
    exact hw _ (h.quiet (by rfl)) ha

/-! ### Resets, disturbances and the step -/

theorem afterPower (p : BitVec 2) (m : List (Nat × StoredWord)) (hm : arrayLaw s = true → Memory.wf m = true) :
    Kept s (State.afterPower p m) where
  array := hm
  event _ := rfl
  alert _ := rfl
  queue _ := rfl
  held _ := rfl
  journal _ := rfl
  revert _ _ := rfl
  credit _ := rfl
  pull _ := rfl
  transmit _ l := by cases l <;> rfl
  signature _ := by simp [signatureLaw, State.afterPower, Sgu.initial, p_pos]
  table _ := rfl
  region _ _ := rfl

theorem heldInReset (p : BitVec 2) (m : List (Nat × StoredWord)) (hm : arrayLaw s = true → Memory.wf m = true) :
    Kept s (heldInReset p m) := (afterPower p m hm).quiet (by rfl)

theorem powerOn (p : BitVec 2) (content : List (Nat × StoredWord)) :
    Kept s (keepQueue s
      (if s.resetLow then Machine.heldInReset p (memOf content) else State.afterPower p (memOf content))) := by
  split
  · exact (heldInReset p _ fun _ => Memory.wf_memOf content).quiet (by rfl)
  · exact (afterPower p _ fun _ => Memory.wf_memOf content).quiet (by rfl)

theorem releaseReset (h : Kept s t) (p : BitVec 2) : Kept s (releaseReset p t) := by
  unfold Machine.releaseReset
  split
  · exact h.quiet (by rfl)
  · exact h

theorem of_next (h : (Host.Outcome.next t : Host.Outcome State Fault Refusal) = .next u) (k : Kept s t) : Kept s u := by
  cases h
  exact k

end Kept

open Kept in
/-- Every command keeps the laws of `Kept`. -/
theorem kept_exec (i : Instr) (s t : State) (h : exec i s = .next t) : Kept s t := by
  have r := Kept.refl s
  cases i with
  | powerOn p content => exact of_next h (Kept.powerOn p content)
  | pinResetAssert cut => exact of_next h ((Kept.heldInReset _ _ (Memory.wf_arrayAtReset s cut)).quiet (by rfl))
  | pinResetRelease p => exact of_next h (r.releaseReset p)
  | memoryRead i a be => exact of_next h (r.transfer _ _ _ _ _)
  | memoryWrite i a be d => exact of_next h (r.transfer _ _ _ _ _)
  | addressRefused i w a be d => exact of_next h (r.transfer _ _ _ _ _)
  | requestAreaWrite a be d => exact of_next h (r.transfer _ _ _ _ _)
  | commandOverrun be => exact of_next h (r.transfer _ _ _ _ _)
  | unknownCommand be => exact of_next h (r.transfer _ _ _ _ _)
  | procReadGrant => exact of_next h (r.whenReady _ (r.granted _ _ fun _ hu _ => hu.procRead))
  | correctionWriteBack => exact of_next h (r.whenReady _ (r.granted _ _ fun _ hu _ => hu.writeBack))
  | pwqHeadWrite => exact of_next h (r.whenReady _ (r.granted _ _ fun _ hu _ => hu.headWrite))
  | capture => exact of_next h (r.whenReady _ (r.granted _ _ fun _ hu ha => hu.captureHead ha))
  | rollbackGrant => exact of_next h (r.whenReady _ (r.granted _ _ fun _ hu _ => hu.rollbackNewest))
  | patrolRead => exact of_next h (r.whenReady _ (r.granted _ _ fun _ hu _ => hu.patrolBlock))
  | serverRead => exact of_next h (r.whenReady _ (r.granted _ _ fun _ hu ha => (hu.serveBlock ha).settle))
  | requesterWrite => exact of_next h (r.whenReady _ (r.granted _ _ fun _ hu _ => hu.writeBuffer.settle))
  | initBlockWrite => exact of_next h (r.whenReady _ (r.granted _ _ fun _ hu _ => hu.initBlock))
  | signingRead => exact of_next h (r.whenReady _ (r.granted _ _ fun _ hu _ => hu.signingRead))
  | reSigningRead => exact of_next h (r.whenReady _ (r.granted _ _ fun _ hu _ => hu.reSigningRead))
  | clearTable tag ps => exact of_next h (r.presentCommand _ _ _)
  | clearTableDrained => exact of_next h (r.whenReady _ (r.drained _ _ fun f _ hu => hu.clearTableNow f))
  | loadRegion tag ps => exact of_next h (r.presentCommand _ _ _)
  | loadRegionDrained => exact of_next h (r.whenReady _ (r.drained _ _ fun f _ hu => hu.loadRegionNow f))
  | loadSlots tag ps => exact of_next h (r.presentCommand _ _ _)
  | setTiming tag ps => exact of_next h (r.presentCommand _ _ _)
  | setQueue tag ps => exact of_next h (r.presentCommand _ _ _)
  | initMemory tag ps => exact of_next h (r.presentCommand _ _ _)
  | initMemoryBegin =>
    exact of_next h (r.whenReady _ (r.drained _ _ fun f _ hu => (Kept.respond (hu.quiet (by rfl)) _ _ _ _).settle))
  | endConfig tag ps => exact of_next h (r.presentCommand _ _ _)
  | endConfigChecks => exact of_next h (r.whenReady _ (r.drained _ _ fun f _ hu => hu.endConfigNow f))
  | openCycle tag ps => exact of_next h (r.presentCommand _ _ _)
  | closeCycle tag ps => exact of_next h (r.presentCommand _ _ _)
  | closeDrainEnd =>
    refine of_next h (r.whenReady _ ?_)
    unfold closeDrained
    split
    · exact r.endDrain.settle
    · exact r
  | abandonCycle tag ps => exact of_next h (r.presentCommand _ _ _)
  | restore tag ps => exact of_next h (r.presentCommand _ _ _)
  | setPatrol tag ps => exact of_next h (r.presentCommand _ _ _)
  | setAlertMask tag ps => exact of_next h (r.presentCommand _ _ _)
  | readState tag ps => exact of_next h (r.presentCommand _ _ _)
  | readRegion tag ps => exact of_next h (r.presentCommand _ _ _)
  | readPeers tag ps => exact of_next h (r.presentCommand _ _ _)
  | readEvents tag ps => exact of_next h (r.presentCommand _ _ _)
  | reset tag ps => exact of_next h (r.presentCommand _ _ _)
  | commandReset => exact of_next h (r.whenReady _ (r.drained _ _ fun f _ hu => hu.resetNow f))
  | cycleLimit =>
    refine of_next h (r.whenReady _ ?_)
    unfold cycleLimit
    split
    · exact (r.abandon _).settle
    · exact r
  | voteTimerExpiry =>
    refine of_next h (r.whenReady _ ?_)
    unfold voteTimeout
    split
    · exact r.takeDecision.settle
    · exact r
  | peerSilenceExpiry l =>
    refine of_next h (r.whenReady _ ?_)
    unfold peerSilence
    split
    · exact (r.silenceCheck l).settle
    · exact r
  | helloTimer =>
    refine of_next h (r.whenReady _ ?_)
    unfold helloExpiry
    split
    · exact r.helloTrigger.kick
    · exact r
  | patrolInterval =>
    refine of_next h (r.whenReady _ ?_)
    unfold patrolExpiry
    split
    · exact r.quiet (by rfl)
    · exact r
  | pullSilenceExpiry =>
    refine of_next h (r.whenReady _ ?_)
    unfold pullTimeout
    split
    · exact (r.failPull _ _).settle
    · exact r
  | creditSilenceExpiry =>
    refine of_next h (r.whenReady _ ?_)
    unfold creditTimeout
    split
    · exact (r.endService _ _).settle
    · exact r
  | permitToggle =>
    refine of_next h (r.whenReady _ ?_)
    unfold togglePermit
    split
    · exact r.quiet (by rfl)
    · exact r
  | invalidFrame l bs => exact of_next h (r.whenReady _ (r.receiveBytes _ _))
  | helloReceived l fp f => exact of_next h (r.whenReady _ (r.receive _ _))
  | voteReceived l fp f => exact of_next h (r.whenReady _ (r.receive _ _))
  | pullReceived l fp f => exact of_next h (r.whenReady _ (r.receive _ _))
  | blockReceived l fp f => exact of_next h (r.whenReady _ (r.receive _ _))
  | creditReceived l fp n => exact of_next h (r.whenReady _ (r.receive _ _))
  | pullEndReceived l fp f => exact of_next h (r.whenReady _ (r.receive _ _))
  | frameTransmitEnd l => exact of_next h (r.whenReady _ (r.transmitEnd _))
  | arrayDisturbance w f v => exact of_next h (r.mem _ (Memory.wf_put _ _ _))

/-- Every step keeps the laws of `Kept`. -/
theorem kept_step (s t : State) (h : step s = .next t) : Kept s t := by
  unfold step at h
  split at h
  · cases h
    unfold tick
    split
    · exact .refl s
    · exact (Kept.refl s).quiet (by rfl)
  · rename_i c rest _
    exact ((Kept.refl s).quiet (u := { s with pending := rest }) rfl).trans (kept_exec c _ t h)

/-- Settles O57. -/
theorem arrayKeepsItsForm : Obligations.ArrayKeepsItsForm := fun s t hs h => (kept_step s t h).array hs

/-- Settles O58. -/
theorem queuesKeepTheirLaws : Obligations.QueuesKeepTheirLaws :=
  ⟨fun s t he ha h => ⟨(kept_step s t h).event he, (kept_step s t h).alert ha⟩,
    fun s t hq hh h => ⟨(kept_step s t h).queue hq, (kept_step s t h).held hh⟩⟩

/-- Settles O59. -/
theorem journalKeepsItsLaw : Obligations.JournalKeepsItsLaw := fun s t hj hr h =>
  ⟨(kept_step s t h).journal hj, (kept_step s t h).revert hj hr⟩

end Sys2Proof.Machine
end

section
/-! PROOFS. Resets and the step: the power-on values (R15 and the other reset tables), the two edges of RESET_N (R167) with
the array under a grant cut short (R52, R53), and which command a step runs. -/

namespace Sys2Proof.Machine

open Sys2Proof

/-! ### The array after writes in order -/

/-- A word that the list of visits does not name stays as it is. -/
theorem memGet_storeVisits_of_not_mem (l : List (Nat × Option Word)) (m : List (Nat × StoredWord)) (a : Nat)
    (h : a ∉ l.map Prod.fst) : memGet (l.foldl storeVisit m) a = memGet m a := by
  induction l generalizing m with
  | nil => rfl
  | cons x l ih =>
    simp only [List.map_cons, List.mem_cons, not_or] at h
    obtain ⟨hx, hl⟩ := h
    rw [List.foldl_cons, ih _ hl]
    unfold storeVisit
    split
    · rw [memGet_memPut, if_neg (fun hh => hx hh.1.symm)]
    · rfl

/-- A word that is visited once holds what its visit stores, and what it held where the visit stores nothing. -/
theorem memGet_storeVisits_of_mem (l : List (Nat × Option Word)) (m : List (Nat × StoredWord)) (a : Nat)
    (v : Option Word) (nd : (l.map Prod.fst).Nodup) (h : (a, v) ∈ l) :
    memGet (l.foldl storeVisit m) a = memGet (storeVisit m (a, v)) a := by
  induction l generalizing m with
  | nil => cases h
  | cons x l ih =>
    simp only [List.map_cons, List.nodup_cons] at nd
    obtain ⟨hx, hnd⟩ := nd
    rw [List.foldl_cons]
    rcases List.mem_cons.1 h with rfl | hl
    · exact memGet_storeVisits_of_not_mem l _ a hx
    · have hne : x.1 ≠ a := fun e => hx (e ▸ List.mem_map_of_mem (f := Prod.fst) hl)
      have keep : memGet (storeVisit m x) a = memGet m a := by
        simpa using memGet_storeVisits_of_not_mem [x] m a (by simpa using hne.symm)
      rw [ih _ hnd hl]
      cases v with
      | none => exact keep
      | some w => simp only [storeVisit, memGet_memPut, true_and]; split <;> [rfl; exact keep]

/-- The content that power-on finds, word by word (R41). -/
theorem memGet_memOf_of_mem (content : List (Nat × StoredWord)) (m : List (Nat × StoredWord))
    (nd : (content.map Prod.fst).Nodup) (e : Nat × StoredWord) (he : e ∈ content) (hw : e.1 < Config.words) :
    memGet (content.foldl (fun m e => memPut m e.1 e.2) m) e.1 = normalWord e.2 := by
  have skip : ∀ (l m : List (Nat × StoredWord)), e.1 ∉ l.map Prod.fst →
      memGet (l.foldl (fun m e => memPut m e.1 e.2) m) e.1 = memGet m e.1 := by
    intro l
    induction l with
    | nil => exact fun _ _ => rfl
    | cons x l ih =>
      intro m h
      simp only [List.map_cons, List.mem_cons, not_or] at h
      rw [List.foldl_cons, ih _ h.2, memGet_memPut, if_neg (fun hh => h.1 hh.1.symm)]
  induction content generalizing m with
  | nil => cases he
  | cons x l ih =>
    simp only [List.map_cons, List.nodup_cons] at nd
    obtain ⟨hx, hnd⟩ := nd
    rcases List.mem_cons.1 he with rfl | hl
    · rw [List.foldl_cons, skip l _ hx, memGet_memPut, if_pos ⟨rfl, hw⟩]
    · exact ih _ hnd hl

/-- An address that the content does not list reads as an unlisted word (notes/assumptions/1). -/
theorem memGet_memOf_of_not_mem (content : List (Nat × StoredWord)) (m : List (Nat × StoredWord)) (a : Nat)
    (h : a ∉ content.map Prod.fst) :
    memGet (content.foldl (fun m e => memPut m e.1 e.2) m) a = memGet m a := by
  induction content generalizing m with
  | nil => rfl
  | cons x l ih =>
    simp only [List.map_cons, List.mem_cons, not_or] at h
    rw [List.foldl_cons, ih _ h.2, memGet_memPut, if_neg (fun hh => h.1 hh.1.symm)]

/-- Settles O1: both branches of power-on are records of constants around the content. -/
theorem powerOnValues : Obligations.PowerOnValues := by
  intro p content s
  refine ⟨_, rfl, ?_⟩
  have values : (keepQueue s
      (if s.resetLow then heldInReset p (memOf content) else State.afterPower p (memOf content))) =
      { State.reset with
        pending := s.pending, resetLow := s.resetLow, position := p, lkc.helloTimer := !s.resetLow,
        mpu.mem := memOf content } := by
    cases hr : s.resetLow <;> rfl
  rw [values]
  exact ⟨rfl, Memory.wf_memOf content, fun nd e he hw => memGet_memOf_of_mem content [] nd e he hw,
    fun a ha => memGet_memOf_of_not_mem content [] a ha⟩

/-- Settles O2: the state after power-on is a constant, and every law of it evaluates. -/
theorem resetValuesAndLaws : Obligations.ResetValuesAndLaws := by
  refine ⟨⟨rfl, rfl, rfl⟩, ⟨rfl, rfl⟩, ⟨rfl, rfl, rfl⟩, ⟨rfl, rfl, rfl, rfl⟩, ⟨rfl, rfl⟩,
    ⟨rfl, rfl, rfl, rfl, rfl, rfl, rfl, rfl, rfl, rfl, rfl⟩, ⟨rfl, rfl, rfl, rfl, rfl, rfl, rfl⟩, ?links,
    ⟨rfl, rfl, rfl, rfl, rfl, rfl, rfl, rfl, rfl⟩,
    ⟨rfl, rfl, rfl, rfl, rfl, rfl, rfl, rfl, rfl, rfl, rfl, rfl, rfl, rfl⟩, ?commands, ?laws⟩
  case links => intro l; cases l <;> exact ⟨rfl, rfl, rfl⟩
  case commands =>
    refine ⟨rfl, rfl, fun _ => rfl, fun i hi => ?_, rfl, rfl, rfl, rfl, rfl, rfl⟩
    rw [responseWord, if_neg hi]
    rfl
  case laws =>
    refine ⟨rfl, rfl, rfl, rfl, rfl, rfl, rfl, by decide, by decide, rfl, rfl, rfl, rfl, by decide, rfl, ?_, rfl, rfl,
      rfl, rfl, rfl, rfl, rfl⟩
    intro l
    cases l <;> decide

/-- Settles O3, by the definition of a step. -/
theorem stepRunsTheFrontCommand : Obligations.StepRunsTheFrontCommand := by
  refine ⟨fun c rest s h => ?_, fun s h hr => ?_, fun s h hr => ?_⟩
  · rw [step, h]
  · simp [step, tick, h, hr]
  · simp [step, tick, h, hr]

/-! ### The grant that a pin reset cuts short -/

/-- The first places of pairs come from the first list, in its order. -/
theorem zip_fst_sublist {α β : Type} (l : List α) (m : List β) : ((l.zip m).map Prod.fst).Sublist l := by
  induction l generalizing m with
  | nil => exact List.nil_sublist _
  | cons a l ih =>
    cases m with
    | nil => exact List.nil_sublist _
    | cons b m => exact (ih m).cons_cons a

/-- The words of a block write have addresses of their own. -/
theorem nodup_blockWrites (b : Nat) (ws : List Word) : ((blockWrites b ws).map Prod.fst).Nodup :=
  (zip_fst_sublist _ _).nodup (blockWords_nodup b)

/-- The known words of a journal entry have addresses of their own. -/
theorem nodup_knownWrites (e : JournalEntry) : ((knownWrites e).map Prod.fst).Nodup := by
  unfold knownWrites
  rw [List.map_map]
  have sub : List.Sublist
      ((((blockWords e.block).zip (e.words.zip e.known)).filter (fun w => w.2.2)).map
        (Prod.fst ∘ fun w => (w.1, w.2.1)))
      (((blockWords e.block).zip (e.words.zip e.known)).map Prod.fst) :=
    List.Sublist.map _ List.filter_sublist
  exact (sub.trans (zip_fst_sublist _ _)).nodup (blockWords_nodup _)

/-- Writes are visits of the same words. -/
theorem map_fst_writeVisits (ws : List (Nat × Word)) : (writeVisits ws).map Prod.fst = ws.map Prod.fst := by
  simp [writeVisits]

/-- A block read visits the words of its block. -/
theorem map_fst_readVisits (s : State) (b : Nat) : (readVisits s b).map Prod.fst = blockWords b := by
  simp [readVisits, Function.comp_def]

/-- A grant visits each word at most once (R42). -/
theorem nodup_grantVisits (s : State) (g : Grant) : ((grantVisits s g).map Prod.fst).Nodup := by
  cases g <;> simp only [grantVisits] <;> split <;>
    simp [map_fst_writeVisits, map_fst_readVisits, nodup_blockWrites, nodup_knownWrites, blockWords_nodup]

/-- The array after a grant of which the first words are finished, and the word of one visit, if any, is torn. -/
def tornArray (m : List (Nat × StoredWord)) (visits : List (Nat × Option Word)) (n : Nat) (torn : Option StoredWord) :
    List (Nat × StoredWord) :=
  match visits[n]?, torn with
  | some v, some w => memPut ((visits.take n).foldl storeVisit m) v.1 w
  | _, _ => (visits.take n).foldl storeVisit m

/-- The array that a pin reset leaves of a grant. -/
theorem cutArray_eq_tornArray (s : State) (c : Cut) (g : Grant) (p : Nat) (h : nextGrant s = some (g, p)) :
    cutArray s c = tornArray s.mpu.mem (grantVisits s g) c.done c.torn := by
  unfold cutArray tornArray
  rw [h, ← List.head?_drop]
  dsimp only
  cases (grantVisits s g).drop c.done <;> cases c.torn <;> rfl

/-- The torn word is that of the visit in progress; every other word is as the finished visits leave it. -/
theorem memGet_tornArray (m : List (Nat × StoredWord)) (visits : List (Nat × Option Word)) (n : Nat)
    (torn : Option StoredWord) (a : Nat) (h : torn = none ∨ ∀ v, visits[n]? ≠ some (a, v)) :
    memGet (tornArray m visits n torn) a = memGet ((visits.take n).foldl storeVisit m) a := by
  unfold tornArray
  split
  case h_1 torn v w hv =>
    rw [memGet_memPut, if_neg]
    rintro ⟨rfl, -⟩
    rcases h with h | h
    · cases h
    · exact h v.2 hv
  case h_2 => rfl

/-- Visits at different places are of different words. -/
theorem visit_place_unique {visits : List (Nat × Option Word)} (nd : (visits.map Prod.fst).Nodup) {i j a : Nat}
    {v w : Option Word} (hi : visits[i]? = some (a, v)) (hj : visits[j]? = some (a, w)) : i = j := by
  have mi : (visits.map Prod.fst)[i]? = some a := by simp [hi]
  have mj : (visits.map Prod.fst)[j]? = some a := by simp [hj]
  obtain ⟨li, -⟩ := List.getElem?_eq_some_iff.1 mi
  exact (List.getElem?_inj li nd).1 (mi.trans mj.symm)

/-- A word whose visit is not finished is not among the finished ones. -/
theorem not_mem_take_visits {visits : List (Nat × Option Word)} (nd : (visits.map Prod.fst).Nodup) {n i a : Nat}
    {v : Option Word} (hi : visits[i]? = some (a, v)) (hn : n ≤ i) : a ∉ (visits.take n).map Prod.fst := by
  intro h
  obtain ⟨⟨a', w⟩, hw, rfl⟩ := List.mem_map.1 h
  obtain ⟨j, hj⟩ := List.mem_iff_getElem?.1 hw
  rw [List.getElem?_take] at hj
  split at hj
  case isTrue hlt => exact absurd (visit_place_unique nd hi hj) (by omega)
  case isFalse => cases hj

/-- What a grant cut short leaves of the array, word by word (R52, R53). -/
theorem memGet_tornArray_cases (m : List (Nat × StoredWord)) (visits : List (Nat × Option Word)) (n : Nat)
    (torn : Option StoredWord) (nd : (visits.map Prod.fst).Nodup) :
    (∀ a, a ∉ visits.map Prod.fst → memGet (tornArray m visits n torn) a = memGet m a) ∧
    (∀ a v, visits[n]? = some (a, v) → torn = none → memGet (tornArray m visits n torn) a = memGet m a) ∧
    (∀ i a v, i < n → visits[i]? = some (a, some v) → a < Config.words →
      memGet (tornArray m visits n torn) a = freshWord v) ∧
    (∀ i a, i < n → visits[i]? = some (a, none) → memGet (tornArray m visits n torn) a = memGet m a) ∧
    (∀ a v w, visits[n]? = some (a, v) → torn = some w → a < Config.words →
      memGet (tornArray m visits n torn) a = normalWord w) ∧
    ∀ i a v, n < i → visits[i]? = some (a, v) → memGet (tornArray m visits n torn) a = memGet m a := by
  have finished : ∀ {i a v}, i < n → visits[i]? = some (a, v) →
      memGet (tornArray m visits n torn) a = memGet (storeVisit m (a, v)) a := by
    intro i a v hi hv
    rw [memGet_tornArray m visits n torn a (Or.inr fun w hw => absurd (visit_place_unique nd hv hw) (by omega))]
    refine memGet_storeVisits_of_mem _ m a v ((List.Sublist.map _ (List.take_sublist n visits)).nodup nd) ?_
    exact List.mem_iff_getElem?.2 ⟨i, by rw [List.getElem?_take, if_pos hi, hv]⟩
  refine ⟨fun a ha => ?_, fun a v hv ht => ?_, fun i a v hi hv ha => ?_, fun i a hi hv => finished hi hv,
    fun a v w hv ht ha => ?_, fun i a v hi hv => ?_⟩
  · rw [memGet_tornArray m visits n torn a
      (Or.inr fun w hw => ha (List.mem_map.2 ⟨_, List.mem_iff_getElem?.2 ⟨n, hw⟩, rfl⟩))]
    refine memGet_storeVisits_of_not_mem _ m a (fun h => ha ?_)
    exact (List.Sublist.map _ (List.take_sublist n visits)).subset h
  · rw [memGet_tornArray m visits n torn a (Or.inl ht)]
    exact memGet_storeVisits_of_not_mem _ m a (not_mem_take_visits nd hv (Nat.le_refl n))
  · rw [finished hi hv, storeVisit, memGet_memPut, if_pos ⟨rfl, ha⟩, normalWord_fresh]
  · simp only [tornArray, hv, ht, memGet_memPut, ha, and_self, if_true]
  · rw [memGet_tornArray m visits n torn a (Or.inr fun w hw => absurd (visit_place_unique nd hv hw) (by omega))]
    exact memGet_storeVisits_of_not_mem _ m a (not_mem_take_visits nd hv (Nat.le_of_lt hi))

/-- The array at a pin reset, which only a grant in progress may have changed. -/
theorem arrayAtReset_of_idle (s : State) (cut : Option Cut)
    (h : cut = none ∨ s.resetLow = true ∨ nextGrant s = none) : arrayAtReset s cut = s.mpu.mem := by
  unfold arrayAtReset cutArray
  rcases h with rfl | h | h
  · rfl
  · cases cut <;> simp [h]
  · cases cut <;> simp [h]

/-! ### RESET_N low -/

/-- A software command is the presenting of its frame. -/
theorem exec_software (cmd : Command) (tag : Byte) (ps : List Word) (s : State) :
    exec (Claim.software cmd tag ps) s = .next (presentCommand cmd tag ps s) := by
  cases cmd <;> rfl

/-- While RESET_N is low nothing that waits for it acts (R38, R167). -/
theorem whenReady_of_low (f : State → State) (s : State) (h : s.resetLow = true) : whenReady f s = s := if_pos h

/-- With RESET_N high it acts. -/
theorem whenReady_of_ready (f : State → State) (s : State) (h : s.resetLow = false) : whenReady f s = f s :=
  if_neg (by simp [h])

/-- While RESET_N is low a transfer is answered WAIT and not kept. -/
theorem transfer_of_low (ini : Initiator) (write : Bool) (addr : BitVec 26) (be : BitVec 4) (data : Word) (s : State)
    (h : s.resetLow = true) : transfer ini write addr be data s = giveAnswer ini .wait 0 s := if_pos h

/-- Settles O4: the assert's array is `tornArray`, and while RESET_N is low every command goes through `whenReady`. -/
theorem resetPinHoldsAndReleases : Obligations.ResetPinHoldsAndReleases := by
  refine ⟨fun cut s => ⟨_, rfl, rfl, arrayAtReset_of_idle s cut, ?cut⟩, fun p s => ⟨fun h => ?_, fun h => ?_⟩,
    fun s h => ⟨?_, ?_, ?_, ?_, ?_, ?_, ?_, ?_, ?_, ?_, ?_⟩⟩
  case cut =>
    intro c g p hc hr hg
    have array : (keepQueue s (heldInReset s.position (arrayAtReset s cut))).mpu.mem =
        tornArray s.mpu.mem (grantVisits s g) c.done c.torn := by
      rw [← cutArray_eq_tornArray s c g p hg, hc]
      exact if_neg (by simp [hr])
    rw [array]
    exact memGet_tornArray_cases _ _ _ _ (nodup_grantVisits s g)
  · exact congrArg Host.Outcome.next (if_pos h)
  · exact congrArg Host.Outcome.next (if_neg (by simp [h]))
  · exact fun ini addr be => congrArg Host.Outcome.next (transfer_of_low _ _ _ _ _ s h)
  · exact fun ini addr be data => congrArg Host.Outcome.next (transfer_of_low _ _ _ _ _ s h)
  · exact fun cmd tag ps => (exec_software cmd tag ps s).trans (congrArg Host.Outcome.next (if_pos h))
  · intro c hc
    simp only [List.mem_cons, List.not_mem_nil, or_false] at hc
    rcases hc with rfl | rfl | rfl | rfl | rfl | rfl | rfl | rfl | rfl | rfl | rfl | rfl | rfl | rfl | rfl | rfl | rfl |
      rfl | rfl | rfl | rfl | rfl | rfl | rfl | rfl | rfl | rfl | rfl <;>
      exact congrArg Host.Outcome.next (whenReady_of_low _ s h)
  all_goals intros; exact congrArg Host.Outcome.next (whenReady_of_low _ s h)

end Sys2Proof.Machine
end

section
/-! PROOFS. Transfers at the processor bus (R17 to R24, R28 to R32): which region a block lies in, the access check, how a
transfer is answered or held, how its refusal is recorded, and the aperture (R18, R19). -/

namespace Sys2Proof.Machine

open Sys2Proof

/-! ### Regions and slots of a lawful table -/

/-- Of the entries of a rising list that satisfy a test no two satisfy together, the search finds the one that is listed. -/
theorem find?_iff_assocFind {α : Type} (l : List (Nat × α)) (hl : assocRising 0 l = true) (q : Nat × α → Bool)
    (hq : l.Pairwise fun a b => ¬(q a = true ∧ q b = true)) (i : Nat) (v : α) :
    l.find? q = some (i, v) ↔ assocFind l i = some v ∧ q (i, v) = true := by
  constructor
  · intro h
    exact ⟨assocFind_of_mem l 0 hl (i, v) (List.mem_of_find?_eq_some h), List.find?_some h⟩
  · rintro ⟨hf, ht⟩
    have hm := mem_of_assocFind l i v hf
    clear hl hf
    induction l with
    | nil => cases hm
    | cons x l ih =>
      obtain ⟨hx, hl⟩ := List.pairwise_cons.1 hq
      rcases List.mem_cons.1 hm with rfl | hm
      · exact List.find?_cons_of_pos ht
      · rw [List.find?_cons_of_neg (fun h => hx _ hm ⟨h, ht⟩)]
        exact ih hl hm

/-- In a lawful table a block's region is the loaded one that contains it (R3). -/
theorem regionOf_iff (s : State) (h : tableLaw s = true) (b i : Nat) (r : Region) :
    regionOf s b = some (i, r) ↔ assocFind s.rgt.entries i = some r ∧ r.desc.covers b = true := by
  obtain ⟨rising, -, apart⟩ := (tableLaw_iff s).1 h
  refine find?_iff_assocFind _ rising _ (apart.imp fun {a c} hac => ?_) i r
  simp only [descriptorsApart, Descriptor.overlaps, Descriptor.covers, Bool.and_eq_true, Bool.not_eq_true',
    Bool.and_eq_false_iff, decide_eq_false_iff_not, decide_eq_true_eq] at hac ⊢
  omega

/-- In a lawful table a slot's region is the signed one that names it (R54). -/
theorem slotRegion_iff (s : State) (h : tableLaw s = true) (k i : Nat) (r : Region) :
    slotRegion s k = some (i, r) ↔
      assocFind s.rgt.entries i = some r ∧ r.desc.signed = true ∧ r.desc.slot = k := by
  obtain ⟨rising, -, apart⟩ := (tableLaw_iff s).1 h
  have found := find?_iff_assocFind s.rgt.entries rising (fun e => e.2.desc.signed && e.2.desc.slot == k)
    (apart.imp fun {a c} hac => ?_) i r
  · simpa [slotRegion, Bool.and_eq_true] using found
  · simp only [descriptorsApart, Bool.and_eq_true, Bool.not_eq_true', Bool.and_eq_false_iff, beq_eq_false_iff_ne,
      beq_iff_eq] at hac ⊢
    rintro ⟨⟨ha, hak⟩, hc, hck⟩
    simp [ha, hc, hak, hck] at hac

/-! ### A memory transfer -/

/-- The block of the word at a byte address. -/
theorem blockOf_div (a : Nat) : blockOf (a / 4) = a / 64 := Nat.div_div_eq_div_mul a 4 16

/-- A transfer below the aperture goes to the memory port. -/
theorem transfer_memory (ini : Initiator) (write : Bool) (addr : BitVec 26) (be : BitVec 4) (data : Word) (s : State)
    (hr : s.resetLow = false) (ha : addr.toNat < 0x400000) :
    transfer ini write addr be data s = arrive ⟨ini, write, addr.toNat / 4, be, data⟩ s := by
  simp only [transfer, hr, Bool.false_eq_true, if_false]
  exact if_pos ha

/-- During a port hold a transfer is held by it (R36). -/
theorem arrive_of_portHold (t : Transfer) (s : State) (hf : heldOf s t.ini = none) (hp : portHold s = true) :
    arrive t s = Claim.held t .port s := by
  simp only [arrive, hf, hp, Option.isSome_none, Bool.false_eq_true, if_false, if_true]
  rfl

/-- A transfer that is judged and not held is answered by its judgement. -/
theorem arrive_of_answered (t : Transfer) (s u : State) (hf : heldOf s t.ini = none) (hp : portHold s = false)
    (hj : judge false t s = (u, none)) : arrive t s = u := by
  simp only [arrive, hf, hp, hj, Option.isSome_none, Bool.false_eq_true, if_false]

/-- A transfer that is judged and held waits for that reason. -/
theorem arrive_of_held (t : Transfer) (s : State) (h : Hold) (hf : heldOf s t.ini = none) (hp : portHold s = false)
    (hj : judge false t s = (s, some h)) : arrive t s = Claim.held t h s := by
  simp only [arrive, hf, hp, hj, Option.isSome_none, Bool.false_eq_true, if_false]
  rfl

/-! ### The access check -/

/-- With INIT_MEMORY over, a transfer into a region passes the access check when its right is given and, for a write, the
phase check holds (R20). -/
theorem accessCheck_of_region (s : State) (t : Transfer) (i : Nat) (r : Region) (hi : s.mpu.initOp = none)
    (hreg : regionOf s (blockOf t.word) = some (i, r)) :
    accessCheck s t =
      if r.desc.rights.getLsbD (rightBit t.ini t.write) then
        if t.write then (phaseRefusal s r.desc.kind).map (fun reason => (reason, some i)) else none
      else some (.rights, some i) := by
  simp only [accessCheck, hi, hreg, Option.isSome_none, Bool.false_eq_true, if_false]

/-- A transfer that fails a check is refused with ERROR and its event (R22). -/
theorem judge_of_refused (w : Bool) (t : Transfer) (s : State) (reason : AccessReason) (region : Option Nat)
    (h : accessCheck s t = some (reason, region)) :
    judge w t s = (Claim.answered t.ini .error 0 (recordRefusal reason t.ini (byteAddr t.word) region s), none) := by
  simp only [judge, h]
  rfl

/-- A write that passes is held while the hold flag is set, and accepted while it is clear (R24, R28). -/
theorem judge_write (w : Bool) (t : Transfer) (s : State) (h : accessCheck s t = none) (hw : t.write = true) :
    judge w t s =
      if s.pwq.hold then (s, some .backpressure) else (Claim.answered t.ini .okay 0 (acceptWrite t s), none) := by
  simp only [judge, h, hw, if_true]
  rfl

/-- A read that passes waits for the queued entries for its word, for a rollback, or for the memory port (R30 to R32). -/
theorem judge_read (t : Transfer) (s : State) (h : accessCheck s t = none) (hw : t.write = false) :
    judge false t s =
      (s, some
        (if 0 < queuedFor s t.word then .hazard (queuedFor s t.word)
         else if signedBlock s (blockOf t.word) = true ∧ s.cju.chan = some .rollingBack then .rollback
         else .access)) := by
  simp only [judge, h, hw, Bool.false_eq_true, if_false, true_and]
  (repeat' split) <;> rfl

/-- Below the upper threshold the hold flag is clear, so an accepted write sets it exactly when it reaches the threshold
(R28). -/
theorem acceptWrite_of_region (t : Transfer) (s : State) (i : Nat) (r : Region)
    (hreg : regionOf s (blockOf t.word) = some (i, r)) (hh : s.pwq.hold = false) (hb : t.be ≠ 0) :
    acceptWrite t s =
      { s with
        pwq := { s.pwq with
          entries := s.pwq.entries ++ [⟨t.word, t.data, t.be, t.ini, i, r.desc.signed⟩]
          hold := decide (s.pwq.upper ≤ s.pwq.entries.length + 1) } } := by
  simp only [acceptWrite, hreg, hb, if_false, raiseHold, List.length_append, List.length_singleton]
  split
  case isTrue h => simp [h]
  case isFalse h => simp [h, hh]

/-- Settles O6: the write passes the access check and is accepted. -/
theorem writeIsPosted : Obligations.WriteIsPosted := by
  intro ini addr be data s i r hr ha hf hp hi hreg hright hphase hh
  have hreg' : regionOf s (blockOf (addr.toNat / 4)) = some (i, r) := by rwa [blockOf_div]
  have check : accessCheck s ⟨ini, true, addr.toNat / 4, be, data⟩ = none := by
    rw [accessCheck_of_region s _ i r hi hreg']
    simp [hright, hphase]
  have judged := judge_write false _ s check rfl
  rw [hh, if_neg (by simp)] at judged
  refine congrArg Host.Outcome.next ((transfer_memory ini true addr be data s hr ha).trans ?_)
  rw [arrive_of_answered _ s _ hf hp judged]
  by_cases hb : be = 0
  · simp [acceptWrite, hb]
  · rw [acceptWrite_of_region _ s i r hreg' hh hb, if_neg hb]

/-- Settles O7: each hold is what `arrive` finds, or what the judgement of the transfer names. -/
theorem heldTransfersWait : Obligations.HeldTransfersWait := by
  refine ⟨fun ini addr be data s hr ha hf => ⟨fun hp => ?port, fun hp => ⟨fun hc hh => ?full, fun hc => ?reads⟩⟩, ?access⟩
  case port =>
    exact ⟨congrArg Host.Outcome.next ((transfer_memory ini false addr be 0 s hr ha).trans (arrive_of_portHold _ s hf hp)),
      congrArg Host.Outcome.next ((transfer_memory ini true addr be data s hr ha).trans (arrive_of_portHold _ s hf hp))⟩
  case full =>
    refine congrArg Host.Outcome.next ((transfer_memory ini true addr be data s hr ha).trans ?_)
    exact arrive_of_held _ s _ hf hp (by rw [judge_write false _ s hc rfl, if_pos hh])
  case reads =>
    have read := judge_read ⟨ini, false, addr.toNat / 4, be, 0⟩ s hc rfl
    refine ⟨fun hq => ?_, fun hq hroll hsig => ?_⟩
    · refine congrArg Host.Outcome.next ((transfer_memory ini false addr be 0 s hr ha).trans ?_)
      exact arrive_of_held _ s _ hf hp (read.trans (by simp only [queuedFor, hq, if_true]))
    · refine congrArg Host.Outcome.next ((transfer_memory ini false addr be 0 s hr ha).trans ?_)
      refine arrive_of_held _ s _ hf hp ?_
      rw [read, if_neg (by simp only [queuedFor, hq]; omega), if_pos ⟨by rwa [blockOf_div], hroll⟩]
  case access =>
    intro ini addr be s i r hr ha hf hp hi hreg hright hqueue hroll
    have hreg' : regionOf s (blockOf (addr.toNat / 4)) = some (i, r) := by rwa [blockOf_div]
    have check : accessCheck s ⟨ini, false, addr.toNat / 4, be, 0⟩ = none := by
      rw [accessCheck_of_region s _ i r hi hreg']
      simp [hright]
    have none_queued : queuedFor s (addr.toNat / 4) = 0 := by
      simpa [queuedFor, List.countP_eq_zero] using hqueue
    have signed : signedBlock s (blockOf (addr.toNat / 4)) = r.desc.signed := by simp [signedBlock, hreg']
    refine congrArg Host.Outcome.next ((transfer_memory ini false addr be 0 s hr ha).trans ?_)
    refine arrive_of_held _ s _ hf hp ?_
    rw [judge_read _ s check rfl, if_neg (by simp [none_queued]), if_neg (by simpa [signed] using hroll)]

/-! ### Refusals -/

/-- The phase check of R4 on a signed kind, with check 4 of R20 before it. -/
theorem phaseRefusal_of_signed (s : State) (k : RegionKind) (hk : k ≠ .plain) :
    (s.cju.chan = some .catchup ∨ s.cju.chan = some .restoring → phaseRefusal s k = some .restoring) ∧
    (s.cju.chan ≠ some .catchup → s.cju.chan ≠ some .restoring →
      (s.dev = .configuring → phaseRefusal s k = none) ∧ (s.dev = .signing → phaseRefusal s k = some .phase) ∧
      (s.dev = .running →
        phaseRefusal s k = if s.cju.chan = some .opened ∧ k = .vital then none else some .phase)) := by
  have signed : k.signed = true := by cases k <;> first | rfl | exact absurd rfl hk
  refine ⟨fun h => ?_, fun h1 h2 => ?_⟩
  · rcases h with h | h <;> simp [phaseRefusal, signed, h]
  · unfold phaseRefusal
    rw [if_pos signed]
    split
    · rename_i h; exact absurd h h1
    · rename_i h; exact absurd h h2
    · exact ⟨fun h => by rw [h], fun h => by rw [h], fun h => by rw [h]⟩

/-- Settles O8: the first failed check is the one that `accessCheck` names. -/
theorem accessCheckRefuses : Obligations.AccessCheckRefuses := by
  refine ⟨fun b i r s h => ?_, fun k i r s h => slotRegion_iff s h k i r, ?refused,
    fun s => ⟨rfl, fun k hk => phaseRefusal_of_signed s k hk⟩⟩
  · rw [regionOf_iff s h]
    simp [Descriptor.covers]
  case refused =>
    intro ini addr be data s reason region write hr ha hf hp hcase
    have refused : ∀ data : Word,
        accessCheck s ⟨ini, write, addr.toNat / 4, be, data⟩ = some (reason, region) := by
      intro data
      rcases hcase with ⟨hi, rfl, rfl⟩ | ⟨hi, hreg, rfl, rfl⟩ | ⟨hi, i, r, hreg, rfl, hfail⟩
      · simp [accessCheck, hi, blockOf_div]
      · simp [accessCheck, hi, blockOf_div, hreg]
      · rw [accessCheck_of_region s _ i r hi (by rwa [blockOf_div])]
        rcases hfail with ⟨hright, rfl⟩ | ⟨hright, rfl, hphase⟩
        · simp [hright]
        · simp [hright, hphase]
    have answered : ∀ data : Word, transfer ini write addr be data s =
        Claim.answered ini .error 0 (recordRefusal reason ini (4 * (addr.toNat / 4)) region s) := fun data =>
      (transfer_memory ini write addr be data s hr ha).trans
        (arrive_of_answered _ s _ hf hp (judge_of_refused false _ s reason region (refused data)))
    cases write
    · exact congrArg Host.Outcome.next (answered 0)
    · exact congrArg Host.Outcome.next (answered data)

/-! ### The record of a refusal -/

/-- Recording an event with room appends its record, and ALERT looks at it under its own mask bit (R177, R180). -/
theorem recordEvent_eq_of_room (b : EventBody) (s : State) (h : s.cmu.events.length < 64) :
    recordEvent b s =
      { s with
        cmu := { s.cmu with
          events := s.cmu.events ++ [⟨s.cmu.nextSeq, s.cmu.ms, s.cju.cycle + 1, b⟩]
          nextSeq := s.cmu.nextSeq + 1
          alert := alertLevel (s.cmu.events ++ [⟨s.cmu.nextSeq, s.cmu.ms, s.cju.cycle + 1, b⟩]) s.cmu.mask } } := by
  simp only [recordEvent, Cmu.record, Config.eventMax, h, if_true]
  rfl

/-- A full queue drops the event and counts it. -/
theorem recordEvent_eq_of_full (b : EventBody) (s : State) (h : 64 ≤ s.cmu.events.length) :
    recordEvent b s =
      { s with
        cmu := { s.cmu with
          nextSeq := s.cmu.nextSeq + 1
          dropped := if s.cmu.dropped < 65535 then s.cmu.dropped + 1 else s.cmu.dropped } } := by
  have full : ¬s.cmu.events.length < Config.eventMax := Nat.not_lt.2 h
  simp only [recordEvent, Cmu.record, full, if_false]
  rfl

/-- ALERT over a queue with one record more. -/
theorem alertLevel_append (events : List Record) (r : Record) (mask : BitVec 19) :
    alertLevel (events ++ [r]) mask =
      (decide (events.length + 1 = 64) || alerts mask r.body || events.any (fun r => alerts mask r.body)) := by
  simp only [alertLevel, List.length_append, List.length_singleton, Config.eventMax, List.any_append, List.any_cons,
    List.any_nil, Bool.or_false, Bool.or_assoc]
  rw [Bool.or_comm (events.any _)]
  rfl

/-- A newest record of the same refusal takes it (R23). -/
theorem repeated_same (reason : AccessReason) (ini : Initiator) (a n : Nat) (region : Option Nat) :
    repeated reason ini region (.accessRefused reason ini a region n) =
      some (.accessRefused reason ini a region (if n < 255 then n + 1 else n)) := by
  simp [repeated, satInc]

/-- Any other newest record does not. -/
theorem repeated_other (reason : AccessReason) (ini : Initiator) (region : Option Nat) (b : EventBody)
    (h : ∀ a n, b ≠ .accessRefused reason ini a region n) : repeated reason ini region b = none := by
  unfold repeated
  split
  case h_1 reason' ini' a region' n =>
    rw [if_neg]
    rintro ⟨rfl, rfl, rfl⟩
    exact h a n rfl
  case h_2 => rfl

/-- A refusal that no newest record takes is an event of its own. -/
theorem recordRefusal_of_other (reason : AccessReason) (ini : Initiator) (a : Nat) (region : Option Nat) (s : State)
    (h : ∀ r ∈ s.cmu.events.getLast?, ∀ a' n, r.body ≠ .accessRefused reason ini a' region n) :
    recordRefusal reason ini a region s = recordEvent (.accessRefused reason ini a region 0) s := by
  unfold recordRefusal
  split
  case h_1 r hr => rw [repeated_other reason ini region r.body (h r hr)]
  case h_2 => rfl

/-- Settles O9: a refusal extends the newest record where it repeats it, and is recorded like any event otherwise. -/
theorem refusalsAreCollapsed : Obligations.RefusalsAreCollapsed := by
  intro reason ini a region s
  refine ⟨fun r a' n hr hb => ?_, fun h => ⟨fun room => ?_, fun full => ?_⟩⟩
  · simp only [recordRefusal, hr, hb, repeated_same]
  · rw [recordRefusal_of_other reason ini a region s h, recordEvent_eq_of_room _ s room, alertLevel_append]
    rfl
  · rw [recordRefusal_of_other reason ini a region s h, recordEvent_eq_of_full _ s full]

/-! ### The aperture -/

/-- A DATA transfer to the aperture reaches its word there (R18, R19). -/
theorem transfer_aperture (write : Bool) (addr : BitVec 26) (be : BitVec 4) (data : Word) (s : State)
    (hr : s.resetLow = false) (hl : 0x400000 ≤ addr.toNat) (hu : addr.toNat < 0x400800) :
    transfer .data write addr be data s =
      apertureTransfer write addr.toNat ((addr.toNat - 0x400000) / 4) be data s := by
  have below : ¬addr.toNat < Config.aperture := Nat.not_lt.2 hl
  have window : addr.toNat < Config.apertureEnd := hu
  simp only [transfer, hr, Bool.false_eq_true, below, window, if_false, and_self, if_true]
  rfl

/-- A transfer that no window takes is refused (R18). -/
theorem transfer_refused (ini : Initiator) (write : Bool) (addr : BitVec 26) (be : BitVec 4) (data : Word) (s : State)
    (hr : s.resetLow = false) (hl : 0x400000 ≤ addr.toNat) (h : ¬(addr.toNat < 0x400800 ∧ ini = .data)) :
    transfer ini write addr be data s = refuseAddress ini addr.toNat s := by
  have below : ¬addr.toNat < Config.aperture := Nat.not_lt.2 hl
  simp only [transfer, hr, Bool.false_eq_true, below, if_false]
  exact if_neg h

/-- A word of the request area (R19). -/
theorem apertureTransfer_request (write : Bool) (addr i : Nat) (be : BitVec 4) (data : Word) (s : State) (h : i < 255) :
    apertureTransfer write addr i be data s =
      if write then
        Claim.answered .data .okay 0
          { s with cmu.request := assocPut 0 s.cmu.request i (mergeBytes be (areaWord s.cmu.request i) data) }
      else Claim.answered .data .okay (areaWord s.cmu.request i) s :=
  if_pos h

/-- A read of the submit word. -/
theorem apertureTransfer_submit_read (addr : Nat) (be : BitVec 4) (data : Word) (s : State) :
    apertureTransfer false addr 255 be data s = Claim.answered .data .okay 0 s :=
  rfl

/-- A word of the response area: it is read, and no write of it is taken (R18, R19). -/
theorem apertureTransfer_response (write : Bool) (addr i : Nat) (be : BitVec 4) (data : Word) (s : State) (h : 255 < i) :
    apertureTransfer write addr i be data s =
      if write then refuseAddress .data addr s else Claim.answered .data .okay (responseWord s (i - 256)) s := by
  have h1 : ¬i < Config.requestWords := Nat.not_lt.2 (Nat.le_of_lt h)
  have h2 : i ≠ Config.requestWords := (Nat.ne_of_lt h).symm
  rw [apertureTransfer, if_neg h1, if_neg h2]
  rfl

/-- Settles O10: a refused address lies in no window, or is a write of the response area. -/
theorem addressDecodeRefuses : Obligations.AddressDecodeRefuses := by
  refine ⟨fun ini write addr be data s hr h => congrArg Host.Outcome.next ?_, fun ini addr be data s => ⟨rfl, rfl⟩⟩
  by_cases hw : addr.toNat < 0x400800 ∧ ini = .data
  · obtain ⟨hu, rfl⟩ := hw
    have hwrite : 0x400400 ≤ addr.toNat ∧ write = true := by
      rcases h with h | ⟨-, h⟩ | ⟨h, -, hw⟩
      · omega
      · exact absurd rfl h
      · exact ⟨h, hw⟩
    obtain ⟨hl, rfl⟩ := hwrite
    rw [transfer_aperture true addr be data s hr (by omega) hu, apertureTransfer_response _ _ _ _ _ _ (by omega),
      if_pos rfl]
    rfl
  · exact transfer_refused ini write addr be data s hr (by omega) hw

/-- The bits that the byte enables select, byte enable k for bits 8k to 8k + 7 (notes/assumptions/33). -/
theorem getLsbD_enableMask (be : BitVec 4) (b : Fin 32) : (enableMask be).getLsbD b = be.getLsbD (b / 8) := by
  revert be b
  decide

/-- A merge takes the enabled bytes of the new word (R19). -/
theorem getLsbD_mergeBytes (be : BitVec 4) (old new : Word) (b : Nat) (hb : b < 32) :
    (mergeBytes be old new).getLsbD b = if be.getLsbD (b / 8) then new.getLsbD b else old.getLsbD b := by
  have mask := getLsbD_enableMask be ⟨b, hb⟩
  simp only at mask
  simp only [mergeBytes, BitVec.getLsbD_or, BitVec.getLsbD_and, BitVec.getLsbD_not, mask, hb, decide_true, Bool.true_and]
  cases be.getLsbD (b / 8) <;> simp

/-- Settles O11: a write changes its word of the request area by bytes, and a read answers from the window it falls in. -/
theorem requestAreaTakesBytes : Obligations.RequestAreaTakesBytes := by
  refine ⟨fun addr be data s hr hl hu => ?write, fun addr be s hr hl hu => congrArg Host.Outcome.next ?read⟩
  case write =>
    have hi : (addr.toNat - 0x400000) / 4 < 255 := by omega
    have written : transfer .data true addr be data s =
        Claim.answered .data .okay 0
          { s with
            cmu.request := assocPut 0 s.cmu.request ((addr.toNat - 0x400000) / 4)
              (mergeBytes be (areaWord s.cmu.request ((addr.toNat - 0x400000) / 4)) data) } := by
      rw [transfer_aperture true addr be data s hr hl (by omega), apertureTransfer_request _ _ _ _ _ _ hi, if_pos rfl]
    refine ⟨_, congrArg Host.Outcome.next written, rfl, fun b hb => ?_, fun i hne => ?_⟩
    · simp only [Claim.answered, areaWord, assocGet_put, if_true]
      exact getLsbD_mergeBytes be _ data b hb
    · simp only [Claim.answered, areaWord, assocGet_put, hne.symm, if_false]
  case read =>
    rw [transfer_aperture false addr be 0 s hr hl hu]
    by_cases h1 : addr.toNat < 0x4003FC
    · rw [apertureTransfer_request _ _ _ _ _ _ (by omega), if_neg Bool.false_ne_true, if_pos h1]
    · rw [if_neg h1]
      by_cases h2 : addr.toNat < 0x400400
      · have hi : (addr.toNat - 0x400000) / 4 = 255 := by omega
        rw [hi, apertureTransfer_submit_read, if_pos h2]
      · have hi : (addr.toNat - 0x400000) / 4 - 256 = (addr.toNat - 0x400400) / 4 := by omega
        rw [apertureTransfer_response _ _ _ _ _ _ (by omega), if_neg Bool.false_ne_true, if_neg h2, hi]

end Sys2Proof.Machine
end

section
/-! PROOFS. Command frames (R168, R169, R183): the fields of a word put together from numbers, how a frame in the request area
is read, that every frame that fits reads back, and how the checks of steps 1 to 5 answer. -/

namespace Sys2Proof.Machine

open Sys2Proof

/-! ### Fields of a word -/

/-- A field as a number is the field as bits. -/
theorem fieldOf_eq_extractLsb' (w : Word) (low width : Nat) : fieldOf w low width = (w.extractLsb' low width).toNat := by
  rw [fieldOf, BitVec.extractLsb'_toNat, Nat.shiftRight_eq_div_pow]

/-- A bit of a packed word is a bit of one of its values. -/
theorem getLsbD_packWord (fs : List (Nat × Nat)) (i : Nat) (hi : i < 32) :
    (packWord fs).getLsbD i = fs.any (fun f => decide (f.2 ≤ i) && f.1.testBit (i - f.2)) := by
  induction fs with
  | nil => simp [packWord]
  | cons f fs ih =>
    have bit : (BitVec.ofNat 32 f.1 <<< f.2).getLsbD i = (decide (f.2 ≤ i) && f.1.testBit (i - f.2)) := by
      by_cases h : f.2 ≤ i
      · have hlt : i - f.2 < 32 := by omega
        simp only [BitVec.getLsbD_shiftLeft, BitVec.getLsbD_ofNat, hi, h, hlt, Nat.not_lt.2 h, decide_true, decide_false,
          Bool.not_false, Bool.true_and]
      · simp [h, Nat.lt_of_not_le h]
    rw [packWord, BitVec.getLsbD_or, ih, bit, List.any_cons]

/-- The three fields of word 0 of a command frame, and its low byte (12.2). -/
theorem commandHeader_fields (cmd : Command) (tag : Byte) (l : Nat) (hl : l < 256) :
    fieldOf (commandHeader cmd tag l) 0 8 = 0 ∧ fieldOf (commandHeader cmd tag l) 8 8 = l ∧
      BitVec.ofNat 8 (fieldOf (commandHeader cmd tag l) 16 8) = tag ∧
      fieldOf (commandHeader cmd tag l) 24 8 = commandCode cmd := by
  have hc : commandCode cmd < 256 := by cases cmd <;> decide
  have high : ∀ n j, n < 256 → 8 ≤ j → n.testBit j = false := fun n j hn hj =>
    Nat.testBit_lt_two_pow (Nat.lt_of_lt_of_le hn (Nat.pow_le_pow_right (n := 2) (by decide) hj))
  have tag_lt := tag.isLt
  have bits : ∀ i, i < 32 → (commandHeader cmd tag l).getLsbD i =
      ((decide (24 ≤ i) && (commandCode cmd).testBit (i - 24)) ||
        ((decide (16 ≤ i) && tag.toNat.testBit (i - 16)) || (decide (8 ≤ i) && l.testBit (i - 8)))) := by
    intro i hi
    rw [commandHeader, getLsbD_packWord _ i hi]
    simp
  have code : (commandHeader cmd tag l).extractLsb' 24 8 = BitVec.ofNat 8 (commandCode cmd) := by
    apply BitVec.eq_of_getLsbD_eq
    intro i hi
    rw [BitVec.getLsbD_extractLsb', bits _ (by omega), BitVec.getLsbD_ofNat, high _ (24 + i - 16) tag_lt (by omega),
      high _ (24 + i - 8) hl (by omega)]
    simp [hi]
  have tags : (commandHeader cmd tag l).extractLsb' 16 8 = tag := by
    apply BitVec.eq_of_getLsbD_eq
    intro i hi
    have h24 : ¬24 ≤ 16 + i := by omega
    rw [BitVec.getLsbD_extractLsb', bits _ (by omega), high _ (16 + i - 8) hl (by omega)]
    simp [hi, h24, BitVec.getLsbD]
  have length : (commandHeader cmd tag l).extractLsb' 8 8 = BitVec.ofNat 8 l := by
    apply BitVec.eq_of_getLsbD_eq
    intro i hi
    have h24 : ¬24 ≤ 8 + i := by omega
    have h16 : ¬16 ≤ 8 + i := by omega
    rw [BitVec.getLsbD_extractLsb', bits _ (by omega), BitVec.getLsbD_ofNat]
    simp [hi, h24, h16]
  have low : (commandHeader cmd tag l).extractLsb' 0 8 = 0 := by
    apply BitVec.eq_of_getLsbD_eq
    intro i hi
    have h24 : ¬24 ≤ 0 + i := by omega
    have h16 : ¬16 ≤ 0 + i := by omega
    have h8 : ¬8 ≤ 0 + i := by omega
    rw [BitVec.getLsbD_extractLsb', bits _ (by omega)]
    simp only [h24, h16, h8, decide_false, Bool.false_and, Bool.or_self, Bool.and_false]
    simp
  simp only [fieldOf_eq_extractLsb', code, tags, length, low]
  refine ⟨rfl, ?_, BitVec.ofNat_toNat .., ?_⟩
  · rw [BitVec.toNat_ofNat, Nat.mod_eq_of_lt hl]
  · rw [BitVec.toNat_ofNat, Nat.mod_eq_of_lt hc]

/-! ### Reading a frame -/

/-- A code that names a command. -/
theorem commandOf_commandCode (cmd : Command) : commandOf (commandCode cmd) = some cmd := by cases cmd <;> rfl

/-- The command codes are 1 to 18 (12.1). -/
theorem commandOf_eq_none_iff (n : Nat) : commandOf n = none ↔ ¬(1 ≤ n ∧ n ≤ 18) := by
  unfold commandOf
  split <;> simp_all
  omega

/-- The words of a frame written to the request area, from its word 0 on. -/
theorem areaWord_putWords_lt (area : List (Nat × Word)) (ws : List Word) (i : Nat) (h : i < ws.length) :
    areaWord (putWords area 0 ws) i = ws.getD i 0 := by
  rw [areaWord_putWords, if_pos ⟨Nat.zero_le _, by omega⟩, Nat.sub_zero]

/-- The first words of a list, read one by one. -/
theorem map_range_getD (ws more : List Word) :
    (List.range ws.length).map (fun i => (ws ++ more).getD i 0) = ws := by
  apply List.ext_getElem
  · simp
  · intro i h1 h2
    simp [List.getElem?_append_left h2, List.getElem?_eq_getElem h2]

/-- Settles O55: the frame's fields read back from its word 0, its words from the area, and its check holds. -/
theorem commandFramesReadBack : Obligations.CommandFramesReadBack := by
  intro cmd tag ps area hn
  obtain ⟨hlow, hlen, htag, hcode⟩ := commandHeader_fields cmd tag ps.length (by omega)
  have length : (commandFrame cmd tag ps).length = ps.length + 2 := by simp [commandFrame]
  have first : areaWord (putWords area 0 (commandFrame cmd tag ps)) 0 = commandHeader cmd tag ps.length := by
    rw [areaWord_putWords_lt _ _ _ (by omega)]
    rfl
  have body : (List.range (ps.length + 1)).map (areaWord (putWords area 0 (commandFrame cmd tag ps))) =
      commandHeader cmd tag ps.length :: ps := by
    rw [← map_range_getD (commandHeader cmd tag ps.length :: ps) [frameCheck (commandHeader cmd tag ps.length :: ps)]]
    refine List.map_congr_left fun i hi => ?_
    rw [areaWord_putWords_lt _ _ _ (by have := List.mem_range.1 hi; omega)]
    rfl
  have check : areaWord (putWords area 0 (commandFrame cmd tag ps)) (ps.length + 1) =
      frameCheck (commandHeader cmd tag ps.length :: ps) := by
    rw [areaWord_putWords_lt _ _ _ (by omega)]
    simp [commandFrame]
  simp only [parseCommand, first, hlow, hlen, htag, hcode, body, check, hn, and_self, if_true, commandOf_commandCode,
    List.tail_cons]

/-- A frame is read as its checks of steps 1 and 2 say (R169). -/
theorem parseCommand_eq (area : List (Nat × Word)) :
    (Claim.frameChecks area ↔ parseCommand area ≠ .badCheck) ∧
      (Claim.frameChecks area → (Claim.frameNames area ↔
        parseCommand area ≠ .unknown ((areaWord area 0).extractLsb' 16 8))) ∧
      ∀ tag, parseCommand area = .unknown tag → tag = (areaWord area 0).extractLsb' 16 8 := by
  have none_iff := commandOf_eq_none_iff (fieldOf (areaWord area 0) 24 8)
  have zero : fieldOf (areaWord area 0) 0 8 = 0 ↔ (areaWord area 0).extractLsb' 0 8 = 0 := by
    rw [fieldOf_eq_extractLsb', ← BitVec.toNat_inj]
    rfl
  have names : Claim.frameNames area ↔
      fieldOf (areaWord area 0) 0 8 = 0 ∧ commandOf (fieldOf (areaWord area 0) 24 8) ≠ none := by
    rw [zero, ne_eq, none_iff, not_not, fieldOf_eq_extractLsb']
    exact Iff.rfl
  have tag : BitVec.ofNat 8 (fieldOf (areaWord area 0) 16 8) = (areaWord area 0).extractLsb' 16 8 := by
    rw [fieldOf_eq_extractLsb', BitVec.ofNat_toNat, BitVec.setWidth_eq]
  have checks : Claim.frameChecks area ↔ fieldOf (areaWord area 0) 8 8 ≤ 253 ∧
      areaWord area (fieldOf (areaWord area 0) 8 8 + 1) =
        frameCheck ((List.range (fieldOf (areaWord area 0) 8 8 + 1)).map (areaWord area)) := by
    rw [fieldOf_eq_extractLsb']
    exact Iff.rfl
  rw [names, checks, ← tag]
  unfold parseCommand
  dsimp only
  (repeat' split) <;> simp_all

/-- Step 1 fails exactly on a frame whose check does not hold. -/
theorem parseCommand_badCheck_iff (area : List (Nat × Word)) :
    parseCommand area = .badCheck ↔ ¬Claim.frameChecks area := by
  obtain ⟨checks, -, -⟩ := parseCommand_eq area
  rw [checks, not_not]

/-- Step 2 fails exactly on a frame whose check holds and that names no command. -/
theorem parseCommand_unknown_iff (area : List (Nat × Word)) (tag : Byte) :
    parseCommand area = .unknown tag ↔
      Claim.frameChecks area ∧ ¬Claim.frameNames area ∧ tag = (areaWord area 0).extractLsb' 16 8 := by
  obtain ⟨checks, names, tags⟩ := parseCommand_eq area
  constructor
  · intro h
    obtain rfl := tags tag h
    have hc := checks.2 (by simp [h])
    exact ⟨hc, fun hn => (names hc).1 hn h, rfl⟩
  · rintro ⟨hc, hn, rfl⟩
    exact not_not.1 fun h => hn ((names hc).2 h)

/-! ### Submitting a frame -/

/-- A write of the submit word with no byte enable submits nothing (R19). -/
theorem transfer_submitAddr_zero (data : Word) (s : State) (hr : s.resetLow = false) :
    transfer .data true submitAddr 0 data s = Claim.answered .data .okay 0 s := by
  have hword : apertureTransfer true submitAddr.toNat Config.requestWords 0 data s = giveAnswer .data .okay 0 s := by
    rw [apertureTransfer, if_neg (Nat.lt_irrefl _), if_pos rfl, if_neg (by simp)]
  rw [transfer, if_neg (by simp [hr]), if_neg (by decide), if_pos (by decide)]
  exact hword

/-- A submission while no command is pending is read from the request area (R169). -/
theorem submit_of_not_pending (s : State) (hp : s.cmu.header.status ≠ .pending) :
    submit s =
      match parseCommand s.cmu.request with
      | .badCheck => respond .badCheck 0 0 [] (pend s)
      | .unknown tag => respond .unknownCommand 0 tag [] (pend s)
      | .command cmd tag ps => takeCommand cmd tag ps s := by
  unfold submit
  exact if_neg hp

/-- UNKNOWN_COMMAND while no command is pending. -/
theorem exec_unknownCommand (be : BitVec 4) (s : State) (hr : s.resetLow = false) (hb : be ≠ 0)
    (hp : s.cmu.header.status ≠ .pending) :
    exec (.unknownCommand be) s = .next
      (match parseCommand s.cmu.request with
       | .badCheck => respond .badCheck 0 0 [] (pend (Claim.answered .data .okay 0 s))
       | .unknown tag => respond .unknownCommand 0 tag [] (pend (Claim.answered .data .okay 0 s))
       | .command cmd tag ps => takeCommand cmd tag ps (Claim.answered .data .okay 0 s)) :=
  congrArg Host.Outcome.next ((transfer_submitAddr be 0 s hr hb).trans (submit_of_not_pending (giveAnswer .data .okay 0 s) hp))

/-- A frame that fails step 1 or 2 of R169 changes nothing beyond the response (R169). -/
theorem respond_pend_eq_withResponse (st : Status) (d : Nat) (tag : Byte) (ws : List Word) (u : State) :
    respond st d tag ws (pend u) = Claim.withResponse (respond st d tag ws (pend u)) u :=
  rfl

/-- Settles O13: a frame that fails step 1 or 2 is answered where it is read. -/
theorem badFramesAreAnswered : Obligations.BadFramesAreAnswered := by
  refine ⟨fun s hr => congrArg Host.Outcome.next (transfer_submitAddr_zero 0 s hr),
    fun area => ⟨parseCommand_badCheck_iff area, parseCommand_unknown_iff area⟩,
    fun be s hr hb hp => ⟨fun hc hn => ?_, fun hc => ?_⟩⟩
  · have read := (parseCommand_unknown_iff s.cmu.request _).2 ⟨hc, hn, rfl⟩
    have step := exec_unknownCommand be s hr hb hp
    rw [read] at step
    exact ⟨_, step, respond_pend_eq_withResponse .., response_respond _ _ _ _ _ _ rfl⟩
  · have read := (parseCommand_badCheck_iff s.cmu.request).2 hc
    have step := exec_unknownCommand be s hr hb hp
    rw [read] at step
    exact ⟨_, step, respond_pend_eq_withResponse .., response_respond _ _ _ _ _ _ rfl⟩

/-- Settles O14: the frame written to the request area reads back as the command. -/
theorem commandIsItsSubmittedFrame : Obligations.CommandIsItsSubmittedFrame := by
  intro cmd tag ps be s hr hb hn
  by_cases hp : s.cmu.header.status = .pending
  · have overrun : presentCommand cmd tag ps s =
        recordEvent .commandOverrun
          (giveAnswer .data .okay 0 { s with cmu.request := putWords s.cmu.request 0 (commandFrame cmd tag ps) }) := by
      unfold presentCommand
      rw [if_neg (by simp [hr]), take_commandFrame cmd tag ps hn]
      exact if_pos hp
    rw [exec_software, overrun]
    exact (congrArg Host.Outcome.next ((transfer_submitAddr be 0 _ (by exact hr) hb).trans
      (submit_of_pending _ (by exact hp)))).symm
  · rw [exec_software, presentCommand_of_fits cmd tag ps s hr hp hn, exec_unknownCommand be _ (by exact hr) hb (by exact hp),
      commandFramesReadBack cmd tag ps s.cmu.request hn]
    rfl

/-! ### Steps 3 to 5 -/

/-- A command that one of steps 3 to 5 refuses is answered and does nothing else. -/
theorem exec_software_refused (cmd : Command) (tag : Byte) (ps : List Word) (s : State) (status : Status) (detail : Nat)
    (hr : s.resetLow = false) (hp : s.cmu.header.status ≠ .pending) (hn : ps.length ≤ 253)
    (h : ∀ u : State, u.mpu = s.mpu → u.dev = s.dev → u.cju = s.cju → u.vtu = s.vtu →
      takeCommand cmd tag ps u = respond status detail tag [] { pend u with cmu.buffer := some ⟨cmd, tag, ps⟩ }) :
    ∃ t, exec (Claim.software cmd tag ps) s = .next t ∧
      t = Claim.withResponse t
        { Claim.answered .data .okay 0 s with
          cmu.request := putWords s.cmu.request 0 (commandFrame cmd tag ps) } ∧
      Claim.response status detail tag [] s t := by
  refine ⟨_, exec_software cmd tag ps s, ?_⟩
  have taken := h (giveAnswer .data .okay 0 { s with cmu.request := putWords s.cmu.request 0 (commandFrame cmd tag ps) })
    rfl rfl rfl rfl
  rw [presentCommand_of_fits cmd tag ps s hr hp hn, taken]
  exact ⟨rfl, response_respond _ _ _ _ _ _ rfl⟩

/-- Settles O15: each line of the statement is the check that fails, with the subcode that the tables give. -/
theorem commandChecksRefuse : Obligations.CommandChecksRefuse := by
  refine ⟨fun cmd n => ?lengths, fun cmd tag ps s hr hp hn status detail h => ?_⟩
  case lengths =>
    cases cmd <;> simp only [lengthFits, Claim.lengths, List.mem_cons, List.not_mem_nil, or_false, decide_eq_true_eq,
      beq_iff_eq]
    all_goals omega
  have refused : ∀ c, lengthFits cmd ps.length = true → s.mpu.initOp = none → stateRefusal cmd s = some c →
      status = .refusedState → detail = subcodeCode c → ∀ u : State, u.mpu = s.mpu → u.dev = s.dev → u.cju = s.cju →
      u.vtu = s.vtu →
      takeCommand cmd tag ps u = respond status detail tag [] { pend u with cmu.buffer := some ⟨cmd, tag, ps⟩ } := by
    rintro c hl hi hs rfl rfl u h1 h2 h3 h4
    refine takeCommand_of_refused cmd tag ps u c hl (by simp [h1, hi]) ?_
    rw [← hs]
    cases cmd <;> simp only [stateRefusal, unlessConfiguring, whileRunning, h2, h3, h4]
  apply exec_software_refused cmd tag ps s status detail hr hp hn
  rcases h with ⟨hl, rfl, rfl⟩ | ⟨hl, hi, hc, rfl, rfl⟩ | ⟨hl, hi, hd, hc, hs, rfl⟩ | ⟨hl, hi, hd, hc, hs, rfl⟩ |
    ⟨hl, hi, hd, hc, hs, rfl⟩ | ⟨hl, hi, hd, hs, hc⟩
  case inl => exact fun u _ _ _ _ => takeCommand_of_badLength cmd tag ps u hl
  case inr.inl =>
    refine fun u h1 _ _ _ => takeCommand_of_busy cmd tag ps u hl (by rw [h1]; exact hi) ?_
    cases cmd <;> simp_all [takenInInit]
  case inr.inr.inl =>
    exact refused .tableFrozen hl hi (by rcases hc with rfl | rfl <;> exact if_neg hd) hs rfl
  case inr.inr.inr.inl =>
    exact refused .notConfiguring hl hi (by rcases hc with rfl | rfl | rfl | rfl | rfl <;> exact if_neg hd) hs rfl
  case inr.inr.inr.inr.inl =>
    exact refused .notRunning hl hi (by rcases hc with rfl | rfl | rfl | rfl <;> exact if_neg hd) hs rfl
  case inr.inr.inr.inr.inr =>
    rcases hc with ⟨(⟨hch, hc⟩ | ⟨hch, rfl⟩), rfl⟩ | ⟨(⟨hch, hc⟩ | ⟨hch, rfl⟩), rfl⟩ | ⟨hch, rfl, rfl⟩ |
      ⟨hch, hc, rfl⟩ | ⟨hch, ha, rfl, rfl⟩
    · refine refused .notDecided hl hi ?_ hs rfl
      rcases hch with hch | hch | hch <;> rcases hc with rfl | rfl <;>
        simp [stateRefusal, whileRunning, openRefusal, restoreRefusal, hd, hch]
    · exact refused .notDecided hl hi (by simp [stateRefusal, whileRunning, restoreRefusal, hd, hch]) hs rfl
    · refine refused .notOpen hl hi ?_ hs rfl
      rcases hch with hch | hch | hch <;> rcases hc with rfl | rfl <;>
        simp [stateRefusal, whileRunning, closeRefusal, abandonRefusal, hd, hch]
    · exact refused .notOpen hl hi (by simp [stateRefusal, whileRunning, abandonRefusal, hd, hch]) hs rfl
    · exact refused .needsRestore hl hi (by simp [stateRefusal, whileRunning, openRefusal, hd, hch]) hs rfl
    · refine refused .restoreActive hl hi ?_ hs rfl
      rcases hch with hch | hch <;> rcases hc with rfl | rfl | rfl | rfl <;>
        simp [stateRefusal, whileRunning, openRefusal, closeRefusal, abandonRefusal, restoreRefusal, hd, hch]
    · exact refused .notNeeded hl hi (by simp [stateRefusal, whileRunning, restoreRefusal, hd, hch, ha]) hs rfl

/-- A software command that passes the checks of R169 has its effect on the part that has taken its frame. -/
theorem exec_software_of_takes (cmd : Command) (tag : Byte) (ps : List Word) (s : State) (ht : Claim.takes cmd s)
    (hl : lengthFits cmd ps.length = true) (hs : stateRefusal cmd s = none) :
    exec (Claim.software cmd tag ps) s = .next (effectOf cmd tag ps (Claim.presented cmd tag ps s)) :=
  (exec_software cmd tag ps s).trans (congrArg Host.Outcome.next (presentCommand_of_takes cmd tag ps s ht hl hs))

/-- An answer BAD_FIELD ends the command: nothing but the response has changed, and no port hold is left (R36). -/
theorem exec_software_badField (cmd : Command) (tag : Byte) (ps : List Word) (word : Nat) (s : State)
    (ht : Claim.takes cmd s) (hl : lengthFits cmd ps.length = true) (hs : stateRefusal cmd s = none)
    (he : effectOf cmd tag ps (Claim.presented cmd tag ps s) = badField word tag (Claim.presented cmd tag ps s)) :
    ∃ t, exec (Claim.software cmd tag ps) s = .next t ∧
      t = Claim.withResponse t (Claim.presented cmd tag ps s) ∧ Claim.response .badField word tag [] s t ∧
      portHold t = false := by
  refine ⟨_, exec_software_of_takes cmd tag ps s ht hl hs, ?_⟩
  rw [he]
  exact ⟨rfl, response_respond _ _ _ _ _ _ rfl, rfl⟩

/-- Settles O16: a draining command's effect is to wait, but for the fields that CLEAR_TABLE and INIT_MEMORY check at
once. -/
theorem drainingCommandsStayPending : Obligations.DrainingCommandsStayPending := by
  constructor
  · intro cmd tag ps word s ht hc h
    rcases h with ⟨w, rfl, rfl, hw, rfl⟩ | ⟨b, n, rfl, rfl, hbad⟩
    · have high : ¬param [w] 1 < Config.regions := Nat.not_lt.2 hw
      exact exec_software_badField .clearTable tag [w] 1 s ht rfl (if_pos hc)
        (if_pos ⟨List.length_singleton, high⟩)
    · refine exec_software_badField .initMemory tag [b, n] word s ht rfl (if_pos hc) ?_
      have hb : param [b, n] 1 = b.toNat := rfl
      have hn : param [b, n] 2 = n.toNat := rfl
      simp only [effectOf, takeInitMemory, hb, hn, Config.blocks]
      rcases hbad with ⟨hb, rfl⟩ | ⟨hb, hn, rfl⟩
      · exact if_pos (by omega)
      · rw [if_neg (by omega), if_pos (by omega)]
  · intro cmd tag ps s ht h
    have waits : ∀ (hl : lengthFits cmd ps.length = true) (hs : stateRefusal cmd s = none) (hd : drains cmd = true)
        (he : effectOf cmd tag ps (Claim.presented cmd tag ps s) = Claim.presented cmd tag ps s),
        exec (Claim.software cmd tag ps) s = .next (Claim.presented cmd tag ps s) ∧
          portHold (Claim.presented cmd tag ps s) = true := fun hl hs hd he =>
      ⟨(exec_software_of_takes cmd tag ps s ht hl hs).trans (congrArg Host.Outcome.next he), hd⟩
    rcases h with ⟨rfl, rfl⟩ | ⟨hc, ⟨rfl, hp⟩ | ⟨rfl, hp⟩ | ⟨rfl, b, n, rfl, h1, h2⟩ | ⟨rfl, rfl⟩⟩
    · exact waits rfl rfl rfl rfl
    · rcases hp with rfl | ⟨w, rfl, hw⟩
      · exact waits rfl (if_pos hc) rfl rfl
      · refine waits rfl (if_pos hc) rfl (if_neg ?_)
        rintro ⟨-, high⟩
        exact high hw
    · exact waits (by simp [lengthFits, hp]) (if_pos hc) rfl rfl
    · refine waits rfl (if_pos hc) rfl ?_
      have hb : param [b, n] 1 = b.toNat := rfl
      have hn : param [b, n] 2 = n.toNat := rfl
      simp only [effectOf, takeInitMemory, hb, hn, Config.blocks]
      rw [if_neg (by omega), if_neg (by omega)]
    · exact waits rfl (if_pos hc) rfl rfl

end Sys2Proof.Machine
end

section
/-! PROOFS. Arbitration of the memory port (R42 to R49): what each class requests, the slot that the port goes to, and the
command that loads the slot table. -/

namespace Sys2Proof.Machine

open Sys2Proof

/-! ### The block that a service considers next -/

/-- The lowest number of a list at or above a bound. -/
theorem lowestFrom_eq_some_iff (low : Nat) (l : List Nat) (b : Nat) :
    lowestFrom low l = some b ↔ low ≤ b ∧ b ∈ l ∧ ∀ k, low ≤ k → k ∈ l → b ≤ k := by
  have none_iff : ∀ l : List Nat, lowestFrom low l = none ↔ ∀ k ∈ l, ¬low ≤ k := by
    intro l
    induction l with
    | nil => simp [lowestFrom]
    | cons a l ih =>
      unfold lowestFrom
      split
      case h_1 h =>
        have above := ih.1 h
        by_cases ha : low ≤ a
        · simp [ha]
        · simp only [ha, if_false, true_iff, List.mem_cons, forall_eq_or_imp, not_false_eq_true, true_and]
          exact above
      case h_2 m h =>
        have : ¬∀ k ∈ l, ¬low ≤ k := fun hn => by simp [ih.2 hn] at h
        split <;> simp_all
  induction l generalizing b with
  | nil => simp [lowestFrom]
  | cons a l ih =>
    unfold lowestFrom
    split
    case h_1 h =>
      have above := (none_iff l).1 h
      by_cases ha : low ≤ a
      · simp only [ha, if_true, Option.some.injEq, List.mem_cons]
        grind
      · simp only [ha, if_false, List.mem_cons]
        grind
    case h_2 m h =>
      obtain ⟨hm, hml, hmin⟩ := (ih m).1 h
      split
      case isTrue hc =>
        simp only [Option.some.injEq, List.mem_cons]
        grind
      case isFalse hc =>
        simp only [Option.some.injEq, List.mem_cons]
        grind

/-- A list has no number at or above a bound. -/
theorem lowestFrom_eq_none_iff (low : Nat) (l : List Nat) : lowestFrom low l = none ↔ ∀ k ∈ l, k < low := by
  constructor
  · intro h k hk
    by_contra hc
    obtain ⟨m, hm⟩ : ∃ m, m ∈ l ∧ low ≤ m ∧ ∀ j ∈ l, low ≤ j → m ≤ j := by
      classical
      have ex : ∃ m, m ∈ l ∧ low ≤ m := ⟨k, hk, by omega⟩
      exact ⟨Nat.find ex, (Nat.find_spec ex).1, (Nat.find_spec ex).2, fun j hj hlow => Nat.find_min' ex ⟨hj, hlow⟩⟩
    obtain ⟨hml, hlow, hmin⟩ := hm
    rw [(lowestFrom_eq_some_iff low l m).2 ⟨hlow, hml, fun j hj hjl => hmin j hjl hj⟩] at h
    cases h
  · intro h
    cases hf : lowestFrom low l with
    | none => rfl
    | some m =>
      obtain ⟨hlow, hm, -⟩ := (lowestFrom_eq_some_iff low l m).1 hf
      exact absurd (h m hm) (by omega)

/-- The block that the service reads next is the one that is due (R154 to R156). -/
theorem serverTarget_eq_some_iff (s : State) (b : Nat) : serverTarget s = some b ↔ Claim.blockDue s b := by
  unfold serverTarget Claim.blockDue
  cases hp : s.rse.service.phase
  case idle => simp [hp]
  case sending => simp [hp, lowestFrom_eq_some_iff, List.mem_append]
  case walking =>
    simp only [hp, reduceCtorEq, false_and, true_and, false_or, or_false]
    cases hw : s.rse.service.walkPos with
    | none => simp
    | some w => cases w <;> simp
  case resending =>
    simp only [hp, reduceCtorEq, false_and, true_and, false_or]
    cases hv : s.rse.service.waiting
    case true => simp
    case false =>
      cases hl : lowestFrom s.rse.service.sendPos s.cju.resend with
      | some m =>
        have found := (lowestFrom_eq_some_iff _ _ _).1 hl
        simp only [Bool.false_eq_true, if_false, true_and, Option.some.injEq]
        constructor
        · rintro rfl
          exact Or.inl found
        · rintro (h | ⟨h, -⟩)
          · exact Option.some.inj (hl.symm.trans ((lowestFrom_eq_some_iff _ _ _).2 h))
          · exact absurd (h m found.2.1) (by omega)
      | none =>
        have above := (lowestFrom_eq_none_iff _ _).1 hl
        simp only [Bool.false_eq_true, if_false, true_and, lowestFrom_eq_some_iff]
        constructor
        · exact fun h => Or.inr ⟨above, h⟩
        · rintro (⟨h1, h2, -⟩ | ⟨-, h⟩)
          · exact absurd (above b h2) (by omega)
          · exact h
  case finishing => simp [hp]

/-! ### Requests -/

/-- A capture is due (R80). -/
theorem needsCapture_iff (s : State) (e : PwqEntry) : needsCapture s e = true ↔ Claim.captureDue s e := by
  simp only [needsCapture, Claim.captureDue, Bool.and_eq_true, beq_iff_eq, Bool.not_eq_true', decide_eq_true_eq,
    ← Bool.not_eq_true, List.contains_iff_mem, and_assoc]
  exact Iff.rfl

/-- Some held read is requested of the memory port (R32). -/
theorem firstAccess_isSome_iff (s : State) : (firstAccess s).isSome = true ↔ ∃ h ∈ s.ppt.held, h.hold = .access := by
  simp [firstAccess, List.find?_isSome]

/-- The PROC class's request (R44). -/
theorem procRequest_iff (s : State) (g : Grant) : procRequest s = some g ↔ Claim.requested s .proc g := by
  unfold procRequest Claim.requested
  by_cases hw : s.mpu.writeBack.isSome = true
  · have hne : s.mpu.writeBack ≠ none := Option.isSome_iff_ne_none.1 hw
    simp [hw, hne, eq_comm]
  · have hnone : s.mpu.writeBack = none := by simpa using hw
    by_cases ha : (firstAccess s).isSome = true
    · obtain ⟨h, hm, hh⟩ := (firstAccess_isSome_iff s).1 ha
      have hno : ¬∀ h ∈ s.ppt.held, h.hold ≠ .access := fun hn => hn h hm hh
      have hyes : ∃ h ∈ s.ppt.held, h.hold = .access := ⟨h, hm, hh⟩
      simp only [hnone, ha, if_true, Option.isSome_none, Bool.false_eq_true, if_false, ne_eq, not_true_eq_false,
        and_false, false_or, hyes, and_true, hno, false_and, or_false, Option.some.injEq]
      exact eq_comm
    · have hno : ¬∃ h ∈ s.ppt.held, h.hold = .access := fun hn => ha ((firstAccess_isSome_iff s).2 hn)
      have hall : ∀ h ∈ s.ppt.held, h.hold ≠ .access := fun h hm hh => hno ⟨h, hm, hh⟩
      simp only [hnone, ha, Option.isSome_none, Bool.false_eq_true, if_false, ne_eq, not_true_eq_false, and_false,
        false_or, true_and, hno]
      cases s.pwq.entries with
      | nil => simp
      | cons e rest =>
        simp only [← needsCapture_iff, List.cons.injEq]
        by_cases hc : needsCapture s e = true
        · simp only [hc, if_true]
          grind
        · simp only [hc]
          grind

/-- The JOURNAL class's request (R80, R84). -/
theorem journalRequest_iff (s : State) (g : Grant) : journalRequest s = some g ↔ Claim.requested s .journal g := by
  have rolls : (if s.cju.chan = some .rollingBack ∧ s.cju.journal ≠ [] then some Grant.rollback else none) = some g ↔
      g = .rollback ∧ s.cju.chan = some .rollingBack ∧ s.cju.journal ≠ [] := by
    split
    case isTrue hc => simp only [hc, ne_eq, not_false_eq_true, and_true, Option.some.injEq]; exact eq_comm
    case isFalse hc => simp only [hc, and_false, reduceCtorEq]
  unfold journalRequest Claim.requested
  cases s.pwq.entries with
  | nil => simpa using rolls
  | cons e rest =>
    have due : (∃ d more, e :: rest = d :: more ∧ Claim.captureDue s d) ↔ Claim.captureDue s e := by simp
    have free : (∀ d more, e :: rest = d :: more → ¬Claim.captureDue s d) ↔ ¬Claim.captureDue s e := by simp
    rw [due, free, ← needsCapture_iff]
    dsimp only
    by_cases hn : needsCapture s e = true
    · simp only [hn, if_true, not_true_eq_false, false_and, and_false, or_false, and_true, Option.some.injEq]
      exact eq_comm
    · rw [if_neg hn]
      simpa only [hn, Bool.false_eq_true, not_false_eq_true, and_false, false_or, true_and] using rolls

/-- The LINK class's request (R146, R153). -/
theorem linkRequest_iff (s : State) (g : Grant) : linkRequest s = some g ↔ Claim.requested s .link g := by
  unfold linkRequest Claim.requested
  have due : (∃ b, Claim.blockDue s b) ↔ (serverTarget s).isSome = true := by
    simp only [← serverTarget_eq_some_iff, Option.isSome_iff_exists]
  have room : (∀ l, s.rse.service.requester = some l → (s.lkc.tx.get l).blocks.length < 8) ↔ blockRoom s = true := by
    unfold blockRoom
    split
    case h_1 l hl =>
      simp only [hl, Option.some.injEq, forall_eq', decide_eq_true_eq]
      exact Iff.rfl
    case h_2 hl => simp [hl]
  rw [due, room]
  by_cases hb : s.rse.pull.buffers = []
  · simp only [hb, ne_eq, not_true_eq_false, if_false, and_false, true_and, false_or]
    split
    case isTrue hc =>
      simp only [hc, and_self, and_true, Option.some.injEq]
      exact eq_comm
    case isFalse hc => simp only [hc, and_false, reduceCtorEq]
  · simp only [hb, ne_eq, not_false_eq_true, if_true, and_true, false_and, and_false, or_false, Option.some.injEq]
    exact eq_comm

/-- The SETUP class's request (R51, R52, R62, R63). -/
theorem setupRequest_iff (s : State) (g : Grant) : setupRequest s = some g ↔ Claim.requested s .setup g := by
  unfold setupRequest Claim.requested
  have reset : (∀ f, s.cmu.buffer = some f → f.cmd ≠ .reset) ↔ resetPending s = false := by
    unfold resetPending
    split <;> simp_all
  rw [reset]
  cases s.mpu.initOp with
  | some op =>
    cases resetPending s with
    | true => simp
    | false =>
      simp only [Option.isSome_some, if_true, Bool.false_eq_true, if_false, ne_eq, reduceCtorEq, not_false_eq_true,
        and_true, false_and, or_false, Option.some.injEq]
      exact eq_comm
  | none =>
    cases s.sgu.pass with
    | some p =>
      simp only [Option.isSome_none, Option.isSome_some, Bool.false_eq_true, if_false, if_true, ne_eq, reduceCtorEq,
        not_true_eq_false, not_false_eq_true, false_and, and_false, true_and, false_or, Option.some.injEq]
      exact eq_comm
    | none => simp

/-- What a class requests is what it would be granted (R43). -/
theorem classRequest_iff (s : State) (c : PortClass) (g : Grant) : classRequest s c = some g ↔ Claim.requested s c g := by
  cases c with
  | proc => exact procRequest_iff s g
  | journal => exact journalRequest_iff s g
  | patrol => cases hr : s.ptu.request <;> simp [classRequest, Claim.requested, hr, eq_comm]
  | link => exact linkRequest_iff s g
  | setup => exact setupRequest_iff s g

/-! ### The scan of the slots -/

/-- The class of a slot, counted on past slot 15. -/
def slotClass (s : State) (i : Nat) : PortClass := s.mpu.slots.getD (i % 16) .proc

/-- The scan stops at the first slot whose class has a request (R47). -/
theorem scanSlots_eq_some_iff (s : State) (n i : Nat) (g : Grant) (p : Nat) :
    scanSlots s n i = some (g, p) ↔
      ∃ m, m < n ∧ classRequest s (slotClass s (i + m)) = some g ∧ p = (i + m + 1) % 16 ∧
        ∀ k, k < m → classRequest s (slotClass s (i + k)) = none := by
  induction n generalizing i with
  | zero => simp [scanSlots]
  | succ n ih =>
    unfold scanSlots
    cases hc : classRequest s (s.mpu.slots.getD (i % 16) .proc) with
    | some h =>
      simp only [Option.some.injEq, Prod.mk.injEq]
      constructor
      · rintro ⟨rfl, rfl⟩
        exact ⟨0, Nat.succ_pos n, hc, rfl, fun k hk => absurd hk (Nat.not_lt_zero k)⟩
      · rintro ⟨m, -, hm, rfl, hbefore⟩
        cases m with
        | zero => exact ⟨Option.some.inj (hc.symm.trans hm), rfl⟩
        | succ m => exact absurd (hc.symm.trans (hbefore 0 (Nat.succ_pos m))) (by simp)
    | none =>
      dsimp only
      rw [ih]
      constructor
      · rintro ⟨m, hm, hg, rfl, hbefore⟩
        refine ⟨m + 1, by omega, by rwa [show i + (m + 1) = i + 1 + m by omega], by omega, fun k hk => ?_⟩
        cases k with
        | zero => exact hc
        | succ k => rw [show i + (k + 1) = i + 1 + k by omega]; exact hbefore k (by omega)
      · rintro ⟨m, hm, hg, rfl, hbefore⟩
        cases m with
        | zero => exact absurd (hc.symm.trans hg) (by simp)
        | succ m =>
          refine ⟨m, by omega, by rwa [show i + 1 + m = i + (m + 1) by omega], by omega, fun k hk => ?_⟩
          rw [show i + 1 + k = i + (k + 1) by omega]
          exact hbefore (k + 1) (by omega)

/-- The scan finds nothing exactly where no slot's class has a request. -/
theorem scanSlots_eq_none_iff (s : State) (n i : Nat) :
    scanSlots s n i = none ↔ ∀ m, m < n → classRequest s (slotClass s (i + m)) = none := by
  induction n generalizing i with
  | zero => simp [scanSlots]
  | succ n ih =>
    unfold scanSlots
    cases hc : classRequest s (s.mpu.slots.getD (i % 16) .proc) with
    | some h =>
      simp only [reduceCtorEq, false_iff]
      intro hall
      exact absurd (hc.symm.trans (hall 0 (Nat.succ_pos n))) (by simp)
    | none =>
      dsimp only
      rw [ih]
      constructor
      · intro hall m hm
        cases m with
        | zero => exact hc
        | succ m => rw [show i + (m + 1) = i + 1 + m by omega]; exact hall m (by omega)
      · intro hall m hm
        rw [show i + 1 + m = i + (m + 1) by omega]
        exact hall (m + 1) (by omega)

/-- A full slot table has a class in each slot. -/
theorem getElem?_slots_iff (s : State) (hl : s.mpu.slots.length = 16) (i : Nat) (c : PortClass) :
    s.mpu.slots[i % 16]? = some c ↔ slotClass s i = c := by
  have hi : i % 16 < s.mpu.slots.length := by omega
  simp [slotClass, List.getD_eq_getElem?_getD, List.getElem?_eq_getElem hi]

/-- No class requests anything exactly where nothing is granted to it. -/
theorem classRequest_eq_none_iff (s : State) (c : PortClass) : classRequest s c = none ↔ ∀ g, ¬Claim.requested s c g := by
  simp only [← classRequest_iff, Option.eq_none_iff_forall_ne_some, ne_eq]

/-- The port goes to the first slot from the pointer on whose class has a request (R47). -/
theorem nextGrant_eq_some_iff (s : State) (g : Grant) (p : Nat) (hl : s.mpu.slots.length = 16) :
    nextGrant s = some (g, p) ↔ ∃ n c,
      n < 16 ∧ s.mpu.slots[(s.mpu.pointer + n) % 16]? = some c ∧ Claim.requested s c g ∧
      p = (s.mpu.pointer + n + 1) % 16 ∧
      ∀ m d, m < n → s.mpu.slots[(s.mpu.pointer + m) % 16]? = some d → ∀ h, ¬Claim.requested s d h := by
  simp only [nextGrant, scanSlots_eq_some_iff, getElem?_slots_iff s hl, ← classRequest_eq_none_iff]
  simp only [← classRequest_iff]
  constructor
  · rintro ⟨m, hm, hg, hp, hbefore⟩
    exact ⟨m, _, hm, rfl, hg, hp, fun k d hk hd => hd ▸ hbefore k hk⟩
  · rintro ⟨m, c, hm, rfl, hg, hp, hbefore⟩
    exact ⟨m, hm, hg, hp, fun k hk => hbefore k _ hk rfl⟩

/-- The port is idle exactly while no class has a request, where every class has a slot (R47). -/
theorem nextGrant_eq_none_iff (s : State) (hl : s.mpu.slots.length = 16) (hall : ∀ c, c ∈ s.mpu.slots) :
    nextGrant s = none ↔ ∀ c g, ¬Claim.requested s c g := by
  simp only [nextGrant, scanSlots_eq_none_iff, ← classRequest_eq_none_iff]
  refine ⟨fun h c => ?_, fun h m _ => h _⟩
  obtain ⟨j, hj⟩ := List.mem_iff_getElem?.1 (hall c)
  have hlt : j < 16 := hl ▸ (List.getElem?_eq_some_iff.1 hj).1
  have here : (s.mpu.pointer + (j + 16 - s.mpu.pointer % 16) % 16) % 16 = j := by omega
  have found := h ((j + 16 - s.mpu.pointer % 16) % 16) (by omega)
  rw [(getElem?_slots_iff s hl _ c).1 (by rw [here]; exact hj)] at found
  exact found

/-- The earliest read is taken (R44). -/
theorem firstAccess_eq_some_iff (s : State) (h : Held) : firstAccess s = some h ↔
    ∃ before after, s.ppt.held = before ++ h :: after ∧ h.hold = .access ∧ ∀ g ∈ before, g.hold ≠ .access := by
  simp only [firstAccess, List.find?_eq_some_iff_append, beq_iff_eq, Bool.not_eq_true', beq_eq_false_iff_ne]
  constructor
  · rintro ⟨hh, before, after, he, hb⟩
    exact ⟨before, after, he, hh, hb⟩
  · rintro ⟨before, after, he, hh, hb⟩
    exact ⟨hh, before, after, he, hb⟩

/-- A grant that is not the arbiter's next one does nothing (notes/assumptions/4). -/
theorem granted_of_not_next (g : Grant) (work : State → State) (s : State) (h : ∀ p, nextGrant s ≠ some (g, p)) :
    whenReady (granted g work) s = s := by
  have idle : granted g work s = s := by
    unfold granted
    split
    case h_1 k p hn => exact if_neg fun (e : k = g) => h p (e ▸ hn)
    case h_2 => rfl
  unfold whenReady
  split
  · rfl
  · exact idle

/-! ### LOAD_SLOTS -/

/-- The codes that name a class are 1 to 5 (12.1). -/
theorem portClassOf_eq_none_iff (n : Nat) : portClassOf n = none ↔ ¬(1 ≤ n ∧ n ≤ 5) := by
  unfold portClassOf
  split <;> simp_all
  omega

/-- A class's code names it. -/
theorem portClassOf_code (c : PortClass) : portClassOf (BitVec.ofNat 32 (portClassCode c)).toNat = some c := by
  cases c <;> rfl

/-- The class that a code names has that code. -/
theorem portClassCode_of_portClassOf {n : Nat} {c : PortClass} (h : portClassOf n = some c) : portClassCode c = n := by
  unfold portClassOf at h
  split at h <;> cases h <;> rfl

/-- The classes that parameter words name. -/
def classesOf (ps : List Word) : List (Option PortClass) := ps.map (fun w => portClassOf w.toNat)

/-- Every class is named by one of the words. -/
def namesEvery (ps : List Word) : Prop := ∀ c : PortClass, some c ∈ classesOf ps

/-- LOAD_SLOTS is refused at the first word that names no class (R49). -/
theorem slotsFault_of_findIdx (ps : List Word) (i : Nat) (h : (classesOf ps).findIdx? Option.isNone = some i) :
    slotsFault ps = some (i + 1) := by
  unfold slotsFault
  dsimp only
  rw [show ps.map (fun w => portClassOf w.toNat) = classesOf ps from rfl, h]

/-- With none, a table without one of the classes is refused at word 16. -/
theorem slotsFault_of_codes (ps : List Word) (h : (classesOf ps).findIdx? Option.isNone = none) :
    (namesEvery ps → slotsFault ps = none) ∧ (¬namesEvery ps → slotsFault ps = some 16) := by
  have every : ([PortClass.proc, .journal, .patrol, .link, .setup].all (fun c => (classesOf ps).contains (some c)) = true) ↔
      namesEvery ps := by
    simp only [List.all_eq_true, List.contains_iff_mem, namesEvery]
    exact ⟨fun h c => h c (by cases c <;> simp), fun h c _ => h c⟩
  unfold slotsFault
  dsimp only
  rw [show ps.map (fun w => portClassOf w.toNat) = classesOf ps from rfl, h]
  exact ⟨fun hn => if_pos (every.2 hn), fun hn => if_neg (fun he => hn (every.1 he))⟩

/-- Parameter word j, where there are that many, is the list's (R169). -/
theorem param_eq_getElem (ps : List Word) (i : Nat) (h : i < ps.length) : param ps (i + 1) = (ps[i]).toNat := by
  simp [param, List.getElem?_eq_getElem h]

/-- LOAD_SLOTS, taken in CONFIGURING with its 16 parameters. -/
theorem exec_loadSlots (tag : Byte) (ps : List Word) (s : State) (ht : Claim.takes .loadSlots s)
    (hc : s.dev = .configuring) (hl : ps.length = 16) :
    exec (.loadSlots tag ps) s = .next (takeLoadSlots tag ps (Claim.presented .loadSlots tag ps s)) :=
  exec_software_of_takes .loadSlots tag ps s ht (by simp [lengthFits, hl]) (if_pos hc)

/-- The words that spell classes name them. -/
theorem classesOf_codes (classes : List PortClass) :
    classesOf (classes.map (fun c => BitVec.ofNat 32 (portClassCode c))) = classes.map some := by
  rw [classesOf, List.map_map]
  exact List.map_congr_left fun c _ => portClassOf_code c

/-- A list of class codes that names every class is stored as those classes. -/
theorem slotsFault_of_classes (classes : List PortClass) (h : ∀ c, c ∈ classes) :
    slotsFault (classes.map (fun c => BitVec.ofNat 32 (portClassCode c))) = none ∧
      (classes.map (fun c => BitVec.ofNat 32 (portClassCode c))).filterMap (fun w => portClassOf w.toNat) = classes := by
  have named := classesOf_codes classes
  constructor
  · have all_some : (classes.map some).findIdx? Option.isNone = none := by simp [List.findIdx?_eq_none_iff]
    refine (slotsFault_of_codes _ (by rw [named, all_some])).1 fun c => ?_
    rw [named]
    exact List.mem_map_of_mem (h c)
  · have stored : (classesOf (classes.map (fun c => BitVec.ofNat 32 (portClassCode c)))).filterMap id = classes := by
      simp [named]
    rwa [classesOf, List.filterMap_map] at stored

/-- Which word LOAD_SLOTS is refused at (R49). -/
theorem slotsFault_eq_some (ps : List Word) (word : Nat) (hl : ps.length = 16)
    (h : 1 ≤ word ∧ word ≤ 16 ∧ (∀ j, 1 ≤ j → j < word → 1 ≤ param ps j ∧ param ps j ≤ 5) ∧
        ¬(1 ≤ param ps word ∧ param ps word ≤ 5) ∨
      word = 16 ∧ (∀ j, 1 ≤ j → j ≤ 16 → 1 ≤ param ps j ∧ param ps j ≤ 5) ∧
        ∃ c, 1 ≤ c ∧ c ≤ 5 ∧ ∀ j, 1 ≤ j → j ≤ 16 → param ps j ≠ c) : slotsFault ps = some word := by
  have length : (classesOf ps).length = 16 := by simp [classesOf, hl]
  have names : ∀ (i : Nat) (hi : i < (classesOf ps).length),
      (classesOf ps)[i].isNone = true ↔ ¬(1 ≤ param ps (i + 1) ∧ param ps (i + 1) ≤ 5) := by
    intro i hi
    rw [param_eq_getElem ps i (by omega), ← portClassOf_eq_none_iff, Option.isNone_iff_eq_none]
    simp [classesOf]
  rcases h with ⟨h1, h16, hbefore, hbad⟩ | ⟨rfl, hcodes, c, hc1, hc5, hmiss⟩
  · have first : (classesOf ps).findIdx? Option.isNone = some (word - 1) := by
      refine List.findIdx?_eq_some_iff_getElem.2 ⟨by omega, ?_, fun j hj => ?_⟩
      · rw [names _ (by omega), Nat.sub_add_cancel h1]
        exact hbad
      · rw [names _ (by omega), not_not]
        exact hbefore (j + 1) (by omega) (by omega)
    rw [slotsFault_of_findIdx ps _ first, Nat.sub_add_cancel h1]
  · have none_bad : (classesOf ps).findIdx? Option.isNone = none := by
      refine List.findIdx?_eq_none_iff.2 fun x hx => ?_
      obtain ⟨i, hi, rfl⟩ := List.mem_iff_getElem.1 hx
      rw [Bool.eq_false_iff, ne_eq, names i hi, not_not]
      exact hcodes (i + 1) (by omega) (by omega)
    have missing : ¬namesEvery ps := by
      intro hall
      obtain ⟨d, hd⟩ := Option.ne_none_iff_exists'.1 (mt (portClassOf_eq_none_iff c).1 (not_not.2 ⟨hc1, hc5⟩))
      obtain ⟨i, hi, hci⟩ := List.mem_iff_getElem.1 (hall d)
      have named : portClassOf (param ps (i + 1)) = some d := by
        rw [param_eq_getElem ps i (by omega), ← hci]
        simp [classesOf]
      refine hmiss (i + 1) (by omega) (by omega) ?_
      rw [← portClassCode_of_portClassOf named, ← portClassCode_of_portClassOf hd]
    exact (slotsFault_of_codes ps none_bad).2 missing

/-- Settles O17: the arbitration is the scan of the slots over the classes' requests, and LOAD_SLOTS is judged by
`slotsFault`. -/
theorem slotTableIsLoaded : Obligations.SlotTableIsLoaded := by
  refine ⟨fun tag classes s ht hc hl hall => ?_, fun tag ps word s ht hc hl h => ?_, fun s g p hl => nextGrant_eq_some_iff s g p hl,
    fun s hl hall => nextGrant_eq_none_iff s hl hall, firstAccess_eq_some_iff, fun s c g hm hn => ?_⟩
  · obtain ⟨passes, stored⟩ := slotsFault_of_classes classes hall
    refine ⟨_, exec_loadSlots tag _ s ht hc (by simp [hl]), ?_⟩
    simp only [takeLoadSlots, passes, stored, done]
    exact ⟨respond_eq_withResponse .., response_respond _ _ _ _ _ _ rfl⟩
  · refine ⟨_, exec_loadSlots tag ps s ht hc hl, ?_⟩
    simp only [takeLoadSlots, slotsFault_eq_some ps word hl h, badField]
    exact ⟨respond_eq_withResponse .., response_respond _ _ _ _ _ _ rfl⟩
  · simp only [List.mem_cons, Prod.mk.injEq, List.not_mem_nil, or_false] at hm
    rcases hm with ⟨rfl, rfl⟩ | ⟨rfl, rfl⟩ | ⟨rfl, rfl⟩ | ⟨rfl, rfl⟩ | ⟨rfl, rfl⟩ | ⟨rfl, rfl⟩ | ⟨rfl, rfl⟩ |
      ⟨rfl, rfl⟩ | ⟨rfl, rfl⟩ | ⟨rfl, rfl⟩ | ⟨rfl, rfl⟩ <;>
      exact congrArg Host.Outcome.next (granted_of_not_next _ _ s hn)

end Sys2Proof.Machine
end

section
/-! PROOFS. What the operations that move the states of R69, R135, R136 and R160 make of the state, each written out as the
record that it leaves: only the transmit queues and the event queue are left open. -/

namespace Sys2Proof.Machine

open Sys2Proof

/-- The VTU with PERMIT off; the line is low where it was on (R137). -/
def Vtu.dropped (v : Vtu) : Vtu := { v with permitted := false, level := v.level && !v.permitted }

@[simp] theorem dropPermit_vtu (c : PermitCause) (s : State) : (dropPermit c s).vtu = s.vtu.dropped := by
  unfold dropPermit Vtu.dropped
  split
  case isTrue h => simp [h]
  case isFalse h =>
    cases hv : s.vtu
    simp_all

/-- A lost PERMIT changes the VTU and, with its event, the event queue. -/
theorem dropPermit_frame (c : PermitCause) (s : State) :
    dropPermit c s = { s with vtu := s.vtu.dropped, cmu := s.cmu.withEvents (dropPermit c s).cmu } := by
  have hv := dropPermit_vtu c s
  revert hv
  unfold dropPermit
  split
  case isTrue =>
    intro hv
    rw [← hv, recordEvent_frame]
    rfl
  case isFalse =>
    intro hv
    rw [← hv]
    rfl

/-- A control frame changes only the transmit queues. -/
theorem sendCtrl_frame (f : CtrlFrame) (l : Link) (s : State) :
    sendCtrl f l s = { s with lkc.tx := (sendCtrl f l s).lkc.tx } := by
  unfold sendCtrl modifyTx
  split <;> rfl

theorem sendBoth_frame (f : CtrlFrame) (s : State) : sendBoth f s = { s with lkc.tx := (sendBoth f s).lkc.tx } := by
  unfold sendBoth
  rw [sendCtrl_frame f .two, sendCtrl_frame f .one]

theorem helloTrigger_frame (s : State) : helloTrigger s = { s with lkc.tx := (helloTrigger s).lkc.tx } :=
  sendBoth_frame .hello s

@[simp] theorem setDev_dev (d : DeviceState) (t : State) : (setDev d t).dev = d := by
  unfold setDev
  split
  · assumption
  · simp

theorem setDev_frame (d : DeviceState) (s : State) :
    setDev d s = { s with dev := d, lkc.tx := (setDev d s).lkc.tx } := by
  unfold setDev
  split
  case isTrue h => subst h; rfl
  case isFalse => rw [helloTrigger_frame]

@[simp] theorem setAgreed_vtu (b : Bool) (t : State) : (setAgreed b t).vtu = { t.vtu with agreedBase := b } := by
  unfold setAgreed
  split
  case isTrue h => subst h; rfl
  case isFalse => simp

theorem setAgreed_frame (b : Bool) (s : State) :
    setAgreed b s = { s with vtu := { s.vtu with agreedBase := b }, lkc.tx := (setAgreed b s).lkc.tx } := by
  unfold setAgreed
  split
  case isTrue h => subst h; rfl
  case isFalse => rw [helloTrigger_frame]

/-- The VTU after the channel state has taken a value: outside the states of R136 PERMIT is lost. -/
def Vtu.toChan (v : Vtu) (old new : Option ChannelState) : Vtu := if old = new ∨ permitState new = true then v else v.dropped

@[simp] theorem setChan_vtu (c : Option ChannelState) (s : State) : (setChan c s).vtu = s.vtu.toChan s.cju.chan c := by
  unfold setChan Vtu.toChan
  by_cases h : s.cju.chan = c
  · simp [h]
  · by_cases hp : permitState c = true <;> simp [h, hp]

@[simp] theorem setChan_cju (c : Option ChannelState) (s : State) : (setChan c s).cju = { s.cju with chan := c } := by
  unfold setChan
  split
  case isTrue h => subst h; rfl
  case isFalse =>
    dsimp only
    split <;> simp

/-- Taking a channel state moves the CJU's state, PERMIT, the transmit queues and, with PERMIT, the event queue. -/
theorem setChan_frame (c : Option ChannelState) (s : State) :
    setChan c s =
      { s with
        cju := { s.cju with chan := c }
        vtu := s.vtu.toChan s.cju.chan c
        lkc.tx := (setChan c s).lkc.tx
        cmu := s.cmu.withEvents (setChan c s).cmu } := by
  rw [← setChan_vtu, ← setChan_cju]
  unfold setChan
  split
  case isTrue => rfl
  case isFalse =>
    dsimp only
    split
    case isTrue => rw [helloTrigger_frame]; rfl
    case isFalse => rw [dropPermit_frame, helloTrigger_frame]; rfl

/-- Into a state of R136 the channel moves with PERMIT as it is and no event. -/
theorem setChan_of_permitState (c : Option ChannelState) (s : State) (h : permitState c = true) :
    setChan c s = { s with cju := { s.cju with chan := c }, lkc.tx := (setChan c s).lkc.tx } := by
  have hframe := setChan_frame c s
  have hcmu : (setChan c s).cmu = s.cmu := by
    unfold setChan
    split
    · rfl
    · simp
  have hvtu : s.vtu.toChan s.cju.chan c = s.vtu := if_pos (Or.inr h)
  rw [hcmu, hvtu] at hframe
  exact hframe

@[simp] theorem enterReady_cju (s : State) :
    (enterReady s).cju = { s.cju with chan := some .ready, wCur := [], journal := [], unrevertible := false } := by
  simp [enterReady, emptyJournal]

@[simp] theorem enterReady_vtu (s : State) : (enterReady s).vtu = s.vtu := by
  simp [enterReady, Vtu.toChan, permitState]

/-- Entering READY empties the journal; PERMIT and the event queue stay. -/
theorem enterReady_frame (s : State) :
    enterReady s =
      { s with
        cju := { s.cju with chan := some .ready, wCur := [], journal := [], unrevertible := false }
        lkc.tx := (enterReady s).lkc.tx } :=
  setChan_of_permitState (some .ready) (emptyJournal s) rfl

/-- The service record and the marks after an active service has ended (R154, R156). -/
def Service.ended (r : Service) : Service := { r with phase := .idle, timer := none, tried := [], waiting := false }

/-- A service that is not active does not end. -/
theorem endService_of_idle (r : PullResult) (es : Option (List SigEntry)) (s : State) (h : s.rse.service.phase = .idle) :
    endService r es s = s := by
  have hs : serving s = false := by simp [serving, h]
  unfold endService
  split <;> simp [hs]

/-- The end of an active service: its PULL_END is queued, its BLOCK frames are withdrawn, a HELLO is queued behind, and the
event is recorded (R157). -/
theorem endService_of_serving (result : PullResult) (es : Option (List SigEntry)) (l : Link) (s : State)
    (hs : serving s = true) (hl : s.rse.service.requester = some l) :
    endService result es s =
      { s with
        cju := { s.cju with resend := [] }
        lkc.tx := (endService result es s).lkc.tx
        rse.service := s.rse.service.ended
        cmu := s.cmu.withEvents (recordEvent (.serviceEnded (peerPosition s.position l) result) s).cmu } := by
  unfold endService
  simp only [hl, hs, if_true]
  rw [recordEvent_frame, helloTrigger_frame, sendCtrl_frame]
  simp [recordEvent, voteCycle, Service.ended, Cmu.withEvents, modifyTx]

/-- Without an active service, or without a requester, nothing ends. -/
theorem endService_of_not_serving (result : PullResult) (es : Option (List SigEntry)) (s : State)
    (h : serving s = false ∨ s.rse.service.requester = none) : endService result es s = s := by
  unfold endService
  rcases h with h | h
  · split <;> simp [h]
  · simp [h]

/-- The end of a service changes the marks, the service record, the transmit queues and the event queue. -/
theorem endService_frame (result : PullResult) (es : Option (List SigEntry)) (s : State) :
    endService result es s =
      { s with
        cju := { s.cju with resend := (endService result es s).cju.resend }
        lkc.tx := (endService result es s).lkc.tx
        rse.service := (endService result es s).rse.service
        cmu := s.cmu.withEvents (endService result es s).cmu } := by
  cases hl : s.rse.service.requester with
  | none => rw [endService_of_not_serving result es s (Or.inr hl)]; rfl
  | some l =>
    cases hs : serving s with
    | false => rw [endService_of_not_serving result es s (Or.inl hs)]; rfl
    | true =>
      have h := endService_of_serving result es l s hs hl
      rw [h]
      rfl

/-- After the end of a service with its requester known none is active. -/
theorem endService_phase (result : PullResult) (es : Option (List SigEntry)) (s : State)
    (h : serving s = true → s.rse.service.requester.isSome = true) :
    (endService result es s).rse.service.phase = .idle := by
  cases hs : serving s with
  | false =>
    rw [endService_of_not_serving result es s (Or.inl hs)]
    simpa [serving] using hs
  | true =>
    obtain ⟨l, hl⟩ := Option.isSome_iff_exists.1 (h hs)
    rw [endService_of_serving result es l s hs hl]
    rfl

/-! ### What the event queue keeps -/

/-- A property of the event queue that every admitted record keeps, appended or as the count of a refusal (R23, R177); the
events of a step's end are admitted. -/
structure EventRule (admits : EventBody → Prop) (P : List Record → Prop) : Prop where
  refused : ∀ reason ini a region n, admits (.accessRefused reason ini a region n)
  ended : ∀ peer result, admits (.serviceEnded peer result)
  append : ∀ l r, admits r.body → P l → P (l ++ [r])
  extend : ∀ l r reason ini a region n, eventKind r.body = 1 → P (l ++ [r]) →
    P (l ++ [{ r with body := .accessRefused reason ini a region n }])

/-- The event that a refusal makes of the newest one is a refusal. -/
theorem refusal_of_repeated {reason : AccessReason} {ini : Initiator} {region : Option Nat} {b c : EventBody}
    (h : repeated reason ini region b = some c) : ∃ a n, c = .accessRefused reason ini a region n := by
  unfold repeated at h
  split at h
  case h_1 => exact ⟨_, _, (Option.some.inj (Option.ite_none_right_eq_some.1 h).2).symm⟩
  case h_2 => cases h

namespace EventRule

variable {admits : EventBody → Prop} {P : List Record → Prop}

theorem recordEvent (rule : EventRule admits P) (b : EventBody) (s : State) (hb : admits b) (h : P s.cmu.events) :
    P (recordEvent b s).cmu.events := by
  unfold Machine.recordEvent Cmu.record
  split
  · simpa using rule.append _ _ hb h
  · exact h

theorem recordRefusal (rule : EventRule admits P) (reason : AccessReason) (ini : Initiator) (a : Nat)
    (region : Option Nat) (s : State) (h : P s.cmu.events) : P (recordRefusal reason ini a region s).cmu.events := by
  unfold Machine.recordRefusal
  split
  case h_1 newest hl =>
    split
    case h_1 b hb =>
      obtain ⟨a', n, rfl⟩ := refusal_of_repeated hb
      exact rule.extend _ _ _ _ _ _ _ (eventKind_of_repeated hb) (by rwa [List.dropLast_append_getLast? newest hl])
    case h_2 => exact rule.recordEvent _ s (rule.refused ..) h
  case h_2 => exact rule.recordEvent _ s (rule.refused ..) h

theorem judge (rule : EventRule admits P) (w : Bool) (t : Transfer) (s : State) (h : P s.cmu.events) :
    P (judge w t s).1.cmu.events := by
  unfold Machine.judge
  split
  case h_1 => simpa using rule.recordRefusal _ _ _ _ s h
  case h_2 => (repeat' split) <;> simp [h]

theorem releaseOne (rule : EventRule admits P) (g : Held) (s : State) (h : P s.cmu.events) :
    P (releaseOne g s).cmu.events := by
  unfold Machine.releaseOne
  (repeat' split) <;> simp [h, rule.judge _ _ s h]

theorem releaseHeld (rule : EventRule admits P) (s : State) (h : P s.cmu.events) : P (releaseHeld s).cmu.events := by
  have fold : ∀ (l : List Held) (s : State), P s.cmu.events →
      P (l.foldl (fun s g => Machine.releaseOne g s) s).cmu.events := by
    intro l
    induction l with
    | nil => exact fun _ h => h
    | cons g l ih => exact fun s h => ih _ (rule.releaseOne g s h)
  unfold Machine.releaseHeld
  split
  · exact h
  · exact fold _ s h

theorem endService (rule : EventRule admits P) (result : PullResult) (es : Option (List SigEntry)) (s : State)
    (h : P s.cmu.events) : P (endService result es s).cmu.events := by
  unfold Machine.endService
  (repeat' split)
  · exact rule.recordEvent _ _ (rule.ended ..) (by simpa using h)
  all_goals exact h

theorem serviceTick (rule : EventRule admits P) (s : State) (h : P s.cmu.events) : P (serviceTick s).cmu.events := by
  unfold Machine.serviceTick finishService
  (repeat' split) <;> simp [h, rule.endService]

/-- The end of a step keeps the property. -/
theorem settle (rule : EventRule admits P) (s : State) (h : P s.cmu.events) : P (settle s).cmu.events := by
  simpa [Machine.settle] using rule.serviceTick _ (rule.releaseHeld s h)

end EventRule

/-- The queue has grown by at least one record behind those of `old`. -/
def Grown (old l : List Record) : Prop := ∃ r rest, l = old ++ r :: rest

/-- Once the queue has grown, the records before stay (R23, R177). -/
theorem grown_rule (old : List Record) : EventRule (fun _ => True) (Grown old) where
  refused _ _ _ _ _ := trivial
  ended _ _ := trivial
  append := by
    rintro _ x - ⟨r, rest, rfl⟩
    exact ⟨r, rest ++ [x], by simp⟩
  extend := by
    rintro l x reason ini a region n - ⟨r, rest, h⟩
    rcases List.eq_nil_or_concat rest with rfl | ⟨ys, y, rfl⟩
    · obtain ⟨rfl, -⟩ := List.append_inj' h rfl
      exact ⟨_, [], rfl⟩
    · have h' : l ++ [x] = (old ++ r :: ys) ++ [y] := by simpa using h
      obtain ⟨rfl, -⟩ := List.append_inj' h' rfl
      exact ⟨r, ys ++ [{ x with body := .accessRefused reason ini a region n }], by simp⟩

/-- An event that finds room lets the queue grow. -/
theorem grown_recordEvent (old : List Record) (b : EventBody) (s : State) (room : s.cmu.events.length < 64)
    (h : old = s.cmu.events ∨ Grown old s.cmu.events) : Grown old (recordEvent b s).cmu.events := by
  rcases h with rfl | h
  · rw [(recordEvent_of_room b s room).1]
    exact ⟨_, [], rfl⟩
  · exact (grown_rule old).recordEvent b s trivial h

theorem Grown.isPrefix {old l : List Record} (h : Grown old l) : old <+: l := by
  obtain ⟨r, rest, rfl⟩ := h
  exact List.prefix_append _ _

end Sys2Proof.Machine
end

section
/-! PROOFS. Configuration (R5 to R8, R10, R93, R163, R164): SET_PATROL, the commands that change the region table once the
queue has drained, and the entry into SIGNING. -/

namespace Sys2Proof.Machine

open Sys2Proof

/-! ### SET_PATROL -/

/-- The PTU with the enable flag and the interval of a SET_PATROL: a walk switched on in RUNNING begins, and one switched off
rests, at the lowest patrolled block (R93, R94). -/
def patrolSet (s : State) (enable : Bool) (interval : Nat) : Ptu :=
  if s.dev = .running ∧ enable ≠ s.ptu.enable then
    ⟨enable, interval, nextBlock (patrolled s) 0, 0, false, if enable then some interval else none, false, false⟩
  else { s.ptu with enable := enable, interval := interval }

/-- An enable word above 1 is answered BAD_FIELD at word 1 (R93). -/
theorem takeSetPatrol_of_lt (tag : Byte) (a b : Word) (s : State) (h : 1 < a.toNat) :
    takeSetPatrol tag [a, b] s = badField 1 tag s :=
  if_pos h

/-- A word of 0 or 1 is the number of its flag. -/
theorem ofNat_bit_of_le (a : Word) (h : a.toNat ≤ 1) : BitVec.ofNat 32 (bit (a.toNat == 1)) = a := by
  apply BitVec.eq_of_toNat_eq
  have cases01 : a.toNat = 0 ∨ a.toNat = 1 := by omega
  rcases cases01 with h | h <;> rw [h] <;> rfl

/-- What the two parameters make of the part. -/
theorem walk_of_patrolSet (s : State) (enable : Bool) (interval : Nat) :
    (let t := { s with ptu := { s.ptu with enable := enable, interval := interval } }
     if s.dev = .running ∧ enable ≠ s.ptu.enable then (if enable then startWalk t else stopWalk t) else t) =
      { s with ptu := patrolSet s enable interval } := by
  dsimp only
  unfold patrolSet
  split
  case isTrue => cases enable <;> rfl
  case isFalse => rfl

/-- Any other pair of words is stored and answered (R93). -/
theorem takeSetPatrol_of_le (tag : Byte) (a b : Word) (s : State) (h : a.toNat ≤ 1) :
    takeSetPatrol tag [a, b] s =
      respond .done 0 tag [a, BitVec.ofNat 32 (clamp 1 1023 b.toNat)]
        { s with ptu := patrolSet s (a.toNat == 1) (clamp 1 1023 b.toNat) } := by
  have h1 : ¬1 < param [a, b] 1 := Nat.not_lt.2 h
  have ha : param [a, b] 1 = a.toNat := rfl
  have hb : param [a, b] 2 = b.toNat := rfl
  have stored := walk_of_patrolSet s (a.toNat == 1) (clamp 1 1023 b.toNat)
  unfold takeSetPatrol
  rw [if_neg h1]
  dsimp only at stored ⊢
  rw [ha, hb, stored, List.map_cons, List.map_cons, List.map_nil, ofNat_bit_of_le a h, done]

/-- The flag and the interval that stand after SET_PATROL. -/
theorem patrolSet_stored (s : State) (enable : Bool) (interval : Nat) :
    (patrolSet s enable interval).enable = enable ∧ (patrolSet s enable interval).interval = interval := by
  unfold patrolSet
  split <;> exact ⟨rfl, rfl⟩

/-- Settles O20: SET_PATROL's two answers are the lemmas about `takeSetPatrol`. -/
theorem patrolIsSet : Obligations.PatrolIsSet := by
  intro tag a b s ht
  have step := exec_software_of_takes .setPatrol tag [a, b] s ht rfl rfl
  rw [effectOf] at step
  refine ⟨fun h => ?refused, fun h => ?stored⟩
  case refused =>
    rw [takeSetPatrol_of_lt tag a b _ h] at step
    exact ⟨_, step, respond_eq_withResponse .., response_respond _ _ _ _ _ _ rfl⟩
  case stored =>
    rw [takeSetPatrol_of_le tag a b _ h] at step
    have fields : ∀ t : State, t.ptu = patrolSet s (a.toNat == 1) (clamp 1 1023 b.toNat) →
        t.ptu.enable = decide (a.toNat = 1) ∧ t.ptu.interval = max 1 (min 1023 b.toNat) ∧
        (s.dev ≠ .running ∨ t.ptu.enable = s.ptu.enable →
          t.ptu = { s.ptu with enable := t.ptu.enable, interval := t.ptu.interval }) ∧
        (s.dev = .running → t.ptu.enable ≠ s.ptu.enable →
          t.ptu =
            ⟨t.ptu.enable, t.ptu.interval,
             nextBlock ((s.rgt.entries.map (fun e => e.2.desc)).filter Descriptor.patrol) 0, 0, false,
             if t.ptu.enable then some t.ptu.interval else none, false, false⟩) := by
      intro t ht
      obtain ⟨he, hi⟩ := patrolSet_stored s (a.toNat == 1) (clamp 1 1023 b.toNat)
      rw [ht, he, hi]
      refine ⟨rfl, rfl, fun hd => if_neg fun hc => ?_, fun hd hne => if_pos ⟨hd, hne⟩⟩
      rcases hd with hd | hd
      · exact hd hc.1
      · exact hc.2 hd
    obtain ⟨henable, hinterval, hkept, hwalk⟩ := fields
      (respond .done 0 tag [a, BitVec.ofNat 32 (clamp 1 1023 b.toNat)]
        { Claim.presented .setPatrol tag [a, b] s with ptu := patrolSet s (a.toNat == 1) (clamp 1 1023 b.toNat) }) rfl
    have answer := response_respond .done 0 tag [a, BitVec.ofNat 32 (clamp 1 1023 b.toNat)] s
      { Claim.presented .setPatrol tag [a, b] s with ptu := patrolSet s (a.toNat == 1) (clamp 1 1023 b.toNat) } rfl
    exact ⟨_, step, rfl, henable, hinterval, hkept, hwalk, hinterval ▸ answer⟩

/-! ### The queue has drained -/

/-- A drained command's work runs (R8, R36). -/
theorem drained_of_drainedUnder (cmd : Command) (work : CmdFrame → State → State) (f : CmdFrame) (s : State)
    (h : Claim.drainedUnder cmd f s) : whenReady (drained cmd work) s = work f s := by
  obtain ⟨hr, hb, hc, hq⟩ := h
  rw [whenReady_of_ready _ s hr, drained, hb]
  exact if_pos ⟨hc, hq⟩

/-- What the table lists after entries have been unloaded (R7). -/
theorem assocFind_unloadAll (l : List Nat) (s : State) (k : Nat) :
    assocFind (l.foldl (fun s i => unloadRegion i s) s).rgt.entries k =
      if k ∈ l then none else assocFind s.rgt.entries k := by
  induction l generalizing s with
  | nil => rfl
  | cons i l ih =>
    rw [List.foldl_cons, ih, unloadRegion_entries, assocFind_erase]
    by_cases hk : k ∈ l
    · simp [hk]
    · by_cases hi : i = k
      · simp [hi]
      · simp [hk, hi, Ne.symm hi]

/-- Unloading entries leaves everything but the table and the signatures. -/
theorem unloadAll_keeps (l : List Nat) (s : State) :
    (l.foldl (fun s i => unloadRegion i s) s).mpu = s.mpu ∧ (l.foldl (fun s i => unloadRegion i s) s).cju = s.cju ∧
      (l.foldl (fun s i => unloadRegion i s) s).dev = s.dev ∧
      (l.foldl (fun s i => unloadRegion i s) s).cmu = s.cmu ∧
      (l.foldl (fun s i => unloadRegion i s) s).rgt.fingerprint = s.rgt.fingerprint := by
  refine ⟨?_, ?_, ?_, ?_, ?_⟩
  · exact foldl_keep _ State.mpu (by simp) l s
  · exact foldl_keep _ State.cju (by simp) l s
  · exact foldl_keep _ State.dev (by simp) l s
  · exact foldl_keep _ State.cmu (by simp) l s
  · exact foldl_keep _ (fun s => s.rgt.fingerprint) (by simp) l s

/-- A lawful table lists nothing at an index above 31 (R1). -/
theorem assocFind_of_le (s : State) (h : tableLaw s = true) (k : Nat) (hk : 32 ≤ k) : assocFind s.rgt.entries k = none := by
  by_contra hn
  obtain ⟨r, hr⟩ := Option.ne_none_iff_exists'.1 hn
  obtain ⟨-, fits, -⟩ := (tableLaw_iff s).1 h
  exact absurd (fits _ (mem_of_assocFind _ _ _ hr)).1 (Nat.not_lt.2 hk)

/-- The entries that a CLEAR_TABLE unloads (R7). -/
def clearedIndices (f : CmdFrame) : List Nat :=
  match f.params with
  | [] => List.range 32
  | w :: _ => [w.toNat]

/-- CLEAR_TABLE unloads its entries, lets the walk rest and answers DONE (R7, R94). -/
theorem clearTableNow_eq (f : CmdFrame) (s : State) :
    clearTableNow f s =
      settle (respond .done 0 f.tag [] (stopWalk ((clearedIndices f).foldl (fun s i => unloadRegion i s) s))) := by
  unfold clearTableNow clearedIndices
  cases f.params <;> rfl

/-- What a CLEAR_TABLE leaves in the table. -/
theorem assocFind_clearTable (f : CmdFrame) (s : State) (h : tableLaw s = true) (k : Nat) :
    assocFind ((clearedIndices f).foldl (fun s i => unloadRegion i s) s).rgt.entries k =
      if f.params = [] ∨ param f.params 1 = k then none else assocFind s.rgt.entries k := by
  rw [assocFind_unloadAll]
  unfold clearedIndices
  cases hp : f.params with
  | nil =>
    simp only [List.mem_range, true_or, if_true]
    split
    · rfl
    · exact assocFind_of_le s h k (by omega)
  | cons w ws =>
    simp only [List.mem_singleton, reduceCtorEq, false_or]
    exact if_congr ⟨fun e => e.symm, fun e => e.symm⟩ rfl rfl

/-! ### The checks of LOAD_REGION -/

/-- The kind that a word which names one spells (R5). -/
theorem descriptorOf_kind (ps : List Word) (k : RegionKind) (h : regionKindOf (param ps 2) = some k) :
    (descriptorOf ps).kind = k := by
  simp [descriptorOf, h]

/-- The codes that name a kind are 1 to 3 (12.1). -/
theorem regionKindOf_cases (n : Nat) (h : n = 1 ∨ n = 2 ∨ n = 3) :
    (n = 1 ∧ regionKindOf n = some .vital) ∨ (n = 2 ∧ regionKindOf n = some .code) ∨
      (n = 3 ∧ regionKindOf n = some .plain) := by
  rcases h with rfl | rfl | rfl
  · exact Or.inl ⟨rfl, rfl⟩
  · exact Or.inr (Or.inl ⟨rfl, rfl⟩)
  · exact Or.inr (Or.inr ⟨rfl, rfl⟩)

/-- Checks 1 to 5 and 10 of R6 as the table's loader makes them. -/
theorem regionCheck_plain (entries : List (Nat × Region)) (ps : List Word) :
    (Claim.regionCheck entries ps 1 ↔ param ps 1 < Config.regions) ∧
    (Claim.regionCheck entries ps 2 ↔ regionKindOf (param ps 2) ≠ none) ∧
    (Claim.regionCheck entries ps 3 ↔ (descriptorOf ps).first < Config.blocks) ∧
    (Claim.regionCheck entries ps 4 ↔
      1 ≤ (descriptorOf ps).count ∧ (descriptorOf ps).count ≤ Config.blocks ∧
        (descriptorOf ps).first + (descriptorOf ps).count ≤ Config.blocks) ∧
    (Claim.regionCheck entries ps 5 ↔
      ¬((entries.filter (fun e => e.1 != param ps 1)).any (fun e => e.2.desc.overlaps (descriptorOf ps)) = true)) ∧
    (Claim.regionCheck entries ps 10 ↔ param ps 9 ≤ 1) := by
  refine ⟨Nat.lt_succ_iff.symm, ?_, Nat.lt_succ_iff.symm, Iff.rfl, ?_, Iff.rfl⟩
  · change (param ps 2 = 1 ∨ param ps 2 = 2 ∨ param ps 2 = 3) ↔ _
    generalize param ps 2 = n
    unfold regionKindOf
    split <;> simp_all
  · change (∀ e ∈ entries, e.1 ≠ param ps 1 →
      param ps 3 + param ps 4 ≤ e.2.desc.first ∨ e.2.desc.first + e.2.desc.count ≤ param ps 3) ↔ _
    have first : (descriptorOf ps).first = param ps 3 := rfl
    have count : (descriptorOf ps).count = param ps 4 := rfl
    simp only [List.any_eq_true, List.mem_filter, bne_iff_ne, not_exists, not_and, and_imp, Descriptor.overlaps,
      Bool.and_eq_true, decide_eq_true_eq, first, count]
    exact forall₂_congr fun e _ => forall_congr' fun _ => by omega

/-- Bit k of the rights word. -/
theorem getLsbD_rights (ps : List Word) (k : Nat) (hk : k < 6) :
    (descriptorOf ps).rights.getLsbD k = (param ps 5).testBit k := by
  rw [descriptorOf, BitVec.getLsbD_ofNat, decide_eq_true hk, Bool.true_and]

/-- Checks 6 to 9 of R6 as the table's loader makes them, once the kind is one of 12.1. -/
theorem regionCheck_of_kind (entries : List (Nat × Region)) (ps : List Word) (h : Claim.regionCheck entries ps 2) :
    (Claim.regionCheck entries ps 6 ↔
      param ps 5 < 64 ∧ rightsFit (descriptorOf ps).kind (descriptorOf ps).rights = true) ∧
    (Claim.regionCheck entries ps 7 ↔
      ¬((if (descriptorOf ps).signed = true then
          decide ((descriptorOf ps).slot < Config.sigSlots) &&
            (entries.filter (fun e => e.1 != param ps 1)).all
              (fun e => !e.2.desc.signed || e.2.desc.slot != (descriptorOf ps).slot)
        else (descriptorOf ps).slot == 0) = false)) ∧
    (Claim.regionCheck entries ps 8 ↔ ¬factorFits (descriptorOf ps).signed (descriptorOf ps).base = false) ∧
    (Claim.regionCheck entries ps 9 ↔ ¬factorFits (descriptorOf ps).signed (descriptorOf ps).mult = false) := by
  have slot : (descriptorOf ps).slot = param ps 6 := rfl
  have base : (descriptorOf ps).base = param ps 7 := rfl
  have mult : (descriptorOf ps).mult = param ps 8 := rfl
  have signed_iff : ∀ d : Descriptor, d.signed = true ↔ d.kind ≠ .plain := by
    intro d
    unfold Descriptor.signed RegionKind.signed
    cases d.kind <;> simp
  have factor : ∀ v, (¬factorFits true v = false) ↔ 1 ≤ v ∧ v ≤ 2147483646 := by
    intro v
    simp only [factorFits, if_true, Bool.not_eq_false, Bool.and_eq_true, decide_eq_true_eq]
    exact Iff.rfl
  have zero : ∀ v, (¬factorFits false v = false) ↔ v = 0 := by
    intro v
    simp [factorFits]
  have slots : (decide ((descriptorOf ps).slot < Config.sigSlots) &&
        (entries.filter (fun e => e.1 != param ps 1)).all
          (fun e => !e.2.desc.signed || e.2.desc.slot != (descriptorOf ps).slot)) = true ↔
      param ps 6 ≤ 15 ∧ ∀ e ∈ entries, e.1 ≠ param ps 1 → e.2.desc.kind ≠ .plain → e.2.desc.slot ≠ param ps 6 := by
    simp only [Bool.and_eq_true, decide_eq_true_eq, List.all_eq_true, List.mem_filter, bne_iff_ne, Bool.or_eq_true,
      Bool.not_eq_true', and_imp, slot]
    refine and_congr Nat.lt_succ_iff (forall₂_congr fun e _ => forall_congr' fun _ => ?_)
    rw [← signed_iff]
    cases e.2.desc.signed <;> simp
  have rights : ∀ k, k < 6 → (descriptorOf ps).rights.getLsbD k = (param ps 5).testBit k := getLsbD_rights ps
  rcases regionKindOf_cases (param ps 2) h with ⟨hn, hk⟩ | ⟨hn, hk⟩ | ⟨hn, hk⟩
  · have kind := descriptorOf_kind ps _ hk
    have signed : (descriptorOf ps).signed = true := by rw [Descriptor.signed, kind]; rfl
    rw [signed, if_pos rfl, Bool.not_eq_false, slots, factor, factor, kind]
    simp only [Claim.regionCheck, hn, rightsFit, rights, Nat.reduceLT, Bool.and_eq_true, Bool.not_eq_true']
    simp [base, mult, and_assoc]
  · have kind := descriptorOf_kind ps _ hk
    have signed : (descriptorOf ps).signed = true := by rw [Descriptor.signed, kind]; rfl
    rw [signed, if_pos rfl, Bool.not_eq_false, slots, factor, factor, kind]
    simp only [Claim.regionCheck, hn, rightsFit, rights, Nat.reduceLT, Bool.and_eq_true, Bool.not_eq_true']
    simp [base, mult]
  · have kind := descriptorOf_kind ps _ hk
    have signed : (descriptorOf ps).signed = false := by rw [Descriptor.signed, kind]; rfl
    rw [signed, if_neg Bool.false_ne_true, Bool.not_eq_false, zero, zero, kind]
    simp [Claim.regionCheck, hn, rightsFit, base, mult, slot]

/-- The checks of R6 of which one fails, in their order. -/
def firstFailing (check : Nat → Prop) [DecidablePred check] (steps : List Nat) : Option Nat :=
  steps.find? (fun n => decide ¬check n)

/-- A check that fails is the first one, and one that holds is passed over. -/
theorem firstFailing_cons (check : Nat → Prop) [DecidablePred check] (report : Nat → Nat) (n : Nat) (l : List Nat) :
    (firstFailing check (n :: l)).map report =
      if ¬check n then some (report n) else (firstFailing check l).map report := by
  unfold firstFailing
  by_cases h : check n
  · rw [List.find?_cons_of_neg (by simp [h]), if_neg (not_not.2 h)]
  · rw [List.find?_cons_of_pos (by simp [h]), if_pos h]
    rfl

open Classical in
/-- The table's loader reports the first check of R6 that fails, at its word. -/
theorem regionFault_eq (entries : List (Nat × Region)) (ps : List Word) :
    regionFault entries ps =
      (firstFailing (Claim.regionCheck entries ps) (List.range' 1 10)).map Claim.reportedAt := by
  have steps : List.range' 1 10 = [1, 2, 3, 4, 5, 6, 7, 8, 9, 10] := rfl
  obtain ⟨c1, c2, c3, c4, c5, c10⟩ := regionCheck_plain entries ps
  rw [steps]
  simp only [firstFailing_cons]
  unfold regionFault
  refine ite_congr (propext (not_congr c1.symm)) (fun _ => rfl) fun _ => ?_
  refine ite_congr (propext (not_ne_iff.symm.trans (not_congr c2.symm))) (fun _ => rfl) fun h2 => ?_
  obtain ⟨c6, c7, c8, c9⟩ := regionCheck_of_kind entries ps (not_not.1 h2)
  refine ite_congr (propext (not_congr c3.symm)) (fun _ => rfl) fun _ => ?_
  refine ite_congr (propext (not_congr c4.symm)) (fun _ => rfl) fun _ => ?_
  refine ite_congr (propext (not_not.symm.trans (not_congr c5.symm))) (fun _ => rfl) fun _ => ?_
  refine ite_congr (propext (not_congr c6.symm)) (fun _ => rfl) fun _ => ?_
  refine ite_congr (propext (not_not.symm.trans (not_congr c7.symm))) (fun _ => rfl) fun _ => ?_
  refine ite_congr (propext (not_not.symm.trans (not_congr c8.symm))) (fun _ => rfl) fun _ => ?_
  refine ite_congr (propext (not_not.symm.trans (not_congr c9.symm))) (fun _ => rfl) fun _ => ?_
  exact ite_congr (propext (not_congr c10.symm)) (fun _ => rfl) fun _ => rfl

/-- A step of R6 that fails after those before it hold is the one reported. -/
theorem regionFault_of_fails (entries : List (Nat × Region)) (ps : List Word) (n : Nat) (h1 : 1 ≤ n) (h10 : n ≤ 10)
    (before : ∀ j, 1 ≤ j → j < n → Claim.regionCheck entries ps j) (fails : ¬Claim.regionCheck entries ps n) :
    regionFault entries ps = some (Claim.reportedAt n) := by
  classical
  have first : firstFailing (Claim.regionCheck entries ps) (List.range' 1 10) = some n := by
    rw [firstFailing, List.find?_range'_eq_some]
    refine ⟨decide_eq_true fails, List.mem_range'_1.2 ⟨h1, by omega⟩, fun j hj hn => ?_⟩
    simpa using before j hj hn
  rw [regionFault_eq, first]
  rfl

/-- With every check of R6 held there is no fault. -/
theorem regionFault_of_holds (entries : List (Nat × Region)) (ps : List Word)
    (holds : ∀ n, 1 ≤ n → n ≤ 10 → Claim.regionCheck entries ps n) : regionFault entries ps = none := by
  classical
  have first : firstFailing (Claim.regionCheck entries ps) (List.range' 1 10) = none := by
    rw [firstFailing, List.find?_eq_none]
    intro n hn
    obtain ⟨h1, h10⟩ := List.mem_range'_1.1 hn
    simpa using holds n h1 (by omega)
  rw [regionFault_eq, first]
  rfl

/-! ### CLEAR_TABLE and LOAD_REGION take effect -/

/-- A failed check of LOAD_REGION is answered, and nothing is stored (R5, R6). -/
theorem loadRegionNow_of_fault (f : CmdFrame) (s : State) (word : Nat)
    (h : regionFault s.rgt.entries f.params = some word) :
    loadRegionNow f s = settle (respond .badField word f.tag [] s) := by
  unfold loadRegionNow
  rw [h]
  rfl

/-- A LOAD_REGION without a fault stores its descriptor and lets the walk rest (R5, R94). -/
theorem loadRegionNow_of_none (f : CmdFrame) (s : State) (h : regionFault s.rgt.entries f.params = none) :
    loadRegionNow f s =
      settle (respond .done 0 f.tag [] (stopWalk (storeRegion (param f.params 1) (descriptorOf f.params) s))) := by
  unfold loadRegionNow
  rw [h]
  rfl

/-- What the table lists after a descriptor has been stored (R5). -/
theorem assocFind_storeRegion (index : Nat) (d : Descriptor) (s : State) (k : Nat) :
    assocFind (storeRegion index d s).rgt.entries k =
      if index = k then some ⟨d, .normal, 0, 0⟩ else assocFind s.rgt.entries k := by
  have entries : (storeRegion index d s).rgt.entries =
      assocInsert (assocErase s.rgt.entries index) index ⟨d, .normal, 0, 0⟩ := by
    rw [← unloadRegion_entries]
    unfold storeRegion zeroSlot
    split
    · simp
    · rfl
  rw [entries, assocFind_insert, assocFind_erase]
  split <;> rfl

/-- The slot of a signed descriptor that is stored starts at 0 (R54). -/
theorem sigOf_storeRegion (index : Nat) (d : Descriptor) (s : State) (h : d.signed = true) :
    sigOf (storeRegion index d s) d.slot = 0 := by
  unfold storeRegion zeroSlot
  rw [if_pos h]
  simp only [sigOf, setSig, List.getD_eq_getElem?_getD, List.getElem?_set_self']
  cases (unloadRegion index s).sgu.sigs[d.slot]? <;> rfl

/-- Settles O22: CLEAR_TABLE by what the loop over its entries leaves, LOAD_REGION by the first check of R6 that fails. -/
theorem tableChangesAfterTheDrain : Obligations.TableChangesAfterTheDrain := by
  refine ⟨fun f s h table => ?clear, fun f s h => ⟨fun n h1 h10 before fails => ?fault, fun holds => ?stored⟩⟩
  case clear =>
    have step : exec .clearTableDrained s = .next (clearTableNow f s) :=
      congrArg Host.Outcome.next (drained_of_drainedUnder .clearTable clearTableNow f s h)
    obtain ⟨hmpu, hcju, hdev, hcmu, hfingerprint⟩ := unloadAll_keeps (clearedIndices f) s
    rw [clearTableNow_eq] at step
    refine ⟨_, step, response_settle _ _ _ _ _ _ (response_respond _ _ _ _ _ _ ?_), fun k => ?_, ?_, ?_, ?_, ?_⟩
    · rw [stopWalk, hcmu]
    · rw [← assocFind_clearTable f s table]
      simp
    · simp [hmpu]
    · simp [hcju]
    · simp [hdev]
    · simp [hfingerprint]
  case fault =>
    have step : exec .loadRegionDrained s = .next (loadRegionNow f s) :=
      congrArg Host.Outcome.next (drained_of_drainedUnder .loadRegion loadRegionNow f s h)
    rw [loadRegionNow_of_fault f s _ (regionFault_of_fails _ _ n h1 h10 before fails)] at step
    refine ⟨_, step, response_settle _ _ _ _ _ _ (response_respond _ _ _ _ _ _ rfl), ?_, ?_, ?_, ?_⟩ <;> simp
  case stored =>
    have step : exec .loadRegionDrained s = .next (loadRegionNow f s) :=
      congrArg Host.Outcome.next (drained_of_drainedUnder .loadRegion loadRegionNow f s h)
    rw [loadRegionNow_of_none f s (regionFault_of_holds _ _ holds)] at step
    refine ⟨_, step, response_settle _ _ _ _ _ _ (response_respond _ _ _ _ _ _ ?_), fun k => ?_, fun signed _ => ?_,
      ?_, ?_, ?_, ?_⟩
    · simp
    · rw [← assocFind_storeRegion]
      simp
    · rw [← sigOf_storeRegion (param f.params 1) (descriptorOf f.params) s signed]
      simp [sigOf]
    · simp
    · simp
    · simp
    · simp

end Sys2Proof.Machine
end

section
/-! PROOFS. The entry into SIGNING, the command reset and the read commands (R10, R15, R37, R162 to R167, R173 to R176). -/

namespace Sys2Proof.Machine

open Sys2Proof

/-! ### The entry into SIGNING -/

theorem slotRegion_congr {s t : State} (h : t.rgt.entries = s.rgt.entries) (k : Nat) : slotRegion t k = slotRegion s k := by
  rw [slotRegion, slotRegion, h]

/-- The slots in use (R62). -/
theorem mem_slotsWith_all (s : State) (k : Nat) : k ∈ slotsWith s (fun _ => true) ↔ k < 16 ∧ slotRegion s k ≠ none := by
  simp only [slotsWith, List.mem_filter, List.mem_range]
  refine and_congr Iff.rfl ?_
  cases slotRegion s k <;> simp

/-- The slots of a pass are in ascending order. -/
theorem slotsWith_pairwise (s : State) (test : Region → Bool) : (slotsWith s test).Pairwise (· < ·) :=
  List.Pairwise.filter _ List.pairwise_lt_range

/-- A pass that begins stands at the first block of the region of its first slot (R62). -/
theorem beginRegion_pass (k : Nat) (rest : List Nat) (bad : Nat) (s : State) (e : Nat × Region)
    (h : slotRegion s k = some e) :
    (beginRegion (k :: rest) bad s).sgu.pass = some ⟨k :: rest, e.2.desc.first, 0, bad⟩ := by
  unfold beginRegion
  simp only [h]

/-- A lawful table with a VITAL descriptor has its slot in use (R1). -/
theorem slot_of_vital (s : State) (h : tableLaw s = true) (e : Nat × Region) (he : e ∈ s.rgt.entries)
    (hv : e.2.desc.kind = .vital) : e.2.desc.slot < 16 ∧ slotRegion s e.2.desc.slot = some e := by
  obtain ⟨rising, fits, -⟩ := (tableLaw_iff s).1 h
  have signed : e.2.desc.signed = true := by rw [Descriptor.signed, hv]; rfl
  refine ⟨?_, (slotRegion_iff s h _ e.1 e.2).2 ⟨assocFind_of_mem _ 0 rising e he, signed, rfl⟩⟩
  have fit := (fits e he).2
  simp only [descriptorFits, signed, if_true, Bool.and_eq_true, decide_eq_true_eq] at fit
  exact fit.2

/-- Some descriptor is VITAL. -/
theorem vitalLoaded_iff (s : State) : vitalLoaded s = true ↔ ∃ e ∈ s.rgt.entries, e.2.desc.kind = .vital := by
  simp [vitalLoaded]

theorem fingerprintOf_ne_zero (entries : List (Nat × Region)) : fingerprintOf entries ≠ 0 := by
  unfold fingerprintOf
  dsimp only
  split
  · decide
  · assumption

/-- The state in which the pass of an entry into SIGNING begins (R10, R164). -/
theorem enterSigning_state (s : State) :
    (enterSigning s).dev = .signing ∧ (enterSigning s).rgt = { s.rgt with fingerprint := fingerprintOf s.rgt.entries } := by
  constructor <;> simp [enterSigning]

/-- The pass of an entry into SIGNING begins at the region with the lowest slot (R62). -/
theorem enterSigning_pass (s : State) (h : tableLaw s = true) (vital : ∃ e ∈ s.rgt.entries, e.2.desc.kind = .vital) :
    ∃ k e, slotRegion s k = some e ∧ (∀ j, j < k → slotRegion s j = none) ∧
      ∃ slots, (enterSigning s).sgu.pass = some ⟨slots, e.2.desc.first, 0, 0⟩ ∧ slots.head? = some k ∧
        ∀ j, j ∈ slots ↔ (j < 16 ∧ slotRegion s j ≠ none) := by
  let t := setDev .signing { s with rgt.fingerprint := fingerprintOf s.rgt.entries }
  have regions : ∀ k, slotRegion t k = slotRegion s k := slotRegion_congr (by simp [t])
  have slots : ∀ j, j ∈ slotsWith t (fun _ => true) ↔ j < 16 ∧ slotRegion s j ≠ none := by
    intro j
    rw [mem_slotsWith_all, regions]
  have ordered := slotsWith_pairwise t (fun _ => true)
  obtain ⟨v, hv, kind⟩ := vital
  obtain ⟨small, found⟩ := slot_of_vital s h v hv kind
  cases hs : slotsWith t (fun _ => true) with
  | nil =>
    have none := (slots v.2.desc.slot).2 ⟨small, by rw [found]; exact Option.some_ne_none _⟩
    rw [hs] at none
    cases none
  | cons k rest =>
    rw [hs] at slots ordered
    obtain ⟨hk, used⟩ := (slots k).1 (by simp)
    obtain ⟨e, he⟩ := Option.ne_none_iff_exists'.1 used
    refine ⟨k, e, he, fun j hj => ?_, k :: rest, ?_, rfl, slots⟩
    · by_contra hn
      rcases List.mem_cons.1 ((slots j).2 ⟨hj.trans hk, hn⟩) with rfl | hm
      · exact Nat.lt_irrefl _ hj
      · exact Nat.lt_asymm hj (List.rel_of_pairwise_cons ordered hm)
    · have pass := beginRegion_pass k rest 0 t e (by rw [regions]; exact he)
      rw [← hs] at pass ⊢
      exact pass

/-- Settles O24: the two refusals leave the part as it is; otherwise `enterSigning_pass`. -/
theorem endConfigEntersSigning : Obligations.EndConfigEntersSigning := by
  intro f s h
  have step : exec .endConfigChecks s = .next (endConfigNow f s) :=
    congrArg Host.Outcome.next (drained_of_drainedUnder .endConfig endConfigNow f s h)
  unfold endConfigNow at step
  refine ⟨fun hp => ?position, fun hp hv => ?noVital, fun hp hv hd => ?enters⟩
  case position =>
    rw [if_pos hp] at step
    refine ⟨_, step, response_settle _ _ _ _ _ _ (response_respond _ _ _ _ _ _ rfl), ?_, ?_, ?_⟩ <;>
      simp [refusedState]
  case noVital =>
    have none : vitalLoaded s = false := by
      rw [Bool.eq_false_iff, ne_eq, vitalLoaded_iff]
      exact fun ⟨e, he, hk⟩ => hv e he hk
    rw [if_neg hp, if_pos none] at step
    refine ⟨_, step, response_settle _ _ _ _ _ _ (response_respond _ _ _ _ _ _ rfl), ?_, ?_, ?_⟩ <;>
      simp [refusedState]
  case enters =>
    have loaded : ¬vitalLoaded s = false := by
      rw [Bool.not_eq_false, vitalLoaded_iff]
      exact hv
    rw [if_neg hp, if_neg loaded] at step
    obtain ⟨dev, rgt⟩ := enterSigning_state s
    refine ⟨_, step, response_settle _ _ _ _ _ _ (response_respond _ _ _ _ _ _ (by simp)), ?_, ?_, ?_, ?_, ?_,
      fun table => ?_⟩
    · simp [accepted, dev]
    · simp [accepted, rgt]
    · simpa [accepted, rgt] using fingerprintOf_ne_zero s.rgt.entries
    · simp [accepted]
    · simp [accepted]
    · obtain ⟨k, e, he, lowest, slots, pass, head, mem⟩ := enterSigning_pass s table hv
      exact ⟨k, e, he, lowest, slots, by simpa [accepted] using pass, head, mem⟩

/-! ### The command reset -/

/-- Without PERMIT the channel state moves without an event. -/
theorem setChan_cmu (c : Option ChannelState) (s : State) (h : s.vtu.permitted = false) : (setChan c s).cmu = s.cmu := by
  unfold setChan
  dsimp only
  split
  · rfl
  · split <;> simp [dropPermit, h]

/-- The part with its RESET event, before its blocks take their reset values (R167). -/
def resetRecorded (s : State) : State := recordEvent .reset (dropPermit .reset (kick (endService .aborted none s)))

/-- The part after the reset of its blocks and states, before the answer (R167). -/
def resetDone (s : State) : State :=
  stopWalk (setAgreed false (setChan none (setDev .configuring (resetBlocks (resetRecorded s)))))

theorem resetNow_eq (f : CmdFrame) (s : State) : resetNow f s = settle (respond .done 0 f.tag [] (resetDone s)) :=
  rfl

/-- Up to the RESET event nothing that a reset keeps has changed. -/
theorem resetRecorded_keeps (s : State) :
    (resetRecorded s).rgt = s.rgt ∧ (resetRecorded s).times = s.times ∧ (resetRecorded s).position = s.position ∧
      (resetRecorded s).mpu = s.mpu ∧ (resetRecorded s).pwq = s.pwq ∧ (resetRecorded s).ptu = s.ptu ∧
      (resetRecorded s).cmu.mask = s.cmu.mask ∧ (resetRecorded s).cmu.ms = s.cmu.ms ∧
      (resetRecorded s).cmu.response = s.cmu.response := by
  simp [resetRecorded]

/-- The CMU is not reset but for its event. -/
theorem resetDone_cmu (s : State) : (resetDone s).cmu = (resetRecorded s).cmu := by
  have h := setChan_cmu none (setDev .configuring (resetBlocks (resetRecorded s))) (by simp [resetBlocks, Vtu.initial])
  simp only [resetDone, stopWalk_keeps, setAgreed_keeps, h, setDev_keeps]
  rfl

/-- The queue has a new record once there was room (R177). -/
theorem grown_resetRecorded (s : State) (room : s.cmu.events.length < 64) :
    Grown s.cmu.events (resetRecorded s).cmu.events := by
  have rule := grown_rule s.cmu.events
  have ended : (endService .aborted none s).cmu.events = s.cmu.events ∨
      Grown s.cmu.events (endService .aborted none s).cmu.events := by
    unfold endService
    split
    case h_1 =>
      split
      · exact Or.inr (grown_recordEvent _ _ _ (by simpa using room) (Or.inl (by simp)))
      · exact Or.inl rfl
    case h_2 => exact Or.inl rfl
  have dropped : (dropPermit .reset (kick (endService .aborted none s))).cmu.events = s.cmu.events ∨
      Grown s.cmu.events (dropPermit .reset (kick (endService .aborted none s))).cmu.events := by
    unfold dropPermit
    split
    · rcases ended with h | h
      · exact Or.inr (grown_recordEvent _ _ _ (by simpa [h] using room) (Or.inl (by simp [h])))
      · exact Or.inr (rule.recordEvent _ _ trivial (by simpa using h))
    · simpa using ended
  rcases dropped with h | h
  · exact grown_recordEvent _ _ _ (by rw [h]; exact room) (Or.inl h.symm)
  · exact rule.recordEvent _ _ trivial h

theorem length_events_endService_le (result : PullResult) (es : Option (List SigEntry)) (s : State) :
    (endService result es s).cmu.events.length ≤ s.cmu.events.length + 1 := by
  unfold endService
  (repeat' split)
  · exact (length_events_recordEvent_le _ _).trans (by simp)
  all_goals exact Nat.le_succ _

theorem length_events_dropPermit_le (c : PermitCause) (s : State) :
    (dropPermit c s).cmu.events.length ≤ s.cmu.events.length + 1 := by
  unfold dropPermit
  split
  · exact (length_events_recordEvent_le _ _).trans (by simp)
  · exact Nat.le_succ _

/-- The RESET event holds the cycle as it stood before (R176). -/
theorem resetRecorded_recorded (s : State) (room : s.cmu.events.length < 62) :
    ∃ r ∈ (resetRecorded s).cmu.events, r.body = .reset ∧ r.cycle = s.cju.cycle + 1 := by
  have h1 := length_events_endService_le .aborted none s
  have h2 := length_events_dropPermit_le .reset (kick (endService .aborted none s))
  have place : (dropPermit .reset (kick (endService .aborted none s))).cmu.events.length < 64 := by
    rw [show (kick (endService .aborted none s)).cmu = (endService .aborted none s).cmu by simp] at h2
    omega
  have recorded := (recordEvent_of_room .reset _ place).1
  refine ⟨_, recorded ▸ List.mem_append_right _ (List.mem_singleton.2 rfl), rfl, ?_⟩
  simp [voteCycle]

/-- Settles O25: each part by what the operations of a reset leave of it. -/
theorem commandResetTakesEffect : Obligations.CommandResetTakesEffect := by
  intro f s h
  have step : exec .commandReset s = .next (resetNow f s) :=
    congrArg Host.Outcome.next (drained_of_drainedUnder .reset resetNow f s h)
  obtain ⟨rgt, times, position, mpu, pwq, ptu, mask, ms, response⟩ := resetRecorded_keeps s
  have cmu := resetDone_cmu s
  have vtu : (resetDone s).vtu = Vtu.initial := by
    simp [resetDone, resetBlocks, Vtu.toChan, Vtu.dropped, Vtu.initial]
  have cju : (resetDone s).cju = Cju.initial := by
    simp [resetDone, resetBlocks, Cju.initial]
  have regions : (resetDone s).rgt = resetRgt s.rgt := by
    simp [resetDone, resetBlocks, rgt]
  have idle : (resetDone s).rse.service.phase = .idle := by
    simp [resetDone, resetBlocks, resetService, Service.initial]
  have pull : (resetDone s).rse.pull = resetPull (resetRecorded s).rse.pull := by
    simp [resetDone, resetBlocks]
  have peers : (resetDone s).lkc.peers = ⟨Peer.initial, Peer.initial⟩ := by
    simp [resetDone, resetBlocks]
  rw [resetNow_eq] at step
  refine ⟨_, step, response_settle _ _ _ _ _ _ (response_respond _ _ _ _ _ _ (by rw [cmu, response])), ?_⟩
  simp only [settle_keeps, respond_keeps, cju, vtu, regions, pull, peers]
  refine ⟨by simp [resetDone], rfl, rfl, rfl, rfl, rfl, rfl, rfl, rfl, rfl, rfl, ?_, ?_, ?_, ?_, ?_, ?_, ?_, ?_, rfl, rfl,
    rfl, ?_, rfl, ?_, ?_, ?_, ?_, ?_, ?_, fun room => ?_, fun room => ?_⟩
  · simp [resetRgt]
  · intro e he
    obtain ⟨e', -, rfl⟩ := List.mem_map.1 he
    exact ⟨rfl, rfl, rfl⟩
  · simp [resetDone, resetBlocks, Sgu.initial, Config.sigSlots]
  · simp [resetDone, resetBlocks, times]
  · simp [resetDone, resetBlocks, position]
  · simp [resetDone, resetBlocks, mpu]
  · simp [resetDone, resetBlocks, pwq]
  · simp [resetDone, resetBlocks, pwq]
  · exact (settle_goesOn _).1 idle
  · simp [resetDone, resetBlocks, ptu]
  · simp [resetDone, resetBlocks, ptu]
  · rfl
  · rfl
  · rw [cmu, mask]
  · rw [cmu, ms]
  · refine ((grown_rule s.cmu.events).settle _ ?_).isPrefix
    simp only [respond_keeps, cmu]
    exact grown_resetRecorded s room
  · obtain ⟨r, hr, body, cycle⟩ := resetRecorded_recorded s room
    exact ⟨r, mem_events_settle _ r (by rw [body]; decide) (by simpa [cmu] using hr), body, cycle⟩

/-! ### The read commands -/

/-- READ_EVENTS with a number of records that it can return (R175). -/
theorem takeReadEvents_of_fits (tag : Byte) (w : Word) (s : State) (h1 : 1 ≤ w.toNat) (h8 : w.toNat ≤ 8) :
    takeReadEvents tag [w] s =
      respond .done 0 tag (eventsWords (s.cmu.events.take w.toNat) s.cmu.dropped)
        { s with
          cmu := { s.cmu with
            events := s.cmu.events.drop w.toNat
            alert := alertLevel (s.cmu.events.drop w.toNat) s.cmu.mask } } := by
  have fits : ¬(w.toNat = 0 ∨ 8 < w.toNat) := by omega
  exact if_neg fits

/-- Settles O26: the read commands answer with words of a state that differs from `s` in the command unit only. -/
theorem readCommandsAnswer : Obligations.ReadCommandsAnswer := by
  refine ⟨fun tag s ht => ?state, fun tag w s ht => ?region, fun tag s ht => ?peers, fun tag w s ht => ?events⟩
  case state =>
    exact ⟨_, exec_software_of_takes .readState tag [] s ht rfl rfl, respond_eq_withResponse ..,
      response_respond _ _ _ _ _ _ rfl⟩
  case region =>
    have step := exec_software_of_takes .readRegion tag [w] s ht rfl rfl
    have hw : param [w] 1 = w.toNat := rfl
    rw [effectOf, takeReadRegion, hw] at step
    by_cases fits : w.toNat < Config.regions
    · rw [if_neg (not_not.2 fits)] at step
      exact ⟨_, step, respond_eq_withResponse .., fun _ => response_respond _ _ _ _ _ _ rfl,
        fun h => absurd fits (Nat.not_lt.2 h)⟩
    · rw [if_pos fits] at step
      exact ⟨_, step, respond_eq_withResponse .., fun h => absurd h fits, fun _ => response_respond _ _ _ _ _ _ rfl⟩
  case peers =>
    exact ⟨_, exec_software_of_takes .readPeers tag [] s ht rfl rfl, respond_eq_withResponse ..,
      response_respond _ _ _ _ _ _ rfl⟩
  case events =>
    have step := exec_software_of_takes .readEvents tag [w] s ht rfl rfl
    rw [effectOf] at step
    by_cases fits : w.toNat = 0 ∨ 8 < w.toNat
    · have refused : takeReadEvents tag [w] (Claim.presented .readEvents tag [w] s) =
          respond .badField 1 tag [] (Claim.presented .readEvents tag [w] s) := if_pos fits
      rw [refused] at step
      exact ⟨_, step, fun _ => ⟨respond_eq_withResponse .., response_respond _ _ _ _ _ _ rfl⟩,
        fun h1 h8 => by omega⟩
    · rw [takeReadEvents_of_fits tag w _ (by omega) (by omega)] at step
      refine ⟨_, step, fun h => absurd h fits, fun _ _ => ⟨respond_eq_withResponse .., ?_⟩⟩
      rw [← List.length_take]
      exact response_respond _ _ _ _ _ _ rfl

end Sys2Proof.Machine
end

section
/-! PROOFS. The commands that open and close a cycle (R71 to R74), and what of a state the end of its step leaves open. -/

namespace Sys2Proof.Machine

open Sys2Proof

/-! ### The end of a step -/

/-- The end of a step leaves the transmit queues open. -/
theorem EndOfStep.withTx {u t : State} (h : EndOfStep u t) (tx : PerLink Transmitter) :
    EndOfStep { u with lkc.tx := tx } t :=
  h

/-- A command that answers, after its own effect up to the transmit queues, and ends its step. -/
theorem settle_respond_withTx (st : Status) (d : Nat) (tag : Byte) (ws : List Word) (u : State)
    (tx : PerLink Transmitter) :
    EndOfStep (Claim.withResponse (settle (respond st d tag ws u)) { u with lkc.tx := tx })
      (settle (respond st d tag ws u)) :=
  (settle_respond_end st d tag ws u).withTx tx

/-! ### OPEN_CYCLE and CLOSE_CYCLE -/

/-- A command that INIT_MEMORY keeps waiting is taken whenever another one is. -/
theorem takes_of_takes {cmd other : Command} (s : State) (h : Claim.takes cmd s) (hc : takenInInit cmd = false) :
    Claim.takes other s := by
  obtain ⟨hr, hp, hi⟩ := h
  refine ⟨hr, hp, Or.inl (hi.resolve_right ?_)⟩
  rintro (rfl | rfl | rfl | rfl) <;> exact Bool.false_ne_true hc.symm

/-- In RUNNING a cycle command is refused by the channel state alone (R161). -/
theorem whileRunning_of_running (s : State) (r : Option Subcode) (h : s.dev = .running) : whileRunning s r = r :=
  if_pos h

/-- OPEN_CYCLE from READY (R71, R72). -/
theorem takeOpenCycle_of_ready (tag : Byte) (s : State) (h : s.cju.chan = some .ready) :
    ∃ tx, takeOpenCycle tag s =
      settle (respond .done 0 tag []
        { s with cju := { s.cju with chan := some .opened, timer := some s.times.cycleLimit }, lkc.tx := tx }) := by
  have moved := setChan_of_permitState (some .opened) { s with cju.timer := some s.times.cycleLimit } rfl
  exact ⟨_, (if_pos h).trans (congrArg (fun u => settle (respond .done 0 tag [] u)) moved)⟩

theorem takeOpenCycle_of_not_ready (tag : Byte) (s : State) (h : s.cju.chan ≠ some .ready) :
    takeOpenCycle tag s = respond .done 0 tag [] s :=
  if_neg h

/-- CLOSE_CYCLE in OPEN (R73). -/
theorem takeCloseCycle_of_opened (tag : Byte) (s : State) (h : s.cju.chan = some .opened) :
    ∃ tx, takeCloseCycle tag s =
      settle (respond .accepted 0 tag []
        { s with cju := { s.cju with chan := some .closing, timer := none }, lkc.tx := tx }) := by
  have moved := setChan_of_permitState (some .closing) { s with cju.timer := none } rfl
  exact ⟨_, (if_pos h).trans (congrArg (fun u => settle (respond .accepted 0 tag [] u)) moved)⟩

theorem takeCloseCycle_of_not_opened (tag : Byte) (s : State) (h : s.cju.chan ≠ some .opened) :
    takeCloseCycle tag s = respond .done 0 tag [] s :=
  if_neg h

/-- Settles O27: the four answers are the two branches of `takeOpenCycle` and of `takeCloseCycle`. -/
theorem cyclesOpenAndClose : Obligations.CyclesOpenAndClose := by
  intro tag s hd ht
  have htc : Claim.takes .closeCycle s := takes_of_takes s ht rfl
  have opening : openRefusal s.cju.chan = none → exec (.openCycle tag []) s =
      .next (takeOpenCycle tag (Claim.presented .openCycle tag [] s)) := fun h =>
    exec_software_of_takes .openCycle tag [] s ht rfl ((whileRunning_of_running s _ hd).trans h)
  have closing : closeRefusal s.cju.chan = none → exec (.closeCycle tag []) s =
      .next (takeCloseCycle tag (Claim.presented .closeCycle tag [] s)) := fun h =>
    exec_software_of_takes .closeCycle tag [] s htc rfl ((whileRunning_of_running s _ hd).trans h)
  refine ⟨fun h => ?opens, fun h => ?opened, fun h => ?closes, fun h => ?closed⟩
  case opens =>
    obtain ⟨tx, effect⟩ := takeOpenCycle_of_ready tag (Claim.presented .openCycle tag [] s) h
    have step := (opening (by rw [h]; rfl)).trans (congrArg Host.Outcome.next effect)
    exact ⟨_, step, response_settle _ _ _ _ _ _ (response_respond _ _ _ _ _ _ rfl), settle_respond_withTx _ _ _ _ _ _⟩
  case opened =>
    have other : (Claim.presented .openCycle tag [] s).cju.chan ≠ some .ready := by
      change s.cju.chan ≠ _
      simp [h]
    have step := (opening (by rw [h]; rfl)).trans (congrArg Host.Outcome.next (takeOpenCycle_of_not_ready tag _ other))
    exact ⟨_, step, response_respond _ _ _ _ _ _ rfl, respond_eq_withResponse ..⟩
  case closes =>
    obtain ⟨tx, effect⟩ := takeCloseCycle_of_opened tag (Claim.presented .closeCycle tag [] s) h
    have step := (closing (by rw [h]; rfl)).trans (congrArg Host.Outcome.next effect)
    exact ⟨_, step, response_settle _ _ _ _ _ _ (response_respond _ _ _ _ _ _ rfl), settle_respond_withTx _ _ _ _ _ _⟩
  case closed =>
    have other : (Claim.presented .closeCycle tag [] s).cju.chan ≠ some .opened := by
      change s.cju.chan ≠ _
      rcases h with h | h <;> simp [h]
    have step := (closing (by rcases h with h | h <;> rw [h] <;> rfl)).trans
      (congrArg Host.Outcome.next (takeCloseCycle_of_not_opened tag _ other))
    exact ⟨_, step, response_respond _ _ _ _ _ _ rfl, respond_eq_withResponse ..⟩

end Sys2Proof.Machine
end

section
/-! PROOFS. Word writes: what they leave of the region table's descriptors, what they put into the array, and what reaches the
running signatures and the patrol's accumulator (R39, R46, R58, R60). -/

namespace Sys2Proof.Machine

open Sys2Proof

/-! ### Index and descriptor of every entry -/

/-- Index and descriptor of every entry. -/
def tableOf (s : State) : List (Nat × Descriptor) := s.rgt.entries.map (fun e => (e.1, e.2.desc))

theorem regionOf_desc (s : State) (b : Nat) :
    (regionOf s b).map (fun e => (e.1, e.2.desc)) = (tableOf s).find? (fun e => e.2.covers b) := by
  unfold regionOf tableOf
  rw [List.find?_map]
  rfl

/-- With the same descriptors a block lies in the same region. -/
theorem regionOf_congr {s t : State} (h : tableOf t = tableOf s) {b i : Nat} {r : Region} (hr : regionOf s b = some (i, r)) :
    ∃ r', regionOf t b = some (i, r') ∧ r'.desc = r.desc := by
  have hd := regionOf_desc t b
  rw [h, ← regionOf_desc, hr] at hd
  obtain ⟨⟨j, r'⟩, ht, he⟩ := Option.map_eq_some_iff.1 hd
  obtain ⟨rfl, hdesc⟩ := Prod.mk.inj he
  exact ⟨r', ht, hdesc⟩

theorem regionOf_eq_none_congr {s t : State} (h : tableOf t = tableOf s) {b : Nat} (hr : regionOf s b = none) :
    regionOf t b = none := by
  have hd := regionOf_desc t b
  rw [h, ← regionOf_desc, hr] at hd
  exact Option.map_eq_none_iff.1 hd

theorem tableOf_of_rgt {s t : State} (h : t.rgt = s.rgt) : tableOf t = tableOf s := by
  rw [tableOf, tableOf, h]

theorem tableOf_modifyRegion (index : Nat) (f : Region → Region) (hf : ∀ r, (f r).desc = r.desc) (s : State) :
    tableOf (modifyRegion index f s) = tableOf s :=
  map_modify_desc _ _ _ hf

@[simp] theorem tableOf_countCorrected (index : Nat) (s : State) : tableOf (countCorrected index s) = tableOf s :=
  tableOf_modifyRegion index _ (by intro _; rfl) s

@[simp] theorem tableOf_countUncorrectable (index : Nat) (s : State) :
    tableOf (countUncorrectable index s) = tableOf s :=
  tableOf_modifyRegion index _ (by intro _; rfl) s

@[simp] theorem tableOf_recordEvent (b : EventBody) (s : State) : tableOf (recordEvent b s) = tableOf s := rfl

@[simp] theorem tableOf_suspectPermit (index : Nat) (s : State) : tableOf (suspectPermit index s) = tableOf s :=
  tableOf_of_rgt (by simp)

@[simp] theorem tableOf_markSuspect (index : Nat) (located : Bool) (s : State) :
    tableOf (markSuspect index located s) = tableOf s := by
  unfold markSuspect
  split
  · rfl
  · split
    · split
      · exact tableOf_modifyRegion index _ (by intro _; rfl) s
      · rfl
    · rfl

@[simp] theorem tableOf_offerRepair (index a : Nat) (s : State) : tableOf (offerRepair index a s) = tableOf s := by
  have same : ∀ c : Cju, tableOf { s with cju := c } = tableOf s := fun _ => rfl
  unfold offerRepair
  split
  · simp
  · split
    · simp [same]
    · dsimp only
      split <;> simp [same]

@[simp] theorem tableOf_damaged (index : Nat) (k : RegionKind) (a : Nat) (s : State) :
    tableOf (damaged index k a s) = tableOf s := by
  unfold damaged
  split
  · rfl
  · cases k <;> simp

@[simp] theorem tableOf_findUncorrectable (ini : Option Initiator) (a : Nat) (s : State) :
    tableOf (findUncorrectable ini a s) = tableOf s := by
  unfold findUncorrectable
  split <;> simp

@[simp] theorem tableOf_findInPass (a : Nat) (s : State) : tableOf (findInPass a s) = tableOf s := by
  unfold findInPass
  split <;> simp

@[simp] theorem tableOf_findOverwritten (a : Nat) (s : State) : tableOf (findOverwritten a s) = tableOf s := by
  unfold findOverwritten
  split
  · split <;> simp
  · rfl

@[simp] theorem tableOf_writeWord (a : Nat) (old new : Word) (s : State) : tableOf (writeWord a old new s) = tableOf s :=
  tableOf_of_rgt (by simp)

@[simp] theorem tableOf_overwriteWord (a : Nat) (v : Word) (s : State) : tableOf (overwriteWord a v s) = tableOf s := by
  unfold overwriteWord
  dsimp only
  split <;> simp

/-! ### A grant's work -/

/-- The arbiter's next grant does its work, with the pointer moved (R47). -/
theorem granted_of_grants (g : Grant) (work : State → State) (p : Nat) (s : State) (h : Claim.grants g p s) :
    whenReady (granted g work) s = work { s with mpu.pointer := p } := by
  obtain ⟨hr, hn⟩ := h
  have runs : granted g work s = work { s with mpu.pointer := p } := by
    unfold granted
    rw [hn]
    exact if_pos rfl
  rw [whenReady_of_ready _ s hr, runs]

/-! ### The array after word writes -/

/-- A word written with fresh check bits (R39). -/
theorem memGet_memPut_fresh (m : List (Nat × StoredWord)) (a b : Nat) (v : Word) :
    memGet (memPut m a (freshWord v)) b = if a = b ∧ a < Config.words then freshWord v else memGet m b := by
  rw [memGet_memPut, normalWord_fresh]

/-- A block-write grant writes its words (R39, R46). -/
theorem wrote_overwriteAll (ws : List (Nat × Word)) (s : State) (nd : (ws.map Prod.fst).Nodup) :
    Claim.wrote ws s (overwriteAll ws s) :=
  ⟨fun a v hv ha => memGet_overwriteAll_of_mem ws s a v nd hv ha, fun a ha => memGet_overwriteAll ws s a ha⟩

/-- What has been written shows wherever the array is the same. -/
theorem wrote_congr {ws : List (Nat × Word)} {s t u : State} (h : Claim.wrote ws s t) (hm : u.mpu.mem = t.mpu.mem) :
    Claim.wrote ws s u := by
  unfold Claim.wrote at h ⊢
  rw [hm]
  exact h

/-! ### The accounts of word writes -/

theorem weight_eq (d : Descriptor) (i : Nat) : weight d i = Claim.weight d i := by
  have h : weight d i = if (d.base + d.mult * i) % 2147483647 = 0 then 1 else (d.base + d.mult * i) % 2147483647 := rfl
  rw [h, Claim.weight]
  split <;> omega

theorem updateTerm_eq (d : Descriptor) (a : Nat) (old new : Word) :
    updateTerm d (offsetIn d a) old new = Claim.term d a old new := by
  rw [updateTerm, weight_eq]
  rfl

/-- A block behind the patrol position, as the SGU finds it (R60). -/
theorem behindPatrol_iff (s : State) (b i : Nat) (r : Region) (h : regionOf s b = some (i, r)) :
    behindPatrol s i b = true ↔ Claim.behind s b := by
  unfold behindPatrol Claim.behind walking
  cases hp : s.ptu.position with
  | none => simp
  | some p =>
    cases hq : regionOf s p with
    | none => simp [hq]
    | some e =>
      obtain ⟨j, q⟩ := e
      simp only [h, hq, Option.some.injEq, Prod.mk.injEq, Bool.and_eq_true, beq_iff_eq, decide_eq_true_eq]
      constructor
      · rintro ⟨⟨⟨hd, he⟩, rfl⟩, hlt⟩
        exact ⟨hd, he, p, j, q, r, rfl, by rw [hq], ⟨rfl, rfl⟩, hlt⟩
      · rintro ⟨hd, he, p', j', q', r', rfl, hq', ⟨rfl, rfl⟩, hlt⟩
        rw [hq] at hq'
        obtain ⟨rfl, rfl⟩ := Prod.mk.inj (Option.some.inj hq')
        exact ⟨⟨⟨hd, he⟩, rfl⟩, hlt⟩

/-- What the SGU and the PTU look at when a word is written is the same. -/
def SameView (s t : State) : Prop :=
  tableOf t = tableOf s ∧ t.dev = s.dev ∧ t.ptu.enable = s.ptu.enable ∧ t.ptu.position = s.ptu.position

theorem SameView.behind {s t : State} (h : SameView s t) (b : Nat) : Claim.behind t b ↔ Claim.behind s b := by
  obtain ⟨table, dev, enable, position⟩ := h
  have one : ∀ {s t : State}, tableOf t = tableOf s → t.dev = s.dev → t.ptu.enable = s.ptu.enable →
      t.ptu.position = s.ptu.position → Claim.behind s b → Claim.behind t b := by
    rintro s t table dev enable position ⟨hd, he, p, i, r, e, hp, hr, hb, hlt⟩
    obtain ⟨r', hr', -⟩ := regionOf_congr table hr
    obtain ⟨e', he', -⟩ := regionOf_congr table hb
    exact ⟨dev.trans hd, enable.trans he, p, i, r', e', position.trans hp, hr', he', hlt⟩
  exact ⟨one table.symm dev.symm enable.symm position.symm, one table dev enable position⟩

theorem added_singleton (t a : Nat) : Claim.added [t] a = (a + t) % Config.p := by
  rw [Claim.added, List.foldl_cons, List.foldl_nil, Config.p]

theorem added_cons (t : Nat) (ts : List Nat) (a : Nat) : Claim.added (t :: ts) a = Claim.added ts (Claim.added [t] a) := by
  rw [Claim.added, List.foldl_cons, added_singleton, Claim.added, Config.p]

theorem accountWrite_unsigned (a : Nat) (old new : Word) (s : State)
    (h : ∀ i r, regionOf s (blockOf a) = some (i, r) → r.desc.signed = false) : accountWrite a old new s = s := by
  unfold accountWrite
  split
  case h_1 i r hr => exact if_neg (by simp [h i r hr])
  case h_2 => rfl

/-- A word write into a signed region reaches its running signature, and the accumulator where the block lies behind the
position (R58, R60). -/
theorem accountWrite_signed (a : Nat) (old new : Word) (s : State) (i : Nat) (r : Region)
    (hr : regionOf s (blockOf a) = some (i, r)) (hs : r.desc.signed = true) :
    accountWrite a old new s =
      { s with
        sgu.sigs := s.sgu.sigs.set r.desc.slot ((sigOf s r.desc.slot + Claim.term r.desc a old new) % Config.p)
        ptu.acc := if behindPatrol s i (blockOf a) then (s.ptu.acc + Claim.term r.desc a old new) % Config.p
          else s.ptu.acc } := by
  unfold accountWrite setSig
  simp only [hr, hs, if_true, updateTerm_eq]

/-- The accounts of no write. -/
theorem accounted_nil (b : Nat) {s t : State} (hs : t.sgu.sigs = s.sgu.sigs)
    (hp : t.ptu = { s.ptu with turned := t.ptu.turned }) : Claim.accounted b [] s t := by
  have acc : t.ptu.acc = s.ptu.acc := by rw [hp]
  refine ⟨fun i r _ _ => ⟨?_, fun _ => acc, fun _ => acc⟩, fun _ => ⟨hs, acc⟩, by rw [acc]; exact hp⟩
  rw [hs]
  change _ = s.sgu.sigs.set r.desc.slot (s.sgu.sigs.getD r.desc.slot 0)
  refine List.ext_getElem? fun n => ?_
  rw [List.getElem?_set]
  split
  case isTrue h =>
    subst h
    split
    case isTrue hl => simp [List.getD_eq_getElem?_getD, hl]
    case isFalse hl => exact List.getElem?_eq_none (Nat.not_lt.1 hl)
  case isFalse => rfl

/-- What else happens to the state does not touch the accounts. -/
theorem accounted_congr {b : Nat} {ws : List (Nat × Word)} {s t u : State} (h : Claim.accounted b ws s t)
    (hs : u.sgu.sigs = t.sgu.sigs) (hp : u.ptu = { t.ptu with turned := u.ptu.turned }) : Claim.accounted b ws s u := by
  obtain ⟨signed, unsigned, ptu⟩ := h
  have acc : u.ptu.acc = t.ptu.acc := by rw [hp]
  unfold Claim.accounted
  rw [hs, acc]
  refine ⟨signed, unsigned, ?_⟩
  rw [hp, ptu]

/-- A word write changes of the patrol's records the accumulator only. -/
theorem accountWrite_ptu (a : Nat) (old new : Word) (s : State) :
    (accountWrite a old new s).ptu = { s.ptu with acc := (accountWrite a old new s).ptu.acc } := by
  unfold accountWrite
  split
  case h_1 i r _ =>
    split
    · generalize updateTerm r.desc (offsetIn r.desc a) old new = term
      rfl
    · rfl
  case h_2 => rfl

/-- The accounts of a word write against the value that the word had. -/
theorem accounted_writeWord (a : Nat) (new : Word) (s : State) :
    Claim.accounted (blockOf a) [(a, new)] s (writeWord a (readWord s a).value new s) := by
  have region : ∀ b, regionOf (storeWord a new s) b = regionOf s b := fun _ => rfl
  have sig : ∀ k, sigOf (storeWord a new s) k = sigOf s k := fun _ => rfl
  have sigs : (storeWord a new s).sgu.sigs = s.sgu.sigs := rfl
  have acc : (storeWord a new s).ptu.acc = s.ptu.acc := rfl
  have behind : ∀ i b, behindPatrol (storeWord a new s) i b = behindPatrol s i b := fun _ _ => rfl
  refine ⟨fun i r hr hs => ?_, fun h => ?_, ?_⟩
  · have step := accountWrite_signed a (readWord s a).value new (storeWord a new s) i r ((region _).trans hr) hs
    have iff := behindPatrol_iff s (blockOf a) i r hr
    rw [writeWord, step]
    simp only [List.map_cons, List.map_nil, added_singleton, sig, sigs, acc, behind, true_and]
    exact ⟨fun hb => if_pos (iff.2 hb), fun hb => if_neg fun h => hb (iff.1 h)⟩
  · rw [writeWord, accountWrite_unsigned _ _ _ _ fun i r hr => h i r ((region _).symm.trans hr)]
    exact ⟨rfl, rfl⟩
  · rw [writeWord, accountWrite_ptu]
    rfl

/-- The running signature that has been put into a slot. -/
theorem sigOf_of_set {s t : State} {k x : Nat} (h : t.sgu.sigs = s.sgu.sigs.set k x) (hk : k < s.sgu.sigs.length) :
    sigOf t k = x := by
  rw [sigOf, h]
  simp [List.getD_eq_getElem?_getD, hk]

/-- The accounts of a first write and of those after it. -/
theorem accounted_cons {b a : Nat} {v : Word} {ws : List (Nat × Word)} {s t u : State}
    (first : Claim.accounted b [(a, v)] s t) (view : SameView s t)
    (reads : ∀ w ∈ ws, readWord t w.1 = readWord s w.1) (others : Claim.accounted b ws t u) :
    Claim.accounted b ((a, v) :: ws) s u := by
  obtain ⟨signed1, unsigned1, ptu1⟩ := first
  obtain ⟨signed2, unsigned2, ptu2⟩ := others
  have behind := view.behind b
  obtain ⟨table, -⟩ := view
  refine ⟨fun i r hr hs => ?_, fun h => ?_, ?_⟩
  · obtain ⟨r', hr', hd⟩ := regionOf_congr table hr
    obtain ⟨sigs1, far1, near1⟩ := signed1 i r hr hs
    obtain ⟨sigs2, far2, near2⟩ := signed2 i r' hr' (by rw [hd]; exact hs)
    have terms : ws.map (fun w => Claim.term r'.desc w.1 (readWord t w.1).value w.2) =
        ws.map (fun w => Claim.term r.desc w.1 (readWord s w.1).value w.2) :=
      List.map_congr_left fun w hw => by rw [hd, reads w hw]
    dsimp only at sigs1 sigs2 far1 far2 ⊢
    rw [terms] at sigs2 far2
    rw [hd] at sigs2
    refine ⟨?_, fun hb => ?_, fun hb => ?_⟩
    · rw [sigs2, sigs1, List.set_set]
      by_cases hl : r.desc.slot < s.sgu.sigs.length
      · congr 1
        rw [sigOf_of_set sigs1 hl, List.map_cons, List.map_cons, List.map_nil]
        exact (added_cons _ _ _).symm
      · rw [List.set_eq_of_length_le (Nat.not_lt.1 hl), List.set_eq_of_length_le (Nat.not_lt.1 hl)]
    · rw [far2 (behind.2 hb), far1 hb, List.map_cons, List.map_cons, List.map_nil]
      exact (added_cons _ _ _).symm
    · rw [near2 (fun h => hb (behind.1 h)), near1 hb]
  · have h' : ∀ i r, regionOf t b = some (i, r) → r.desc.signed = false := by
      intro i r hr
      obtain ⟨r', hr', hd⟩ := regionOf_congr table.symm hr
      rw [← hd]
      exact h i r' hr'
    obtain ⟨s1, p1⟩ := unsigned1 h
    obtain ⟨s2, p2⟩ := unsigned2 h'
    exact ⟨s2.trans s1, p2.trans p1⟩
  · rw [ptu2, ptu1]

theorem readWord_of_mem {s t : State} {a : Nat} (h : memGet t.mpu.mem a = memGet s.mpu.mem a) : readWord t a = readWord s a := by
  rw [readWord, readWord, h]

/-- A finding leaves of the patrol's records all but that the region walked has turned SUSPECT. -/
theorem findOverwritten_ptu (a : Nat) (s : State) :
    (findOverwritten a s).ptu = { s.ptu with turned := (findOverwritten a s).ptu.turned } := by
  unfold findOverwritten
  split
  case h_1 =>
    split
    · rw [show ∀ index u, (suspectPermit index u).ptu = u.ptu by simp]
      exact (markSuspect_ptu _ _ _).1
    · rfl
  case h_2 => rfl

/-- The accounts do not look at what a finding changes. -/
theorem accounted_congr_left {b : Nat} {ws : List (Nat × Word)} {s t u : State} (h : Claim.accounted b ws t u)
    (view : SameView s t) (mem : t.mpu.mem = s.mpu.mem) (sigs : t.sgu.sigs = s.sgu.sigs)
    (ptu : t.ptu = { s.ptu with turned := t.ptu.turned }) : Claim.accounted b ws s u := by
  obtain ⟨signed, unsigned, hp⟩ := h
  have reads : ∀ a, readWord t a = readWord s a := fun a => readWord_of_mem (by rw [mem])
  have sig : ∀ k, sigOf t k = sigOf s k := fun k => by rw [sigOf, sigOf, sigs]
  have acc : t.ptu.acc = s.ptu.acc := by rw [ptu]
  have behind := view.behind b
  obtain ⟨table, -⟩ := view
  refine ⟨fun i r hr hs => ?_, fun h => ?_, ?_⟩
  · obtain ⟨r', hr', hd⟩ := regionOf_congr table hr
    have claim := signed i r' hr' (by rw [hd]; exact hs)
    simpa only [hd, reads, sig, sigs, acc, behind] using claim
  · rw [sigs, acc] at unsigned
    refine unsigned fun i r hr => ?_
    obtain ⟨r', hr', hd⟩ := regionOf_congr table.symm hr
    rw [← hd]
    exact h i r' hr'
  · rw [hp, ptu]

/-- The accounts of one overwritten word (R46). -/
theorem accounted_overwriteWord (a : Nat) (v : Word) (s : State) :
    Claim.accounted (blockOf a) [(a, v)] s (overwriteWord a v s) ∧ SameView s (overwriteWord a v s) := by
  refine ⟨?_, tableOf_overwriteWord a v s, by simp, by simp, by simp⟩
  unfold overwriteWord
  dsimp only
  split
  case isTrue =>
    have write := accounted_writeWord a v (findOverwritten a s)
    rw [readWord_of_mem (s := s) (by simp)] at write
    exact accounted_congr_left write ⟨tableOf_findOverwritten a s, by simp, by simp, by simp⟩ (by simp) (by simp)
      (findOverwritten_ptu a s)
  case isFalse => exact accounted_writeWord a v s

/-- The accounts of a block-write grant's writes (R46, R58, R60). -/
theorem accounted_overwriteAll (b : Nat) (ws : List (Nat × Word)) (s : State) (nd : (ws.map Prod.fst).Nodup)
    (hb : ∀ w ∈ ws, blockOf w.1 = b) : Claim.accounted b ws s (overwriteAll ws s) := by
  induction ws generalizing s with
  | nil => exact accounted_nil b rfl rfl
  | cons w ws ih =>
    obtain ⟨a, v⟩ := w
    obtain ⟨fresh, nd⟩ := List.nodup_cons.1 nd
    obtain ⟨first, view⟩ := accounted_overwriteWord a v s
    rw [hb (a, v) (by simp)] at first
    refine accounted_cons first view (fun w hw => readWord_of_mem ?_) (ih _ nd fun w hw => hb w (by simp [hw]))
    have other : a ≠ w.1 := by
      rintro rfl
      exact fresh (List.mem_map.2 ⟨w, hw, rfl⟩)
    rw [overwriteWord_mem, memGet_memPut_fresh, if_neg (fun h => other h.1)]

end Sys2Proof.Machine
end

section
/-! PROOFS. The array's own grants and disturbances, the periodic timers, and what waits on the links (R45, R50 to R52, R96,
R114 to R116, R136). -/

namespace Sys2Proof.Machine

open Sys2Proof

/-! ### The write-back and INIT_MEMORY -/

/-- Settles O32: the write-back stores a word that is still CORRECTABLE. -/
theorem writeBackCorrectsOrLeaves : Obligations.WriteBackCorrectsOrLeaves := by
  intro p a s hg ha
  have step : exec .correctionWriteBack s = .next (writeBack { s with mpu.pointer := p }) :=
    congrArg Host.Outcome.next (granted_of_grants .writeBack writeBack p s hg)
  have work : writeBack { s with mpu.pointer := p } =
      if (readWord s a).cond = .correctable then
        storeWord a (readWord s a).value { s with mpu := { s.mpu with pointer := p, writeBack := none } }
      else { s with mpu := { s.mpu with pointer := p, writeBack := none } } := by
    unfold writeBack
    simp only [ha]
    rfl
  rw [work] at step
  by_cases hc : (readWord s a).cond = .correctable
  · rw [if_pos hc] at step
    refine ⟨_, step, rfl, fun _ => ⟨fun b v hv hb => ?_, fun b hb => ?_⟩, fun h => absurd hc h⟩
    · obtain ⟨rfl, rfl⟩ := Prod.mk.inj (List.mem_singleton.1 hv)
      exact (memGet_memPut_fresh _ _ _ _).trans (if_pos ⟨rfl, hb⟩)
    · have other : a ≠ b := fun e => hb (by simp [e])
      exact (memGet_memPut_fresh _ _ _ _).trans (if_neg fun h => other h.1)
  · rw [if_neg hc] at step
    exact ⟨_, step, rfl, fun h => absurd h hc, fun _ => rfl⟩

/-- In CONFIGURING an overwritten word is no finding (R46). -/
theorem overwriteAll_configuring (ws : List (Nat × Word)) (s : State) (h : s.dev = .configuring) :
    (overwriteAll ws s).rgt = s.rgt ∧ (overwriteAll ws s).vtu = s.vtu ∧ (overwriteAll ws s).cmu = s.cmu := by
  have found : ∀ (a : Nat) (s : State), s.dev = .configuring → findOverwritten a s = s := by
    intro a s hd
    unfold findOverwritten
    split
    · exact if_neg fun h => h.2 hd
    · rfl
  induction ws generalizing s with
  | nil => exact ⟨rfl, rfl, rfl⟩
  | cons w ws ih =>
    obtain ⟨rgt, vtu, cmu⟩ := ih (overwriteWord w.1 w.2 s) (by simpa using h)
    have word : (overwriteWord w.1 w.2 s).rgt = s.rgt ∧ (overwriteWord w.1 w.2 s).vtu = s.vtu ∧
        (overwriteWord w.1 w.2 s).cmu = s.cmu := by
      unfold overwriteWord
      dsimp only
      rw [found _ _ h]
      split <;> simp
    obtain ⟨rgt1, vtu1, cmu1⟩ := word
    exact ⟨rgt.trans rgt1, vtu.trans vtu1, cmu.trans cmu1⟩

/-- Zero over the 16 words of a block. -/
theorem blockWrites_zero (b : Nat) :
    blockWrites b (List.replicate Config.blockWords 0) = (blockWords b).map (fun a => (a, 0)) := by
  have length : (blockWords b).length = Config.blockWords := by simp [blockWords]
  unfold blockWrites
  rw [← length, ← List.map_const']
  simpa using List.zip_map' (f := id) (g := fun _ => (0 : Word)) (l := blockWords b)

theorem map_fst_blockZeros (b : Nat) : ((blockWords b).map (fun a => (a, (0 : Word)))).map Prod.fst = blockWords b := by
  rw [List.map_map]
  exact List.map_id _

/-- A word of a block of the array is a word of the array. -/
theorem word_of_block (a b : Nat) (h : blockOf a = b) (hb : b < Config.blocks) : a < Config.words := by
  have hb' : a / 16 < 65536 := by
    change blockOf a < Config.blocks
    rw [h]
    exact hb
  change a < 1048576
  omega

/-- INIT_MEMORY over its next block, with what follows (R51, R52). -/
theorem initBlock_eq (op : InitOp) (s : State) (h : s.mpu.initOp = some op) :
    initBlock s =
      (let t := overwriteAll ((blockWords op.next).map (fun a => (a, 0))) s
       if op.next + 1 < op.stop then { t with mpu.initOp := some { op with next := op.next + 1 } }
       else recordEvent (.operationDone .done (some (64 * op.first))) { t with mpu.initOp := none }) := by
  unfold initBlock
  simp only [h, blockWrites_zero]

/-- Settles O39: the begin is an answer; a grant of INIT_MEMORY is a block-write grant of zeros. -/
theorem initZeroesItsBlock : Obligations.InitZeroesItsBlock := by
  refine ⟨fun f s h => ?begin, fun p op s hg ho hb => ?block⟩
  case begin =>
    have step : exec .initMemoryBegin s = .next (initMemoryNow f s) :=
      congrArg Host.Outcome.next (drained_of_drainedUnder .initMemory initMemoryNow f s h)
    exact ⟨_, step, response_settle _ _ _ _ _ _ (response_respond _ _ _ _ _ _ rfl), settle_respond_end _ _ _ _ _⟩
  case block =>
    have step := congrArg (Host.Outcome.next (φ := Fault) (ρ := Refusal))
      ((granted_of_grants .initBlock initBlock p s hg).trans (initBlock_eq op { s with mpu.pointer := p } ho))
    dsimp only at step
    have nodup : (((blockWords op.next).map (fun a => (a, (0 : Word)))).map Prod.fst).Nodup := by
      rw [map_fst_blockZeros]
      exact blockWords_nodup _
    have wrote := wrote_overwriteAll _ { s with mpu.pointer := p } nodup
    have accounts := accounted_overwriteAll op.next ((blockWords op.next).map (fun a => (a, (0 : Word))))
      { s with mpu.pointer := p } nodup (by
        intro w hw
        obtain ⟨a, ha, rfl⟩ := List.mem_map.1 hw
        exact (mem_blockWords _ _).1 ha)
    have quiet := overwriteAll_configuring ((blockWords op.next).map (fun a => (a, (0 : Word))))
      { s with mpu.pointer := p }
    have keeps := overwriteAll_keeps ((blockWords op.next).map (fun a => (a, (0 : Word)))) { s with mpu.pointer := p }
    generalize overwriteAll _ { s with mpu.pointer := p } = t at step wrote accounts quiet keeps
    obtain ⟨written, others⟩ := wrote
    rw [map_fst_blockZeros] at others
    have zeros : ∀ a, blockOf a = op.next → memGet t.mpu.mem a = ⟨0, 0, .good, 0⟩ := fun a ha =>
      written a 0 (List.mem_map.2 ⟨a, (mem_blockWords _ _).2 ha, rfl⟩) (word_of_block a _ ha hb)
    have kept : ∀ a, blockOf a ≠ op.next → memGet t.mpu.mem a = memGet s.mpu.mem a := fun a ha =>
      others a fun h => ha ((mem_blockWords _ _).1 h)
    have mpu : ∀ o, { t.mpu with initOp := o } = { s.mpu with mem := t.mpu.mem, pointer := p, initOp := o } := by
      intro o
      cases ht : t.mpu
      simp only [ht] at keeps
      simp [keeps]
    by_cases more : op.next + 1 < op.stop
    · rw [if_pos more] at step
      refine ⟨_, step, zeros, kept, ?_, accounted_congr accounts rfl rfl, ?_, ?_, ?_, ?_, ?_, fun hd => ?_⟩
      · rw [if_pos more]
        exact mpu _
      · simp [keeps]
      · simp [keeps]
      · simp [keeps]
      · simp [keeps]
      · simp [keeps]
      · obtain ⟨rgt, vtu, cmu⟩ := quiet hd
        exact ⟨rgt, vtu, fun _ => cmu, fun h => absurd more h⟩
    · rw [if_neg more] at step
      refine ⟨_, step, zeros, kept, ?_, accounted_congr accounts rfl rfl, ?_, ?_, ?_, ?_, ?_, fun hd => ?_⟩
      · rw [if_neg more]
        exact mpu _
      · simp [keeps]
      · simp [keeps]
      · simp [keeps]
      · simp [keeps]
      · simp [keeps]
      · obtain ⟨rgt, vtu, cmu⟩ := quiet hd
        refine ⟨rgt, vtu, fun h => absurd h more, fun _ room => ?_⟩
        have cju : t.cju = s.cju := by simp [keeps]
        rw [(recordEvent_of_room _ _ (by rw [cmu]; exact room)).1]
        simp only [voteCycle, cju, cmu]

/-! ### A disturbance -/

theorem normalWord_fields (w : StoredWord) :
    (normalWord w).stored = w.stored ∧ (normalWord w).written = w.written ∧ (normalWord w).flips = w.flips := by
  unfold normalWord
  split <;> exact ⟨rfl, rfl, rfl⟩

theorem disturb_fields (w : StoredWord) (flips : BitVec 40) (verdict : Verdict) :
    (disturb w flips verdict).stored = w.stored ∧ (disturb w flips verdict).written = w.written ∧
      (disturb w flips verdict).flips = w.flips ^^^ flips := by
  unfold disturb
  split
  case isTrue h => subst h; exact ⟨rfl, rfl, (BitVec.xor_zero).symm⟩
  case isFalse => exact normalWord_fields _

/-- Settles O53: the word disturbed, and the three cases of `checkWord`. -/
theorem disturbanceKeepsTheStoredValue : Obligations.DisturbanceKeepsTheStoredValue := by
  intro word flips verdict s
  have inside : word.toNat < Config.words := word.isLt
  have at_word : memGet (memPut s.mpu.mem word.toNat (disturb (memGet s.mpu.mem word.toNat) flips verdict)) word.toNat =
      normalWord (disturb (memGet s.mpu.mem word.toNat) flips verdict) := by
    rw [memGet_memPut, if_pos ⟨rfl, inside⟩]
  obtain ⟨stored, written, turned⟩ := normalWord_fields (disturb (memGet s.mpu.mem word.toNat) flips verdict)
  obtain ⟨stored', written', turned'⟩ := disturb_fields (memGet s.mpu.mem word.toNat) flips verdict
  refine ⟨_, rfl, rfl, fun a ha => ?_, ?_, ?_, ?_, fun w hw => ⟨fun h => ?_, fun h => ?_, fun h => ?_⟩⟩
  · exact (memGet_memPut _ _ _ _).trans (if_neg fun h => ha h.1.symm)
  · exact (congrArg StoredWord.stored at_word).trans (stored.trans stored')
  · exact (congrArg StoredWord.written at_word).trans (written.trans written')
  · exact (congrArg StoredWord.flips at_word).trans (turned.trans turned')
  all_goals
    rw [readWord, ← hw]
    unfold checkWord
    rw [h]
    rfl

/-! ### What waits on a link -/

/-- The frames of a kind that others of the kind replace. -/
theorem mem_queueCtrl_self (f : CtrlFrame) (l : List CtrlFrame) (hf : ∀ n, f ≠ .credit n) : f ∈ queueCtrl f l := by
  have merged : ∀ g, mergeCtrl g f = f := by
    intro g
    unfold mergeCtrl
    split
    case h_1 => exact absurd rfl (hf _)
    case h_2 => rfl
  induction l with
  | nil => simp [queueCtrl]
  | cons g l ih =>
    unfold queueCtrl
    split
    · simp [merged]
    · exact List.mem_cons_of_mem _ ih

/-- A frame of another kind goes on waiting. -/
theorem mem_queueCtrl_of_ne (f g : CtrlFrame) (l : List CtrlFrame) (hk : ctrlKind g ≠ ctrlKind f) (h : g ∈ l) :
    g ∈ queueCtrl f l := by
  induction l with
  | nil => cases h
  | cons x l ih =>
    unfold queueCtrl
    rcases List.mem_cons.1 h with rfl | h
    · rw [if_neg hk]
      exact List.mem_cons_self
    · split
      · exact List.mem_cons_of_mem _ h
      · exact List.mem_cons_of_mem _ (ih h)

theorem sendCtrl_tx (f : CtrlFrame) (l : Link) (s : State) (hp : s.position ≠ 3) :
    (sendCtrl f l s).lkc.tx =
      s.lkc.tx.put l { s.lkc.tx.get l with ctrl := queueCtrl f (s.lkc.tx.get l).ctrl } := by
  unfold sendCtrl
  rw [if_neg hp]
  rfl

/-- A frame sent on both links waits on each. -/
theorem sendBoth_tx (f : CtrlFrame) (s : State) (hp : s.position ≠ 3) (l : Link) :
    (sendBoth f s).lkc.tx.get l = { s.lkc.tx.get l with ctrl := queueCtrl f (s.lkc.tx.get l).ctrl } := by
  unfold sendBoth
  rw [sendCtrl_tx _ _ _ (by simpa using hp), sendCtrl_tx _ _ _ hp]
  cases l <;> simp

theorem beginFrame_congr {s t : State} (hf : sentFingerprint t = sentFingerprint s)
    (hc : ∀ c, ctrlBody t c = ctrlBody s c) (x : Transmitter) : beginFrame t x = beginFrame s x := by
  unfold beginFrame
  simp only [hf, hc]

/-- Both transmitters begin their first waiting frame, where they can (R116). -/
theorem kick_tx (s : State) (hp : s.position ≠ 3) (l : Link) :
    (kick s).lkc.tx.get l = beginFrame s (s.lkc.tx.get l) := by
  have first : startSend .one s = modifyTx .one (beginFrame s) s := if_neg hp
  have same : beginFrame (modifyTx .one (beginFrame s) s) = beginFrame s :=
    funext (beginFrame_congr rfl fun c => by cases c <;> rfl)
  have second : startSend .two (modifyTx .one (beginFrame s) s) =
      modifyTx .two (beginFrame s) (modifyTx .one (beginFrame s) s) := by
    rw [← same]
    exact if_neg (by simpa using hp)
  rw [kick, first, second]
  cases l <;> rfl

/-- The transmitters' begin changes the transmit queues only. -/
theorem kick_frame {s u : State} {tx : PerLink Transmitter} (h : u = { s with lkc.tx := tx }) :
    kick u = { s with lkc.tx := (kick u).lkc.tx } := by
  subst h
  exact kick_eq _

/-- At position 3 nothing is sent (R106). -/
theorem kick_of_position (s : State) (hp : s.position = 3) : kick s = s := by
  have one : startSend .one s = s := if_pos hp
  rw [kick, one]
  exact if_pos hp

/-- A waiting control frame goes on waiting, or is the one that begins. -/
theorem ctrl_beginFrame (s : State) (x : Transmitter) (c : CtrlFrame) (h : c ∈ x.ctrl) :
    c ∈ (beginFrame s x).ctrl ∨ (beginFrame s x).sending = some ⟨sentFingerprint s, ctrlBody s c⟩ := by
  unfold beginFrame
  split
  · exact Or.inl h
  · split
    case h_1 g rest _ hg =>
      rw [hg] at h
      rcases List.mem_cons.1 h with rfl | h
      · exact Or.inr rfl
      · exact Or.inl h
    case h_2 => rename_i h0 _; rw [h0] at h; cases h
    case h_3 => rename_i h0 _; rw [h0] at h; cases h

/-- A control frame that waits is queued for the peer (R116). -/
theorem queued_kick (l : Link) (c : CtrlFrame) (s u : State) (hc : c ∈ (u.lkc.tx.get l).ctrl)
    (hb : ctrlBody u c = ctrlBody s c) : Claim.queued l (ctrlBody s c) s (kick u) := by
  by_cases hp : u.position = 3
  · rw [kick_of_position u hp]
    exact Or.inl ⟨c, hc, rfl⟩
  · unfold Claim.queued
    rw [kick_tx u hp]
    rcases ctrl_beginFrame u (u.lkc.tx.get l) c hc with h | h
    · exact Or.inl ⟨c, h, rfl⟩
    · exact Or.inr (Or.inl ⟨_, h, hb⟩)

/-! ### The periodic timers -/

/-- Settles O44: each timer's expiry by its own definition; the HELLO by what its frame becomes when it leaves. -/
theorem periodicTimersAct : Obligations.PeriodicTimersAct := by
  intro s hr
  have ready : ∀ f, whenReady f s = f s := fun f => whenReady_of_ready f s hr
  refine ⟨fun ht hp => ?hello, fun ht => ?interval, fun ht => ?idle, fun h => ?toggle, fun h => ?off⟩
  case hello =>
    have step : exec .helloTimer s = .next (kick (helloTrigger s)) :=
      congrArg Host.Outcome.next ((ready helloExpiry).trans (if_pos ht))
    refine ⟨_, step, ?_, fun l => ?_⟩
    · exact kick_frame (helloTrigger_frame s)
    · refine queued_kick l .hello s (helloTrigger s) ?_ ?_
      · rw [helloTrigger, sendBoth_tx .hello s hp]
        exact mem_queueCtrl_self _ _ (by simp)
      · rw [helloTrigger_frame]
        rfl
  case interval => exact congrArg Host.Outcome.next ((ready patrolExpiry).trans (if_pos ht))
  case idle => exact congrArg Host.Outcome.next ((ready patrolExpiry).trans (if_neg (by simp [ht])))
  case toggle => exact congrArg Host.Outcome.next ((ready togglePermit).trans (if_pos h))
  case off => exact congrArg Host.Outcome.next ((ready togglePermit).trans (if_neg (by simp [h])))

end Sys2Proof.Machine
end

section
/-! PROOFS. The link frames of 12.5: what `frameBytes` lays out is what `parseBody` and `judgeFrame` read (R107, R108). -/

namespace Sys2Proof.Machine

open Sys2Proof

/-! ### Entry sets (12.1) -/

theorem entryFlagCode_lt (f : EntryFlag) : entryFlagCode f < 4 := by cases f <;> decide

theorem entryFlagOf_code (f : EntryFlag) : entryFlagOf (entryFlagCode f) = f := by cases f <;> rfl

/-- The flag word holds the flag of entry k in bits 2k + 1 and 2k. -/
theorem fieldOf_flagWord (es : List SigEntry) (k : Nat) (hk : k < es.length) (h16 : es.length ≤ 16) :
    fieldOf (flagWord es) (2 * k) 2 = entryFlagCode es[k].flag := by
  have field : (flagWord es).extractLsb' (2 * k) 2 = BitVec.ofNat 2 (entryFlagCode es[k].flag) := by
    apply BitVec.eq_of_getLsbD_eq
    intro j hj
    have high : ∀ (f : EntryFlag) (m : Nat), 2 ≤ m → (entryFlagCode f).testBit m = false := fun f m hm =>
      Nat.testBit_lt_two_pow (Nat.lt_of_lt_of_le (entryFlagCode_lt f) (Nat.pow_le_pow_right (n := 2) (by decide) hm))
    rw [BitVec.getLsbD_extractLsb', BitVec.getLsbD_ofNat, flagWord, getLsbD_packWord _ _ (by omega)]
    simp only [hj, decide_true, Bool.true_and]
    rw [Bool.eq_iff_iff, List.any_eq_true]
    constructor
    · rintro ⟨f, hf, hbit⟩
      obtain ⟨⟨e, n⟩, he, rfl⟩ := List.mem_map.1 hf
      obtain ⟨hle, hbit⟩ := Bool.and_eq_true_iff.1 hbit
      have hle := of_decide_eq_true hle
      have near : 2 * k + j - 2 * n < 2 := by
        by_contra hn
        rw [high _ _ (by omega)] at hbit
        cases hbit
      have same : n = k := by
        change 2 * n ≤ 2 * k + j at hle
        omega
      subst same
      obtain ⟨-, entry⟩ := List.mem_zipIdx' he
      rw [← entry]
      simpa using hbit
    · intro hbit
      refine ⟨(entryFlagCode es[k].flag, 2 * k), List.mem_map.2 ⟨(es[k], k), ?_, rfl⟩, ?_⟩
      · exact List.mem_zipIdx_iff_getElem?.2 (List.getElem?_eq_getElem hk)
      · simpa using hbit
  rw [fieldOf_eq_extractLsb', field, BitVec.toNat_ofNat]
  exact Nat.mod_eq_of_lt (entryFlagCode_lt _)

/-- Entries are read back from the words of their values under a flag word that holds their flags. -/
theorem entriesOf_values (flags : Word) (k : Nat) (es : List SigEntry) (hv : ∀ e ∈ es, e.value < 4294967296)
    (hf : ∀ i, (hi : i < es.length) → fieldOf flags (2 * (k + i)) 2 = entryFlagCode es[i].flag) :
    entriesOf flags k (es.map (fun e => BitVec.ofNat 32 e.value)) = es := by
  induction es generalizing k with
  | nil => rfl
  | cons e es ih =>
    have first : fieldOf flags (2 * k) 2 = entryFlagCode e.flag := hf 0 (by simp)
    have value : (BitVec.ofNat 32 e.value).toNat = e.value := by
      rw [BitVec.toNat_ofNat]
      exact Nat.mod_eq_of_lt (hv e (by simp))
    have rest := ih (k + 1) (fun e he => hv e (by simp [he])) fun i hi => by
      have h := hf (i + 1) (by simpa using hi)
      rw [show k + 1 + i = k + (i + 1) by omega, h]
      rfl
    rw [List.map_cons, entriesOf, rest, value, first]
    exact congrArg (fun f => (⟨f, e.value⟩ : SigEntry) :: es) (entryFlagOf_code e.flag)

theorem entriesFit_iff (es : List SigEntry) :
    entriesFit es = true ↔ es.length = 16 ∧ ∀ e ∈ es, e.value < 4294967296 := by
  simp [entriesFit]

/-- An entry set that fits is read back from its words. -/
theorem entrySetOf_words (es : List SigEntry) (h : entriesFit es = true) : entrySetOf (entrySetWords es) = es := by
  obtain ⟨length, values⟩ := (entriesFit_iff es).1 h
  exact entriesOf_values _ 0 es values fun i hi => by
    rw [Nat.zero_add]
    exact fieldOf_flagWord es i hi (Nat.le_of_eq length)

/-- An entry set that fits takes 68 bytes. -/
theorem length_entrySet (es : List SigEntry) (h : entriesFit es = true) : (wordsBytes (entrySetWords es)).length = 68 := by
  obtain ⟨length, -⟩ := (entriesFit_iff es).1 h
  simp [length_wordsBytes, entrySetWords, length]

/-! ### Codes on the line (R182) -/

theorem deviceStateOf_code (d : DeviceState) : deviceStateOf (byteOf (deviceStateCode d)).toNat = some d := by
  cases d <;> rfl

theorem optField_chan (c : Option ChannelState) :
    optField channelStateOf (byteOf (optCode channelStateCode c)) = some c := by
  rcases c with _ | c
  · rfl
  · cases c <;> rfl

theorem optField_outcome (o : Option VoteOutcome) :
    optField voteOutcomeOf (byteOf (optCode voteOutcomeCode o)) = some o := by
  rcases o with _ | o
  · rfl
  · cases o <;> rfl

theorem voteKindOf_code (k : VoteKind) : voteKindOf (byteOf (voteKindCode k)).toNat = some k := by cases k <;> rfl

theorem pullKindOf_code (k : PullKind) : pullKindOf (byteOf (pullKindCode k)).toNat = some k := by cases k <;> rfl

theorem pullResultOf_code (r : PullResult) : pullResultOf (byteOf (pullResultCode r)).toNat = some r := by
  cases r <;> rfl

/-- The two flags of a HELLO. -/
theorem helloFlags (a b : Bool) :
    (byteOf (bit a + 2 * bit b)).getLsbD 0 = a ∧ (byteOf (bit a + 2 * bit b)).getLsbD 1 = b := by
  cases a <;> cases b <;> exact ⟨rfl, rfl⟩

/-! ### The bodies -/

theorem wordBytes_eq (w : Word) :
    wordBytes w = [w.extractLsb' 24 8, w.extractLsb' 16 8, w.extractLsb' 8 8, w.extractLsb' 0 8] :=
  rfl

theorem halfBytes_eq (w : BitVec 16) : halfBytes w = [w.extractLsb' 8 8, w.extractLsb' 0 8] :=
  rfl

theorem parseBody_hello (f : HelloFields) : parseBody 1 (bodyBytes (.hello f)) = some (.hello f) := by
  obtain ⟨agreed, busy⟩ := helloFlags f.agreedBase f.serviceBusy
  simp only [bodyBytes, wordBytes_eq, List.cons_append, List.nil_append]
  change (match deviceStateOf (byteOf (deviceStateCode f.dev)).toNat,
      optField channelStateOf (byteOf (optCode channelStateCode f.chan)),
      optField voteOutcomeOf (byteOf (optCode voteOutcomeCode f.lastOutcome)) with
    | some d, some ch, some o => some (FrameBody.hello ⟨d, ch, _, _, _, o⟩)
    | _, _, _ => none) = _
  rw [deviceStateOf_code, optField_chan, optField_outcome, wordOf_wordBytes, agreed, busy]

theorem parseBody_vote (f : VoteFrame) (h : entriesFit f.entries = true) :
    parseBody 2 (bodyBytes (.vote f)) = some (.vote f) := by
  have set : (wordsBytes (entrySetWords f.entries)).length = 68 := length_entrySet _ h
  simp only [bodyBytes, wordBytes_eq, List.cons_append, List.nil_append]
  refine (if_pos set).trans ?_
  rw [voteKindOf_code, wordOf_wordBytes, wordsOf_wordsBytes, entrySetOf_words _ h]
  rfl

theorem parseBody_pull (f : PullFrame) (h : pullFits f = true) : parseBody 3 (bodyBytes (.pull f)) = some (.pull f) := by
  have few : f.repair.length ≤ 32 := of_decide_eq_true h
  have count : (byteOf f.repair.length).toNat = f.repair.length := by
    rw [byteOf, BitVec.toNat_ofNat]
    omega
  have fits : (byteOf f.repair.length).toNat ≤ 32 ∧
      (f.repair.flatMap halfBytes).length = 2 * (byteOf f.repair.length).toNat := by
    rw [count]
    exact ⟨few, length_flatMap_halfBytes _⟩
  simp only [bodyBytes, wordBytes_eq, halfBytes_eq, List.cons_append, List.nil_append]
  refine (if_pos fits).trans ?_
  rw [pullKindOf_code, wordOf_wordBytes, halfOf_halfBytes]
  exact congrArg (fun l => some (FrameBody.pull ⟨f.kind, f.credits, f.target, f.regionSet, l⟩)) (halvesOf_halfBytes _)

theorem parseBody_block (f : BlockFrame) (h : blockFits f = true) :
    parseBody 4 (bodyBytes (.block f)) = some (.block f) := by
  have length : (wordsBytes f.words).length = 64 := by
    rw [length_wordsBytes, eq_of_beq h]
  simp only [bodyBytes, wordBytes_eq, halfBytes_eq, List.cons_append, List.nil_append]
  refine (if_pos length).trans ?_
  rw [wordOf_wordBytes, halfOf_halfBytes, wordsOf_wordsBytes]

theorem parseBody_pullEnd (f : PullEndFrame) (h : pullEndFits f = true) :
    parseBody 6 (bodyBytes (.pullEnd f)) = some (.pullEnd f) := by
  obtain ⟨result, tag, sent, entries⟩ := f
  cases entries with
  | some es =>
    simp only [pullEndFits, Bool.and_eq_true, beq_iff_eq] at h
    obtain ⟨rfl, fit⟩ := h
    have set : (wordsBytes (entrySetWords es)).length = 68 := length_entrySet _ fit
    simp only [bodyBytes, wordBytes_eq, List.cons_append, List.nil_append]
    refine (if_pos set).trans ?_
    rw [wordOf_wordBytes, wordOf_wordBytes, wordsOf_wordsBytes, entrySetOf_words _ fit]
  | none =>
    have other : result ≠ .done := bne_iff_ne.1 h
    simp only [bodyBytes, wordBytes_eq, List.cons_append, List.nil_append]
    cases result
    case done => exact absurd rfl other
    all_goals
      refine Eq.trans (b := some (FrameBody.pullEnd ⟨_, wordOf _ _ _ _, wordOf _ _ _ _, none⟩)) rfl ?_
      rw [wordOf_wordBytes, wordOf_wordBytes]

/-- A body that fits is read back under its kind (R108, step 2). -/
theorem parseBody_bodyBytes (body : FrameBody)
    (h : match body with
      | .vote f => entriesFit f.entries = true
      | .pull f => pullFits f = true
      | .block f => blockFits f = true
      | .pullEnd f => pullEndFits f = true
      | _ => True) :
    parseBody (byteOf (frameKind body)) (bodyBytes body) = some body := by
  cases body with
  | hello f => exact parseBody_hello f
  | vote f => exact parseBody_vote f h
  | pull f => exact parseBody_pull f h
  | block f => exact parseBody_block f h
  | credit n => rfl
  | pullEnd f => exact parseBody_pullEnd f h

/-- A frame whose body is read back passes the checks at a peer that knows its sender (R108). -/
theorem judgeFrame_frameBytes (sender : Nat) (fp : BitVec 16) (body : FrameBody) (hs : sender < 3)
    (h : parseBody (byteOf (frameKind body)) (bodyBytes body) = some body) :
    judgeFrame sender (frameBytes sender ⟨fp, body⟩) = .valid ⟨fp, body⟩ := by
  have position : (byteOf sender).toNat = sender := by
    rw [byteOf, BitVec.toNat_ofNat]
    omega
  unfold frameBytes
  dsimp only
  generalize hb : [byteOf (frameKind body), byteOf sender] ++ halfBytes fp ++ bodyBytes body = b
  have length : (b ++ halfBytes (crc16 b)).length - 2 = b.length := by
    rw [List.length_append]
    exact Nat.add_sub_cancel b.length 2
  have check : 2 ≤ (b ++ halfBytes (crc16 b)).length ∧ (b ++ halfBytes (crc16 b)).drop b.length =
      halfBytes (crc16 ((b ++ halfBytes (crc16 b)).take b.length)) := by
    rw [List.drop_left, List.take_left, List.length_append]
    exact ⟨Nat.le_add_left 2 _, rfl⟩
  unfold judgeFrame
  dsimp only
  rw [length, if_pos check, List.take_left, ← hb]
  simp only [halfBytes_eq, List.cons_append, List.nil_append, h, position, if_true, halfOf_halfBytes]

/-- Settles O56: the body of each kind is read back, and with it the frame. -/
theorem linkFramesReadBack : Obligations.LinkFramesReadBack := fun sender fp body hs h =>
  judgeFrame_frameBytes sender fp body hs (parseBody_bodyBytes body (by cases body <;> exact h))

end Sys2Proof.Machine
end

section
/-! PROOFS. The tests that a change of a peer's link state, a frame or the end of a drain bring: the condition of R125 for a
decision and that of R143 for a FULL pull (R141 to R143, R118). -/

namespace Sys2Proof.Machine

open Sys2Proof

/-! ### The condition of R125 -/

theorem currentFrame_isSome_iff (s : State) (l : Link) :
    (currentFrame s l).isSome = true ↔ ∃ f ∈ s.vtu.table.get l, f.cycle = s.cju.cycle + 1 := by
  simp [currentFrame, voteCycle]

/-- No HEARD peer's frame is missing (R125). -/
theorem allHeardPresent_iff (s : State) : allHeardPresent s = true ↔ ∀ m, ¬Claim.awaits s m := by
  have present : ∀ l, (!(s.lkc.peers.get l).heard || (currentFrame s l).isSome) = true ↔ ¬Claim.awaits s l := by
    intro l
    rw [Bool.or_eq_true, currentFrame_isSome_iff, Claim.awaits]
    cases (s.lkc.peers.get l).heard <;> simp
  unfold allHeardPresent
  rw [Bool.and_eq_true]
  constructor
  · rintro ⟨h1, h2⟩ (_ | _)
    · exact (present .one).1 h1
    · exact (present .two).1 h2
  · exact fun h => ⟨(present .one).2 (h .one), (present .two).2 (h .two)⟩

/-- With every frame there the decision is taken (R125). -/
theorem testDecision_of_decides (s : State) (hc : s.cju.chan = some .voting) (h : ∀ m, ¬Claim.awaits s m) :
    testDecision s = takeDecision s :=
  if_pos ⟨hc, (allHeardPresent_iff s).2 h⟩

/-- While a HEARD peer's frame is missing, and outside VOTING, nothing is decided. -/
theorem testDecision_of_waits (s : State) (h : s.cju.chan = some .voting → ∃ m, Claim.awaits s m) : testDecision s = s := by
  refine if_neg fun ⟨hc, hp⟩ => ?_
  obtain ⟨m, hm⟩ := h hc
  exact (allHeardPresent_iff s).1 hp m hm

/-! ### The choice of a server -/

/-- What makes a peer an eligible server (R141). -/
theorem eligible_iff (s : State) (l : Link) :
    eligible s l = true ↔
      (s.lkc.peers.get l).heard = true ∧ (s.lkc.peers.get l).matched = true ∧
        ∃ h, (s.lkc.peers.get l).hello = some h ∧ h.fields.dev = .running ∧ h.fields.agreedBase = true ∧
          h.fields.serviceBusy = false := by
  unfold eligible
  dsimp only
  cases (s.lkc.peers.get l).hello <;> simp [Bool.and_eq_true, and_assoc]

/-- The two links lead to different positions. -/
theorem peerPosition_one_ne_two (p : BitVec 2) : peerPosition p .one ≠ peerPosition p .two := by
  simp only [peerPosition]
  omega

/-- A search in rising order of the positions finds the link with the lower one. -/
theorem find?_linksByPosition_iff (s : State) (q : Link → Bool) (l : Link) :
    (linksByPosition s).find? q = some l ↔
      q l = true ∧ ∀ m, m ≠ l → q m = true → peerPosition s.position l < peerPosition s.position m := by
  have other : ∀ P : Link → Prop, (∀ m, P m) ↔ P .one ∧ P .two := fun P =>
    ⟨fun h => ⟨h .one, h .two⟩, fun h m => by cases m; exacts [h.1, h.2]⟩
  have apart := peerPosition_one_ne_two s.position
  unfold linksByPosition
  rw [other]
  split
  case isTrue hlt =>
    have hge := Nat.not_lt.2 (Nat.le_of_lt hlt)
    cases l <;> cases h1 : q .one <;> cases h2 : q .two <;> simp [h1, h2, hlt, hge]
  case isFalse hge =>
    have hlt : peerPosition s.position .two < peerPosition s.position .one := by omega
    cases l <;> cases h1 : q .one <;> cases h2 : q .two <;> simp [h1, h2, hlt, hge]

theorem chooseServer_iff (s : State) (l : Link) :
    chooseServer s = some l ↔ eligible s l = true ∧
      ∀ m, m ≠ l → eligible s m = true → peerPosition s.position l < peerPosition s.position m :=
  find?_linksByPosition_iff s (eligible s) l

theorem mem_linksByPosition (s : State) (l : Link) : l ∈ linksByPosition s := by
  unfold linksByPosition
  split <;> cases l <;> decide

theorem chooseServer_eq_none_iff (s : State) : chooseServer s = none ↔ ∀ m, eligible s m = false := by
  unfold chooseServer
  rw [List.find?_eq_none]
  exact ⟨fun h m => by simpa using h m (mem_linksByPosition s m), fun h m _ => by simp [h m]⟩

/-! ### The start of a pull (R142, R143) -/

/-- The pull record of a pull that starts (R142, R143). -/
def Pull.begun (p : Pull) (kind : PullKind) (server : Link) (frame : PullFrame) (silence : Nat) : Pull :=
  { p with
    phase := .receiving, kind := some kind, server := some server, target := frame.target, regionSet := frame.regionSet,
    buffers := [], received := 0, timer := some silence, clean := 0, ending := none }

theorem beginPull_frame (kind : PullKind) (server : Link) (frame : PullFrame) (s : State) :
    beginPull kind server frame s =
      { s with
        rse.pull := s.rse.pull.begun kind server frame s.times.pullSilence
        lkc.tx := (beginPull kind server frame s).lkc.tx
        cmu := s.cmu.withEvents (beginPull kind server frame s).cmu } := by
  unfold beginPull
  rw [recordEvent_frame, sendCtrl_frame]
  simp [recordEvent, Cmu.withEvents, Pull.begun]

/-- The part with its W_PREV marks cleared and its channel in RESTORING. -/
def restoring (s : State) : State := setChan (some .restoring) (clearPrev s)

theorem startFull_eq (l : Link) (s : State) :
    startFull l s = beginPull .full l ⟨.full, 8, 0, fullSet s l, []⟩ (restoring s) :=
  rfl

/-- What the start of a FULL pull changes (R143). -/
theorem startFull_frame (l : Link) (s : State) :
    startFull l s =
      { s with
        cju := { s.cju with chan := some .restoring, wPrev := [], wPrevValid := false }
        vtu := s.vtu.toChan s.cju.chan (some .restoring)
        rse.pull := s.rse.pull.begun .full l ⟨.full, 8, 0, fullSet s l, []⟩ s.times.pullSilence
        lkc.tx := (startFull l s).lkc.tx
        cmu := s.cmu.withEvents (startFull l s).cmu } := by
  have moved := setChan_frame (some .restoring) (clearPrev s)
  have begun := beginPull_frame .full l ⟨.full, 8, 0, fullSet s l, []⟩ (restoring s)
  rw [startFull_eq, begun, restoring, moved]
  rfl

/-! ### The test of R143 -/

/-- A pull that is due starts from the eligible server with the lower position (R141, R143). -/
theorem testFull_of_due (s : State) (h : Claim.pullDue s) :
    ∃ l, eligible s l = true ∧
      (∀ m, m ≠ l → eligible s m = true → peerPosition s.position l < peerPosition s.position m) ∧
      testFull s = startFull l s := by
  obtain ⟨hc, ha, hp, m, hm⟩ := h
  cases hs : chooseServer s with
  | none => rw [(chooseServer_eq_none_iff s).1 hs m] at hm; cases hm
  | some l =>
    obtain ⟨he, hlow⟩ := (chooseServer_iff s l).1 hs
    refine ⟨l, he, hlow, ?_⟩
    unfold testFull
    rw [if_pos ⟨hc, ha, hp⟩, hs]

/-- Where none is due, nothing starts. -/
theorem testFull_of_not_due (s : State) (h : ¬Claim.pullDue s) : testFull s = s := by
  unfold testFull
  split
  case isTrue hd =>
    obtain ⟨hc, ha, hp⟩ := hd
    split
    case h_1 l hl => exact absurd ⟨hc, ha, hp, l, ((chooseServer_iff s l).1 hl).1⟩ h
    case h_2 => rfl
  case isFalse => rfl

/-- After the test none is due. -/
theorem not_pullDue_testFull (s : State) : ¬Claim.pullDue (testFull s) := by
  by_cases h : Claim.pullDue s
  · obtain ⟨l, -, -, he⟩ := testFull_of_due s h
    rintro ⟨hc, -⟩
    rw [he, startFull_frame] at hc
    cases hc
  · rwa [testFull_of_not_due s h]

/-- A channel that is not EXCLUDED starts no pull. -/
theorem not_pullDue_of_chan (s : State) (h : s.cju.chan ≠ some .excluded) : ¬Claim.pullDue s := fun hd => h hd.1

/-! ### What a decision leaves -/

/-- The channel state in which an outcome leaves the part (R128 to R133). -/
def outcomeChan : VoteOutcome → ChannelState
  | .member3 | .member2 | .collectiveAbandon | .noQuorum => .ready
  | .outvoted => .catchup
  | .excluded => .excluded

theorem memberOutcome_chan (own : VoteFrame) (s : State) : (memberOutcome own s).cju.chan = some .ready := by
  unfold memberOutcome
  dsimp only
  split <;> simp

theorem applyOutcome_chan (o : VoteOutcome) (own : VoteFrame) (s : State) :
    (applyOutcome o own s).cju.chan = some (outcomeChan o) := by
  cases o with
  | member3 => exact memberOutcome_chan own s
  | member2 => exact memberOutcome_chan own s
  | collectiveAbandon => simp [applyOutcome, abandonOutcome, outcomeChan]
  | outvoted => simp [applyOutcome, outvotedOutcome, outcomeChan]
  | excluded => simp [applyOutcome, excludedOutcome, outcomeChan]
  | noQuorum => cases hk : own.kind <;> simp [applyOutcome, noQuorumOutcome, outcomeChan, hk]

/-- The part between the effect of an outcome and what follows it: views and last decision are set (R134). -/
def decided (o : VoteOutcome) (own : VoteFrame) (frames : PerLink (Option VoteFrame)) (s : State) : State :=
  recordDecision ⟨o, voteCycle s, agreeingSet s.position own frames, s.cmu.ms⟩
    (setViews own frames (reconsiderMarks (applyOutcome o own s)))

theorem completeDecision_eq (o : VoteOutcome) (server : Option Link) (own : VoteFrame)
    (frames : PerLink (Option VoteFrame)) (s : State) :
    completeDecision o server own frames s = afterDecision o server (decided o own frames s) :=
  rfl

/-- The decision repeats the outcome and the agreeing set of the one before it (R134). -/
def repeatsLast (d : Decision) (s : State) : Bool :=
  match s.vtu.last with
  | some old => old.outcome == d.outcome && old.agreeing == d.agreeing
  | none => false

theorem recordDecision_eq (d : Decision) (s : State) :
    recordDecision d s =
      if repeatsLast d s then { s with vtu := { s.vtu with last := some d } }
      else recordEvent (.decision d.outcome d.agreeing d.cycle) { s with vtu := { s.vtu with last := some d } } :=
  rfl

theorem recordDecision_frame (d : Decision) (s : State) :
    recordDecision d s =
      { s with vtu := { s.vtu with last := some d }, cmu := s.cmu.withEvents (recordDecision d s).cmu } := by
  rw [recordDecision_eq]
  split
  · rfl
  · exact recordEvent_frame (.decision d.outcome d.agreeing d.cycle) { s with vtu := { s.vtu with last := some d } }

theorem decided_cju (o : VoteOutcome) (own : VoteFrame) (frames : PerLink (Option VoteFrame)) (s : State) :
    (decided o own frames s).cju = (applyOutcome o own s).cju := by
  rw [decided, recordDecision_frame]
  rfl

/-- No pull is due after a completed decision: EXCLUDED ends with the test of R143. -/
theorem not_pullDue_completeDecision (o : VoteOutcome) (server : Option Link) (own : VoteFrame)
    (frames : PerLink (Option VoteFrame)) (s : State) : ¬Claim.pullDue (completeDecision o server own frames s) := by
  have chan : (decided o own frames s).cju.chan = some (outcomeChan o) := by
    rw [decided_cju, applyOutcome_chan]
  have other : outcomeChan o ≠ .excluded → ¬Claim.pullDue (decided o own frames s) := fun h =>
    not_pullDue_of_chan _ (by simp [chan, h])
  rw [completeDecision_eq]
  cases o with
  | excluded => exact not_pullDue_testFull _
  | outvoted =>
    cases server with
    | none => exact other (by decide)
    | some l => exact not_pullDue_of_chan _ (by simp [afterDecision, startDelta, clearPrev, beginPull, chan, outcomeChan])
  | member3 => exact other (by decide)
  | member2 => exact other (by decide)
  | collectiveAbandon => exact other (by decide)
  | noQuorum => exact other (by decide)

/-- The CURRENT frames of the two peers (R122). -/
def currents (s : State) : PerLink (Option VoteFrame) := ⟨currentFrame s .one, currentFrame s .two⟩

/-- The part in which a ruled outcome takes effect: the CURRENT slots are empty, the vote timer has stopped, and PERMIT is off
unless the outcome is a membership (R124, R125, R137). -/
def toDecide (o : VoteOutcome) (s : State) : State :=
  if memberRank o then takeFrames s else dropPermit (.outcome (some o)) (takeFrames s)

/-- The part in which a rollback at the decision begins (R130). -/
def toRollBack (m : VoteFrame) (s : State) : State :=
  let t := dropPermit (.outcome none) (takeFrames s)
  setChan (some .rollingBack) { t with vtu := { t.vtu with deciding := some ⟨currents s, m⟩ } }

theorem takeDecision_of_outcome (own : VoteFrame) (o : VoteOutcome) (server : Option Link) (s : State)
    (hown : s.vtu.own = some own) (hr : rule s own (currents s) = .outcome o server) :
    takeDecision s = completeDecision o server own (currents s) (toDecide o s) := by
  unfold takeDecision
  simp only [hown]
  rw [← currents, hr]
  rfl

theorem takeDecision_of_rollback (own m : VoteFrame) (s : State) (hown : s.vtu.own = some own)
    (hr : rule s own (currents s) = .rollback m) :
    takeDecision s =
      if s.cju.journal = [] then finishDecisionRollback ⟨currents s, m⟩ (toRollBack m s) else toRollBack m s := by
  have journal : (toRollBack m s).cju.journal = s.cju.journal := by simp [toRollBack]
  rw [← journal]
  unfold takeDecision
  simp only [hown]
  rw [← currents, hr]
  rfl

theorem takeDecision_of_no_frame (s : State) (h : s.vtu.own = none) : takeDecision s = s := by
  unfold takeDecision
  rw [h]

/-- The frame of a rollback at a decision, with the entries of the moment (R130). -/
def postFrame (s : State) : VoteFrame := ⟨voteCycle s, .abandoned, ownEntries s⟩

/-- The part after the rollback check of a decision, with its post-rollback frame (R130). -/
def rolledBack (s : State) : State :=
  { rollbackCheck s with
    vtu := { (rollbackCheck s).vtu with own := some (postFrame (rollbackCheck s)), deciding := none } }

theorem finishDecisionRollback_eq (d : Deciding) (s : State) :
    finishDecisionRollback d s =
      completeDecision (if framesAgree (postFrame (rollbackCheck s)) d.majority then .collectiveAbandon else .excluded) none
        (postFrame (rollbackCheck s)) d.frames (rolledBack s) :=
  rfl

/-- A decision is a completed outcome, a completed rollback or the begin of one, by the ruling of R127. -/
theorem takeDecision_cases {P : State → Prop} (s : State) (idle : s.vtu.own = none → P s)
    (completed : ∀ own o server, s.vtu.own = some own → rule s own (currents s) = .outcome o server →
      P (completeDecision o server own (currents s) (toDecide o s)))
    (undone : ∀ own m, s.vtu.own = some own → rule s own (currents s) = .rollback m → s.cju.journal = [] →
      P (finishDecisionRollback ⟨currents s, m⟩ (toRollBack m s)))
    (undoing : ∀ own m, s.vtu.own = some own → rule s own (currents s) = .rollback m → s.cju.journal ≠ [] →
      P (toRollBack m s)) : P (takeDecision s) := by
  cases hown : s.vtu.own with
  | none =>
    rw [takeDecision_of_no_frame s hown]
    exact idle hown
  | some own =>
    cases hr : rule s own (currents s) with
    | outcome o server =>
      rw [takeDecision_of_outcome own o server s hown hr]
      exact completed own o server hown hr
    | rollback m =>
      rw [takeDecision_of_rollback own m s hown hr]
      split
      case isTrue hj => exact undone own m hown hr hj
      case isFalse hj => exact undoing own m hown hr hj

theorem toRollBack_chan (m : VoteFrame) (s : State) : (toRollBack m s).cju.chan = some .rollingBack := by simp [toRollBack]

/-- A decision leaves no pull due. -/
theorem not_pullDue_takeDecision (s : State) (hc : s.cju.chan = some .voting) : ¬Claim.pullDue (takeDecision s) := by
  refine takeDecision_cases (P := fun t => ¬Claim.pullDue t) s (fun _ => ?idle) (fun own o server _ _ => ?completed) (fun own m _ _ _ => ?undone)
    (fun own m _ _ _ => ?undoing)
  case idle => exact not_pullDue_of_chan _ (by simp [hc])
  case completed => exact not_pullDue_completeDecision o server own _ _
  case undone => exact not_pullDue_completeDecision _ none _ _ _
  case undoing => exact not_pullDue_of_chan _ (by simp [toRollBack_chan])

/-! ### A change of link state (R118) -/

/-- With a frame awaited in VOTING, and no pull due, a change of link state brings nothing. -/
theorem linkChanged_of_quiet (s : State) (hp : ¬Claim.pullDue s)
    (hv : s.cju.chan = some .voting → ∃ m, Claim.awaits s m) : linkChanged s = s := by
  rw [linkChanged, testDecision_of_waits s hv, testFull_of_not_due s hp]

/-- In VOTING with every frame there it brings the decision, and no pull besides. -/
theorem linkChanged_of_decision (s : State) (hc : s.cju.chan = some .voting) (h : ∀ m, ¬Claim.awaits s m) :
    linkChanged s = takeDecision s := by
  rw [linkChanged, testDecision_of_decides s hc h, testFull_of_not_due _ (not_pullDue_takeDecision s hc)]

/-- Outside VOTING it is the test of R143. -/
theorem linkChanged_of_not_voting (s : State) (hc : s.cju.chan ≠ some .voting) : linkChanged s = testFull s := by
  rw [linkChanged, testDecision_of_waits s fun h => absurd h hc]

/-- A pull that is due starts. -/
theorem testFull_starts (s : State) (h : Claim.pullDue s) :
    (testFull s).cju.chan = some .restoring ∧ (testFull s).rse.pull.phase = .receiving ∧
      (testFull s).rse.pull.kind = some .full := by
  obtain ⟨l, -, -, he⟩ := testFull_of_due s h
  rw [he, startFull_frame]
  exact ⟨rfl, rfl, rfl⟩

/-- A vote changes of a peer's record its view alone (R134). -/
theorem completeDecision_peers (o : VoteOutcome) (server : Option Link) (own : VoteFrame)
    (frames : PerLink (Option VoteFrame)) (s : State) (l : Link) :
    (completeDecision o server own frames s).lkc.peers.get l =
      { s.lkc.peers.get l with view := viewAt own (frames.get l) } := by
  have after : ∀ t, (afterDecision o server t).lkc.peers = t.lkc.peers := by
    intro t
    unfold afterDecision
    split <;> simp
  rw [completeDecision_eq, after, decided, recordDecision_frame]
  cases l <;> simp [setViews, PerLink.get, reconsiderMarks]

theorem toDecide_lkc (o : VoteOutcome) (s : State) : (toDecide o s).lkc = s.lkc := by
  unfold toDecide
  split <;> simp

theorem toRollBack_peers (m : VoteFrame) (s : State) : (toRollBack m s).lkc.peers = s.lkc.peers := by simp [toRollBack]

theorem takeDecision_peers (s : State) (l : Link) :
    ∃ v, (takeDecision s).lkc.peers.get l = { s.lkc.peers.get l with view := v } := by
  refine takeDecision_cases (P := fun t => ∃ v, t.lkc.peers.get l = { s.lkc.peers.get l with view := v }) s
    (fun _ => ?idle) (fun own o server _ _ => ?completed) (fun own m _ _ _ => ?undone) (fun own m _ _ _ => ?undoing)
  case idle => exact ⟨(s.lkc.peers.get l).view, rfl⟩
  case completed =>
    rw [completeDecision_peers, toDecide_lkc]
    exact ⟨_, rfl⟩
  case undone =>
    have peers : (rolledBack (toRollBack m s)).lkc.peers = s.lkc.peers := by simp [rolledBack, toRollBack_peers]
    rw [finishDecisionRollback_eq, completeDecision_peers, peers]
    exact ⟨_, rfl⟩
  case undoing =>
    rw [toRollBack_peers]
    exact ⟨(s.lkc.peers.get l).view, rfl⟩

theorem linkChanged_peers (s : State) (l : Link) :
    ∃ v, (linkChanged s).lkc.peers.get l = { s.lkc.peers.get l with view := v } := by
  have full : (linkChanged s).lkc.peers = (testDecision s).lkc.peers := by simp [linkChanged]
  rw [full, testDecision]
  split
  · exact takeDecision_peers s l
  · exact ⟨(s.lkc.peers.get l).view, rfl⟩

/-- Of the patrol's records only `turned` may be set (notes/assumptions/43). -/
theorem linkChanged_ptu (s : State) :
    (linkChanged s).ptu = { s.ptu with turned := (linkChanged s).ptu.turned } := by
  have keeps := linkChanged_keeps s
  generalize (linkChanged s).ptu = p at keeps
  cases p
  simp_all

end Sys2Proof.Machine
end

section
/-! PROOFS. What a step appends to the event queue before it ends (R177): how many records, and of which kinds. -/

namespace Sys2Proof.Machine

open Sys2Proof

/-- From `s` to `t` at most `n` records have been appended to the event queue, each of an admitted body. -/
def Records (admits : EventBody → Prop) (n : Nat) (s t : State) : Prop :=
  ∃ more : List Record, t.cmu.events = s.cmu.events ++ more ∧ more.length ≤ n ∧ ∀ r ∈ more, admits r.body

namespace Records

variable {admits : EventBody → Prop} {m n : Nat} {s t u : State}

theorem of_eq (h : t.cmu.events = s.cmu.events) : Records admits n s t := ⟨[], by simp [h]⟩

theorem trans (h : Records admits m s t) (k : Records admits n t u) : Records admits (m + n) s u := by
  obtain ⟨more, ht, hm, ha⟩ := h
  obtain ⟨rest, hu, hn, hb⟩ := k
  refine ⟨more ++ rest, by rw [hu, ht, List.append_assoc], ?_, fun r hr => ?_⟩
  · rw [List.length_append]
    exact Nat.add_le_add hm hn
  · exact (List.mem_append.1 hr).elim (ha r) (hb r)

theorem mono (h : Records admits m s t) (hn : m ≤ n) : Records admits n s t :=
  let ⟨more, ht, hm, ha⟩ := h
  ⟨more, ht, Nat.le_trans hm hn, ha⟩

/-- Nothing that was in the queue is lost. -/
theorem mem (h : Records admits n s t) {r : Record} (hr : r ∈ s.cmu.events) : r ∈ t.cmu.events := by
  obtain ⟨more, ht, -, -⟩ := h
  rw [ht]
  exact List.mem_append_left more hr

theorem length_le (h : Records admits n s t) : t.cmu.events.length ≤ s.cmu.events.length + n := by
  obtain ⟨more, ht, hm, -⟩ := h
  rw [ht, List.length_append]
  exact Nat.add_le_add_left hm _

/-- A record of the queue was there or has an admitted body. -/
theorem fresh (h : Records admits n s t) {r : Record} (hr : r ∈ t.cmu.events) : r ∈ s.cmu.events ∨ admits r.body := by
  obtain ⟨more, ht, -, ha⟩ := h
  rw [ht] at hr
  exact (List.mem_append.1 hr).imp id (ha r)

theorem event (b : EventBody) (s : State) (hb : admits b) : Records admits 1 s (recordEvent b s) := by
  by_cases room : s.cmu.events.length < 64
  · exact ⟨_, (recordEvent_of_room b s room).1, by simp, by simpa using hb⟩
  · exact of_eq (recordEvent_of_full b s (Nat.le_of_not_lt room)).1

theorem dropPermit (c : PermitCause) (s : State) (hb : admits (.permitDropped c)) :
    Records admits 1 s (dropPermit c s) := by
  unfold Machine.dropPermit
  split
  · exact event (.permitDropped c) { s with vtu := { s.vtu with permitted := false, level := false } } hb
  · exact of_eq rfl

/-- With PERMIT off nothing is left to drop. -/
theorem dropPermit_off (c : PermitCause) (s : State) (h : s.vtu.permitted = false) :
    Records admits 0 s (Machine.dropPermit c s) :=
  of_eq (by rw [Machine.dropPermit, if_neg (by simp [h])])

theorem setChan (c : Option ChannelState) (s : State) (hb : admits (.permitDropped .state)) :
    Records admits 1 s (setChan c s) := by
  unfold Machine.setChan
  split
  · exact of_eq rfl
  · dsimp only
    split
    · exact of_eq (by simp)
    · exact (of_eq (n := 0) (by simp)).trans (dropPermit .state _ hb)

/-- A move of the channel with PERMIT off, or to a state in which PERMIT may toggle, records nothing. -/
theorem setChan_quiet (c : Option ChannelState) (s : State) (h : s.vtu.permitted = false ∨ permitState c = true) :
    Records admits 0 s (Machine.setChan c s) := by
  unfold Machine.setChan
  split
  · exact of_eq rfl
  · dsimp only
    split
    · exact of_eq (by simp)
    · rename_i hp
      refine (of_eq (n := 0) (by simp)).trans (dropPermit_off .state _ ?_)
      simpa [hp] using h

theorem endService (result : PullResult) (es : Option (List SigEntry)) (s : State)
    (hb : ∀ peer, admits (.serviceEnded peer result)) : Records admits 1 s (endService result es s) := by
  unfold Machine.endService
  split
  · dsimp only
    split
    · exact (of_eq (n := 0) (by simp)).trans (event _ _ (hb _))
    · exact of_eq rfl
  · exact of_eq rfl

theorem endIfLost (s : State) (hb : ∀ peer result, admits (.serviceEnded peer result)) :
    Records admits 1 s (endIfLost s) := by
  unfold Machine.endIfLost
  split
  · exact of_eq rfl
  · exact endService _ _ s fun peer => hb peer _

theorem staleDelta (s : State) (hb : ∀ peer result, admits (.serviceEnded peer result)) :
    Records admits 1 s (staleDelta s) := by
  unfold Machine.staleDelta
  split
  · exact endService _ _ s fun peer => hb peer _
  · exact of_eq rfl

theorem testFull (s : State) (hp : admits (.permitDropped .state)) (hb : ∀ peer, admits (.pullStarted peer .full)) :
    Records admits 2 s (testFull s) := by
  by_cases h : Claim.pullDue s
  · obtain ⟨l, -, -, he⟩ := testFull_of_due s h
    rw [he, startFull_eq]
    have moved : Records admits 1 s (restoring s) :=
      (of_eq (n := 0) (t := clearPrev s) rfl).trans (setChan (some .restoring) (clearPrev s) hp)
    exact moved.trans ((of_eq (n := 0) (by simp)).trans (event _ _ (hb _)))
  · exact of_eq (by rw [testFull_of_not_due s h])

end Records

@[simp] theorem enterReady_cmu (s : State) : (enterReady s).cmu = s.cmu := by rw [enterReady_frame]

/-- The kinds of the events that a decision can record besides its DECISION: PERMIT_DROPPED, SERVICE_ENDED,
ROLLBACK_CHECK_FAULT and PULL_STARTED. -/
def besideDecision : EventBody → Prop
  | .permitDropped _ | .serviceEnded _ _ | .rollbackCheckFault _ _ _ | .pullStarted _ _ => True
  | _ => False

/-- The kinds of the events of a decision. -/
def ofDecision (b : EventBody) : Prop := besideDecision b ∨ ∃ o g c, b = .decision o g c

namespace Records

variable {n : Nat} {s t : State}

theorem ofDecision (h : Records besideDecision n s t) : Records ofDecision n s t :=
  let ⟨more, ht, hm, ha⟩ := h
  ⟨more, ht, hm, fun r hr => .inl (ha r hr)⟩

theorem of_cmu (h : t.cmu = s.cmu) : Records besideDecision n s t := of_eq (congrArg Cmu.events h)

theorem enterReady (s : State) : Records besideDecision 0 s (enterReady s) := of_cmu (by simp)

theorem setAgreed (b : Bool) (s : State) : Records besideDecision 0 s (setAgreed b s) := of_cmu (by simp)

theorem raisePermit (s : State) : Records besideDecision 0 s (raisePermit s) := of_cmu (by simp)

theorem emptyNext (s : State) : Records besideDecision 0 s (emptyNext s) := of_cmu rfl

theorem advance (own : VoteFrame) (s : State) : Records besideDecision 0 s (advance own s) := of_cmu rfl

theorem takeFrames (s : State) : Records besideDecision 0 s (takeFrames s) := of_cmu (by simp)

theorem memberOutcome (own : VoteFrame) (s : State) : Records besideDecision 1 s (memberOutcome own s) := by
  have marked : Records besideDecision 0 s (markResend s) := of_cmu (by simp)
  have closed : Records besideDecision 1 s
      (Machine.enterReady (Machine.setAgreed true (Machine.staleDelta (Machine.advance own (markResend s))))) :=
    (((marked.trans (advance own _)).trans (staleDelta _ fun _ _ => trivial)).trans (setAgreed true _)).trans
      (enterReady _)
  unfold Machine.memberOutcome
  dsimp only
  split
  · exact closed
  · exact closed.trans (raisePermit _)

theorem noQuorumOutcome (own : VoteFrame) (s : State) : Records besideDecision 2 s (noQuorumOutcome own s) := by
  have lost : ∀ u, Records besideDecision 1 u (Machine.enterReady (Machine.endIfLost (Machine.setAgreed false u))) :=
    fun u => ((setAgreed false u).trans (endIfLost _ fun _ _ => trivial)).trans (enterReady _)
  unfold Machine.noQuorumOutcome
  split
  · exact ((advance own s).trans (staleDelta _ fun _ _ => trivial)).trans (lost _)
  · exact ((emptyNext s).trans (lost _)).mono (by decide)

/-- An outcome records at most two events. -/
theorem applyOutcome (o : VoteOutcome) (own : VoteFrame) (s : State) :
    Records besideDecision 2 s (applyOutcome o own s) := by
  cases o with
  | member3 => exact (memberOutcome own s).mono (by decide)
  | member2 => exact (memberOutcome own s).mono (by decide)
  | collectiveAbandon => exact ((emptyNext s).trans (enterReady _)).mono (by decide)
  | outvoted => exact (endService .serverLost none s fun _ => trivial).trans (setChan (some .catchup) _ trivial)
  | excluded =>
    have left : Records besideDecision 0 s (Machine.setAgreed false (clearPrev (emptyJournal s))) :=
      (of_cmu (n := 0) (t := clearPrev (emptyJournal s)) rfl).trans (setAgreed false _)
    exact (left.trans (endIfLost _ fun _ _ => trivial)).trans (setChan (some .excluded) _ trivial)
  | noQuorum => exact noQuorumOutcome own s

theorem checkRegion (s : State) (e : Nat × Region) : Records besideDecision 2 s (checkRegion s e) := by
  have marked : ∀ u, Records besideDecision 0 u (markSuspect e.1 false u) := fun u => of_eq (by simp)
  have called : ∀ u, Records besideDecision 1 u (suspectPermit e.1 u) := by
    intro u
    unfold suspectPermit
    split
    · split
      · exact dropPermit _ _ trivial
      · exact of_eq rfl
    · exact of_eq rfl
  unfold Machine.checkRegion
  dsimp only
  split
  · split
    · exact ((marked s).trans (event (.rollbackCheckFault _ _ _) _ trivial)).trans (called _)
    · exact of_eq rfl
  · exact of_eq rfl

theorem rollbackCheck (s : State) : ∃ n, Records besideDecision n s (rollbackCheck s) := by
  have fold : ∀ (es : List (Nat × Region)) (u : State),
      ∃ n, Records besideDecision n u (es.foldl Machine.checkRegion u) := by
    intro es
    induction es with
    | nil => exact fun u => ⟨0, of_eq rfl⟩
    | cons e es ih =>
      intro u
      obtain ⟨n, hn⟩ := ih (Machine.checkRegion u e)
      exact ⟨2 + n, (checkRegion u e).trans hn⟩
  exact fold _ s

theorem afterDecision (o : VoteOutcome) (server : Option Link) (s : State) :
    Records besideDecision 2 s (afterDecision o server s) := by
  unfold Machine.afterDecision
  split
  · exact ((of_cmu (n := 0) (by simp [clearPrev])).trans (event (.pullStarted _ _) _ trivial)).mono (by decide)
  · exact testFull s trivial fun _ => trivial
  · exact of_eq rfl

theorem recordDecision (d : Decision) (s : State) : Records Machine.ofDecision 1 s (recordDecision d s) := by
  rw [recordDecision_eq]
  split
  · exact of_eq rfl
  · exact event (.decision d.outcome d.agreeing d.cycle) { s with vtu := { s.vtu with last := some d } }
      (.inr ⟨_, _, _, rfl⟩)

theorem decided (o : VoteOutcome) (own : VoteFrame) (frames : PerLink (Option VoteFrame)) (s : State) :
    Records Machine.ofDecision 3 s (decided o own frames s) := by
  have viewed : ∀ u, Records Machine.ofDecision 0 u (setViews own frames (reconsiderMarks u)) := fun u => of_eq rfl
  exact ((applyOutcome o own s).ofDecision.trans (viewed _)).trans (recordDecision _ _)

theorem completeDecision (o : VoteOutcome) (server : Option Link) (own : VoteFrame)
    (frames : PerLink (Option VoteFrame)) (s : State) :
    Records Machine.ofDecision 5 s (completeDecision o server own frames s) := by
  rw [completeDecision_eq]
  exact (decided o own frames s).trans (afterDecision o server _).ofDecision

theorem toDecide (o : VoteOutcome) (s : State) : Records besideDecision 1 s (toDecide o s) := by
  unfold Machine.toDecide
  split
  · exact (takeFrames s).mono (by decide)
  · exact (takeFrames s).trans (dropPermit _ _ trivial)

theorem toRollBack (m : VoteFrame) (s : State) : Records besideDecision 2 s (toRollBack m s) :=
  ((takeFrames s).trans (dropPermit (.outcome none) _ trivial)).trans
    (setChan (some .rollingBack)
      { Machine.dropPermit (.outcome none) (Machine.takeFrames s) with
        vtu := { (Machine.dropPermit (.outcome none) (Machine.takeFrames s)).vtu with deciding := some ⟨currents s, m⟩ } } trivial)

theorem takeDecision (s : State) : ∃ n, Records Machine.ofDecision n s (takeDecision s) := by
  refine takeDecision_cases (P := fun t => ∃ n, Records Machine.ofDecision n s t) s (fun _ => ⟨0, of_eq rfl⟩)
    (fun own o server _ _ => ⟨_, (toDecide o s).ofDecision.trans (completeDecision o server own _ _)⟩)
    (fun own m _ _ _ => ?undone) (fun own m _ _ _ => ⟨_, (toRollBack m s).ofDecision⟩)
  case undone =>
    obtain ⟨n, hn⟩ := rollbackCheck (Machine.toRollBack m s)
    rw [finishDecisionRollback_eq]
    exact ⟨_, ((toRollBack m s).trans hn).ofDecision.trans (completeDecision _ none _ _ (rolledBack _))⟩

theorem testDecision (s : State) : ∃ n, Records Machine.ofDecision n s (testDecision s) := by
  unfold Machine.testDecision
  split
  · exact takeDecision s
  · exact ⟨0, of_eq rfl⟩

theorem linkChanged (s : State) : ∃ n, Records Machine.ofDecision n s (linkChanged s) :=
  let ⟨_, h⟩ := testDecision s
  ⟨_, h.trans (testFull _ (.inl trivial) fun _ => .inl trivial)⟩

end Records

end Sys2Proof.Machine
end

section
/-! PROOFS. A change of a peer's link state: the frames that refresh its presence and the silence that ends it (R106, R110,
R118). -/

namespace Sys2Proof.Machine

open Sys2Proof

/-! ### Reception (R106, R110) -/

/-- At the latched position 3 a frame changes nothing (R106). -/
theorem listening_of_position (f : State → State) (s : State) (h : s.position = 3) : listening f s = s := if_pos h

/-- At the others it is handled. -/
theorem listening_of_ne (f : State → State) (s : State) (h : s.position ≠ 3) : listening f s = f s := if_neg h

/-- A frame that the part can receive is handled, and the step ends. -/
theorem receive_of_ready (l : Link) (f : SentFrame) (s : State) (hr : s.resetLow = false) (hp : s.position ≠ 3) :
    whenReady (receive l f) s = settle (receiveFrame l f s) :=
  (whenReady_of_ready _ s hr).trans (listening_of_ne _ s hp)

/-- At the latched position 3 it is not. -/
theorem whenReady_listening_of_position (f : State → State) (s : State) (h : s.position = 3) :
    whenReady (listening f) s = s := by
  unfold whenReady
  rw [listening_of_position f s h, ite_self]

/-! ### Presence (R118) -/

/-- A frame of a HEARD peer refreshes the time of its last frame. -/
theorem refresh_of_heard (l : Link) (s : State) (h : (s.lkc.peers.get l).heard = true) :
    refresh l s =
      { s with lkc.peers := s.lkc.peers.put l { s.lkc.peers.get l with lastFrame := some s.cmu.ms } } := by
  unfold refresh
  dsimp only
  rw [if_pos h, putPeer, ← h]

/-- A SILENT peer's makes it HEARD, and the change is acted on. -/
theorem refresh_of_silent (l : Link) (s : State) (h : (s.lkc.peers.get l).heard = false) :
    refresh l s = linkChanged (Claim.refreshed l s) := by
  unfold refresh Claim.refreshed
  dsimp only
  rw [if_neg (by simp [h]), if_neg (by simp [h])]
  rfl

theorem refreshed_of_heard (l : Link) (s : State) (h : (s.lkc.peers.get l).heard = true) :
    Claim.refreshed l s = refresh l s := by
  rw [refresh_of_heard l s h, Claim.refreshed, if_pos h, ← h]

/-- In CONFIGURING, and with another fingerprint, a frame other than a HELLO only refreshes presence (R110). -/
theorem receiveOther_of_discarded (l : Link) (fp : BitVec 16) (consumer : State → State) (s : State)
    (h : s.dev = .configuring ∨ fp ≠ s.rgt.fingerprint) : receiveOther l fp consumer s = refresh l s := by
  unfold receiveOther
  dsimp only
  refine if_neg fun ⟨hd, hf⟩ => ?_
  simp only [sentFingerprint, refresh_keeps] at hd hf
  rw [if_neg hd] at hf
  exact h.elim hd (absurd hf)

/-- Otherwise its consumer is handed it. -/
theorem receiveOther_of_taken (l : Link) (fp : BitVec 16) (consumer : State → State) (s : State)
    (hd : s.dev ≠ .configuring) (hf : fp = s.rgt.fingerprint) :
    receiveOther l fp consumer s = consumer (refresh l s) := by
  unfold receiveOther
  dsimp only
  refine if_pos ⟨by simpa using hd, ?_⟩
  simp [sentFingerprint, hd, hf]

/-- A peer that a frame has made HEARD is refreshed by it. -/
theorem refresh_presence (l : Link) (s : State) :
    ((refresh l s).lkc.peers.get l).heard = true ∧ ((refresh l s).lkc.peers.get l).lastFrame = some s.cmu.ms := by
  cases h : (s.lkc.peers.get l).heard with
  | true =>
    rw [refresh_of_heard l s h]
    simp [h]
  | false =>
    obtain ⟨v, hv⟩ := linkChanged_peers (Claim.refreshed l s) l
    rw [refresh_of_silent l s h, hv]
    simp [Claim.refreshed]

theorem refresh_refresh (l : Link) (s : State) : refresh l (refresh l s) = refresh l s :=
  refresh_heard l _ (refresh_presence l s).1 (by simpa using (refresh_presence l s).2)

theorem receiveOther_refresh (l : Link) (fp : BitVec 16) (consumer : State → State) (s : State) :
    receiveOther l fp consumer (refresh l s) = receiveOther l fp consumer s := by
  unfold receiveOther
  rw [refresh_refresh]

/-- The vote timer's expiry in VOTING takes the decision (R125). -/
theorem exec_voteTimerExpiry (s : State) (hr : s.resetLow = false) (hc : s.cju.chan = some .voting)
    (ht : s.vtu.timer.isSome = true) : exec .voteTimerExpiry s = .next (settle (takeDecision s)) :=
  congrArg Host.Outcome.next ((whenReady_of_ready _ s hr).trans (if_pos ⟨ht, hc⟩))

/-- What R110 and R118 do with a frame of any consumer before it is handed it. -/
theorem refreshes_of_consumer (c : Instr) (l : Link) (fp : BitVec 16) (consumer : State → State)
    (hc : ∀ s, s.resetLow = false → s.position ≠ 3 → exec c s = .next (settle (receiveOther l fp consumer s))) :
    Claim.refreshes c l fp := by
  intro s hr hp
  dsimp only
  refine ⟨fun hh hd => ⟨_, hc s hr hp, ?heard⟩, fun hh => ⟨refresh l s, ?again, (refresh_presence l s).1,
    (refresh_presence l s).2, by simpa using hr, by simp, by simp, by simp, ?quiet, ?due, ?decides⟩⟩
  case heard =>
    rw [receiveOther_of_discarded l fp consumer s hd, refreshed_of_heard l s hh]
    exact settle_end _
  case again =>
    rw [hc s hr hp, hc (refresh l s) (by simpa using hr) (by simpa using hp), receiveOther_refresh]
  case quiet =>
    intro hd hv
    rw [refresh_of_silent l s hh, linkChanged_of_quiet _ hd hv]
  case due =>
    intro hd
    have chan : (Claim.refreshed l s).cju.chan ≠ some .voting := by simp [hd.1]
    rw [refresh_of_silent l s hh, linkChanged_of_not_voting _ chan]
    exact testFull_starts _ hd
  case decides =>
    intro hv ht hall
    rw [refresh_of_silent l s hh, linkChanged_of_decision (Claim.refreshed l s) hv hall]
    exact ⟨_, exec_voteTimerExpiry _ hr hv ht, settle_end _⟩

/-! ### Silence (R118) -/

theorem exec_peerSilence_due (l : Link) (s : State) (hr : s.resetLow = false) (h : silenceDue l s = true) :
    exec (.peerSilenceExpiry l) s = .next (settle (silenceCheck l s)) :=
  congrArg Host.Outcome.next ((whenReady_of_ready _ s hr).trans (if_pos h))

theorem exec_peerSilence_not_due (l : Link) (s : State) (hr : s.resetLow = false) (h : silenceDue l s = false) :
    exec (.peerSilenceExpiry l) s = .next s :=
  congrArg Host.Outcome.next ((whenReady_of_ready _ s hr).trans (if_neg (by simp [h])))

/-- The part whose peer has become SILENT, before the change is acted on. -/
def silenced (l : Link) (s : State) : State :=
  recordEvent (silentEvent l s) { s with lkc.peers := s.lkc.peers.put l { s.lkc.peers.get l with heard := false } }

theorem silenceCheck_of_due (l : Link) (s : State) (h : silenceDue l s = true) :
    silenceCheck l s = linkChanged (silenced l s) := by
  unfold silenceCheck
  dsimp only
  rw [if_pos h]
  rfl

/-- Settles O43: a due silence is a change of link state, and an overtaken one has no effect. -/
theorem silentPeersAreRecorded : Obligations.SilentPeersAreRecorded := by
  intro l s hr
  refine ⟨fun hh => exec_peerSilence_not_due l s hr (by simp [silenceDue, hh]), fun n hn => ⟨fun early => ?_,
    fun hh late => ?_⟩⟩
  · refine exec_peerSilence_not_due l s hr (Bool.eq_false_iff.2 fun h => ?_)
    exact absurd ((silenceDue_iff l n s hn).1 h).2 (Nat.not_le.2 early)
  · have ran := exec_peerSilence_due l s hr ((silenceDue_iff l n s hn).2 ⟨hh, late⟩)
    rw [silenceCheck_of_due l s ((silenceDue_iff l n s hn).2 ⟨hh, late⟩)] at ran
    dsimp only
    refine ⟨⟨_, ran, ?view, by simp [silenced], by simp [silenced], ?ptu, by simp [silenced], fun room => ?event,
      fun quiet waits => ?quiet⟩, fun hv ht hall => ?decides⟩
    case view =>
      obtain ⟨v, hv⟩ := linkChanged_peers (silenced l s) l
      refine ⟨v, ?_⟩
      simp only [settle_keeps, hv]
      simp [silenced]
    case ptu =>
      simp only [settle_keeps]
      rw [linkChanged_ptu]
      rfl
    case event =>
      obtain ⟨r, hr, hb⟩ := exists_mem_events_recordEvent (silentEvent l s) s room
      obtain ⟨k, hk⟩ := Records.linkChanged (silenced l s)
      exact ⟨r, mem_events_settle _ r (by simp [hb, silentEvent, eventKind]) (hk.mem hr), hb⟩
    case quiet =>
      rw [linkChanged_of_quiet (silenced l s) quiet waits]
      exact settle_end (silenced l s)
    case decides =>
      rw [linkChanged_of_decision (silenced l s) hv hall] at ran
      exact ran.trans (exec_voteTimerExpiry (silenced l s) hr hv ht).symm

/-! ### Frames that fail (R108, R109) -/

/-- With the window of the moment a link error records nothing. -/
theorem linkErrorEvent_of_window (l : Link) (reason : LinkReason) (addr : Option Nat) (s : State)
    (h : (s.lkc.peers.get l).window = some (s.cmu.ms.toNat / 100)) : linkErrorEvent l reason addr s = s :=
  if_pos h

/-- In a new window it records its event. -/
theorem linkErrorEvent_of_new (l : Link) (reason : LinkReason) (addr : Option Nat) (s : State)
    (h : (s.lkc.peers.get l).window ≠ some (s.cmu.ms.toNat / 100)) :
    linkErrorEvent l reason addr s =
      { s with
        lkc.peers := s.lkc.peers.put l { s.lkc.peers.get l with window := some (s.cmu.ms.toNat / 100) }
        cmu := (recordEvent (.linkError (peerPosition s.position l) reason addr) s).cmu } :=
  (if_neg h).trans rfl

@[simp] theorem PerLink.put_put {α : Type} (p : PerLink α) (l : Link) (a b : α) : (p.put l a).put l b = p.put l b := by
  cases l <;> rfl

/-- The peer's record with one more link error. -/
def Peer.failed (p : Peer) : Peer := { p with errors := satInc Config.count16Max p.errors }

/-- A failed frame leaves the peer's record with the error counted and the window of the moment, and records once in it. -/
theorem badFrame_eq (l : Link) (reason : LinkReason) (s : State) :
    badFrame l reason s =
      { s with
        lkc.peers := s.lkc.peers.put l { (s.lkc.peers.get l).failed with window := some (s.cmu.ms.toNat / 100) }
        cmu :=
          if (s.lkc.peers.get l).window = some (s.cmu.ms.toNat / 100) then s.cmu
          else (recordEvent (.linkError (peerPosition s.position l) reason none) s).cmu } := by
  have counted : badFrame l reason s = linkErrorEvent l reason none (putPeer l (s.lkc.peers.get l).failed s) := rfl
  have window : ((putPeer l (s.lkc.peers.get l).failed s).lkc.peers.get l).window = (s.lkc.peers.get l).window := by
    simp [putPeer, Peer.failed]
  rw [counted]
  by_cases h : (s.lkc.peers.get l).window = some (s.cmu.ms.toNat / 100)
  · rw [linkErrorEvent_of_window _ _ _ _ (window.trans h), if_pos h]
    simp [putPeer, Peer.failed, h]
  · rw [linkErrorEvent_of_new _ _ _ _ (window ▸ h), if_neg h]
    simp [putPeer, recordEvent, voteCycle]

/-- Bytes that pass the checks are the frame they carry (R107). -/
theorem receiveBytes_of_valid (l : Link) (bytes : List Byte) (f : SentFrame) (s : State)
    (h : judgeFrame (peerPosition s.position l) bytes = .valid f) : receiveBytes l bytes s = receive l f s := by
  unfold receiveBytes
  rw [h]

theorem receiveBytes_of_failed (l : Link) (bytes : List Byte) (reason : LinkReason) (s : State)
    (h : judgeFrame (peerPosition s.position l) bytes = .failed reason) :
    receiveBytes l bytes s = listening (badFrame l reason) s := by
  unfold receiveBytes
  rw [h]

/-- At the latched position 3 no bytes are handled. -/
theorem receiveBytes_of_position (l : Link) (bytes : List Byte) (s : State) (h : s.position = 3) :
    receiveBytes l bytes s = s := by
  unfold receiveBytes
  split <;> exact listening_of_position _ s h

/-- A frame that its check does not cover is BAD_CHECK (R108). -/
theorem judgeFrame_of_badCheck (sender : Nat) (bytes : List Byte)
    (h : bytes.length < 2 ∨ bytes.drop (bytes.length - 2) ≠ halfBytes (crc16 (bytes.take (bytes.length - 2)))) :
    judgeFrame sender bytes = .failed .badCheck :=
  if_neg fun ⟨hl, hc⟩ => h.elim (Nat.not_lt.2 hl) (absurd hc)

theorem exec_invalidFrame (l : Link) (bytes : List Byte) (s : State) (hr : s.resetLow = false) :
    exec (.invalidFrame l bytes) s = .next (receiveBytes l bytes s) :=
  congrArg Host.Outcome.next (whenReady_of_ready _ s hr)

/-- Bytes that pass are handled as the command of their frame. -/
theorem exec_invalidFrame_of_valid (l : Link) (bytes : List Byte) (f : SentFrame) (c : Instr) (s : State)
    (hr : s.resetLow = false) (hj : judgeFrame (peerPosition s.position l) bytes = .valid f)
    (hc : exec c s = .next (whenReady (receive l f) s)) : exec (.invalidFrame l bytes) s = exec c s := by
  rw [exec_invalidFrame l bytes s hr, receiveBytes_of_valid l bytes f s hj, hc, whenReady_of_ready _ s hr]

/-- Settles O46: at position 3 nothing is heard, a failed frame counts and records once in its window, and bytes that pass are
the frame they carry. -/
theorem failedFramesAreCounted : Obligations.FailedFramesAreCounted := by
  constructor
  · intro l s h
    have deaf : ∀ f : SentFrame, whenReady (receive l f) s = s := fun f =>
      whenReady_listening_of_position (fun s => settle (receiveFrame l f s)) s h
    refine ⟨fun bytes => congrArg Host.Outcome.next ?_, fun fp f => congrArg Host.Outcome.next (deaf ⟨fp, .hello f⟩),
      fun fp f => congrArg Host.Outcome.next (deaf ⟨fp, .vote f⟩), fun fp f => congrArg Host.Outcome.next (deaf ⟨fp, .pull f⟩),
      fun fp f => congrArg Host.Outcome.next (deaf ⟨fp, .block f⟩),
      fun fp n => congrArg Host.Outcome.next (deaf ⟨fp, .credit n⟩),
      fun fp f => congrArg Host.Outcome.next (deaf ⟨fp, .pullEnd f⟩)⟩
    unfold whenReady
    rw [receiveBytes_of_position l bytes s h, ite_self]
  · intro l bytes s hr hp
    refine ⟨fun reason hj => ⟨badFrame l reason s, ?ran, ?frame, ?peers, fun hw => ?same, fun hw room => ?recorded⟩,
      fun h => judgeFrame_of_badCheck _ bytes h, fun fp f hj => exec_invalidFrame_of_valid l bytes _ _ s hr hj rfl,
      fun fp f hj => exec_invalidFrame_of_valid l bytes _ _ s hr hj rfl,
      fun fp f hj => exec_invalidFrame_of_valid l bytes _ _ s hr hj rfl,
      fun fp f hj => exec_invalidFrame_of_valid l bytes _ _ s hr hj rfl,
      fun fp f hj => exec_invalidFrame_of_valid l bytes _ _ s hr hj rfl,
      fun fp f hj => exec_invalidFrame_of_valid l bytes _ _ s hr hj rfl⟩
    case ran => rw [exec_invalidFrame l bytes s hr, receiveBytes_of_failed l bytes reason s hj, listening_of_ne _ s hp]
    case frame => rw [badFrame_eq]
    case peers =>
      rw [badFrame_eq]
      rfl
    case same => rw [badFrame_eq, if_pos hw]
    case recorded =>
      rw [badFrame_eq, if_neg hw]
      exact (recordEvent_of_room _ s room).1

end Sys2Proof.Machine
end

section
/-! PROOFS. The frames of a pull and of a service as they arrive: BLOCK, VOTE and CREDIT (R122, R145, R153). -/

namespace Sys2Proof.Machine

open Sys2Proof

/-- The part after a frame of a HEARD peer has refreshed the time of its last frame. -/
def seen (l : Link) (s : State) : State :=
  { s with lkc.peers := s.lkc.peers.put l { s.lkc.peers.get l with lastFrame := some s.cmu.ms } }

/-- A frame of a HEARD peer that reaches its consumer. -/
theorem receiveOther_of_hears (l : Link) (fp : BitVec 16) (consumer : State → State) (s : State)
    (h : Claim.hears fp s) (hh : (s.lkc.peers.get l).heard = true) :
    receiveOther l fp consumer s = consumer (seen l s) := by
  obtain ⟨-, -, hd, hf⟩ := h
  rw [receiveOther_of_taken l fp consumer s hd hf, refresh_of_heard l s hh]
  rfl

/-- Its command hands it to its consumer, and the step ends. -/
theorem exec_of_hears (c : Instr) (l : Link) (fp : BitVec 16) (f : SentFrame) (consumer : State → State) (s : State)
    (hc : exec c s = .next (whenReady (receive l f) s)) (hf : receiveFrame l f s = receiveOther l fp consumer s)
    (h : Claim.hears fp s) (hh : (s.lkc.peers.get l).heard = true) :
    exec c s = .next (settle (consumer (seen l s))) := by
  rw [hc, receive_of_ready l f s h.1 h.2.1, hf, receiveOther_of_hears l fp consumer s h hh]

/-! ### BLOCK (R145) -/

theorem exec_blockReceived (l : Link) (fp : BitVec 16) (f : BlockFrame) (s : State) (h : Claim.hears fp s)
    (hh : (s.lkc.peers.get l).heard = true) :
    exec (.blockReceived l fp f) s = .next (settle (takeBlock l f (seen l s))) :=
  exec_of_hears _ l fp ⟨fp, .block f⟩ (takeBlock l f) s rfl rfl h hh

theorem partOfPull_iff (f : BlockFrame) (s : State) : partOfPull s f = true ↔
    s.rse.pull.kind = some .delta ∧ vitalBlock s f.block.toNat = true ∧ f.tag = s.rse.pull.target ∨
    s.rse.pull.kind = some .full ∧ ∃ e, regionOf s f.block.toNat = some e ∧ e.2.desc.signed = true ∧
      s.rse.pull.regionSet.getLsbD e.2.desc.slot = true := by
  unfold partOfPull
  split
  case h_1 hk => simp [hk]
  case h_2 hk => cases hr : regionOf s f.block.toNat <;> simp [hk]
  case h_3 hk => simp [hk]

/-- The lowest free buffer (R145). -/
theorem freeBuffer_eq_some_iff (bs : List Buffer) (k : Nat) : freeBuffer bs = some k ↔
    k < 8 ∧ (∀ b ∈ bs, b.slot ≠ k) ∧ ∀ j, j < k → ∃ b ∈ bs, b.slot = j := by
  unfold freeBuffer
  rw [List.find?_range_eq_some]
  simp [Config.creditMax, and_comm, and_assoc]

theorem freeBuffer_eq_none_iff (bs : List Buffer) : freeBuffer bs = none ↔ ∀ k, k < 8 → ∃ b ∈ bs, b.slot = k := by
  unfold freeBuffer
  rw [List.find?_range_eq_none]
  simp [Config.creditMax]

/-- The part after a BLOCK of the pull's server has restarted the pull silence timer (R147). -/
def silenceRestarted (s : State) : State := { s with rse.pull.timer := some s.times.pullSilence }

theorem takeBlock_of_other (l : Link) (f : BlockFrame) (s : State)
    (h : ¬(s.rse.pull.phase = .receiving ∧ s.rse.pull.server = some l)) : takeBlock l f s = s :=
  if_neg h

/-- A BLOCK of the pull fills the free buffer. -/
theorem takeBlock_of_free (l : Link) (f : BlockFrame) (k : Nat) (s : State) (hp : s.rse.pull.phase = .receiving)
    (hs : s.rse.pull.server = some l) (hf : partOfPull s f = true) (hk : freeBuffer s.rse.pull.buffers = some k) :
    takeBlock l f s =
      { s with
        rse.pull := { s.rse.pull with
          buffers := s.rse.pull.buffers ++ [⟨k, f.block.toNat, f.words⟩]
          received := satInc Config.count32Max s.rse.pull.received
          timer := some s.times.pullSilence } } := by
  have part : partOfPull (silenceRestarted s) f = true := hf
  unfold takeBlock
  rw [if_pos ⟨hp, hs⟩]
  dsimp only
  rw [← silenceRestarted, if_pos part, hk]

/-- Another BLOCK of the pull's server is a link error. -/
theorem takeBlock_of_discarded (l : Link) (f : BlockFrame) (reason : LinkReason) (s : State)
    (hp : s.rse.pull.phase = .receiving) (hs : s.rse.pull.server = some l)
    (h : partOfPull s f = false ∧ reason = .unexpectedBlock ∨
      partOfPull s f = true ∧ freeBuffer s.rse.pull.buffers = none ∧ reason = .noBuffer) :
    takeBlock l f s = linkErrorEvent l reason (some (64 * f.block.toNat)) (silenceRestarted s) := by
  unfold takeBlock
  rw [if_pos ⟨hp, hs⟩]
  dsimp only
  rw [← silenceRestarted]
  rcases h with ⟨hf, rfl⟩ | ⟨hf, hk, rfl⟩
  · have part : partOfPull (silenceRestarted s) f = false := hf
    rw [part]
    rfl
  · have part : partOfPull (silenceRestarted s) f = true := hf
    rw [if_pos part, hk]

/-- Settles O50: a BLOCK of the pull fills the lowest free buffer, and any other is discarded. -/
theorem blocksFillBuffers : Obligations.BlocksFillBuffers := by
  refine ⟨fun l fp f => refreshes_of_consumer _ l fp (takeBlock l f) fun s hr hp => ?handed, partOfPull_iff,
    fun l fp f s h hh hn => ⟨_, exec_blockReceived l fp f s h hh, ?other⟩,
    fun l fp f s h hh hp hs => ⟨_, exec_blockReceived l fp f s h hh, fun k hf hk hfree hbelow => ?fills,
      fun reason hw => ⟨?timer, fun hwin room => ?event⟩⟩⟩
  case handed => exact congrArg Host.Outcome.next (receive_of_ready l ⟨fp, .block f⟩ s hr hp)
  case other =>
    rw [takeBlock_of_other l f (seen l s) hn]
    exact settle_end _
  case fills =>
    rw [takeBlock_of_free l f k (seen l s) hp hs hf ((freeBuffer_eq_some_iff _ k).2 ⟨hk, hfree, hbelow⟩)]
    exact settle_end _
  all_goals
    have discarded := takeBlock_of_discarded l f reason (seen l s) hp hs
      (hw.imp id fun ⟨hf, hfull, he⟩ => ⟨hf, (freeBuffer_eq_none_iff _).2 hfull, he⟩)
    rw [discarded]
  case timer =>
    simp only [settle_keeps, linkErrorEvent_keeps]
    rfl
  case event =>
    rw [linkErrorEvent_of_new _ _ _ _ (by simpa [silenceRestarted, seen] using hwin)]
    obtain ⟨r, hr, hb⟩ := exists_mem_events_recordEvent
      (.linkError (peerPosition s.position l) reason (some (64 * f.block.toNat))) (silenceRestarted (seen l s)) room
    exact ⟨r, mem_events_settle _ r (by simp [hb, eventKind]) hr, hb⟩

/-! ### VOTE (R122, R123) -/

/-- The part after a VOTE has been put in its place, before the condition of R125 is tested. -/
def placed (l : Link) (f : VoteFrame) (s : State) : State :=
  { s with
    lkc.peers := s.lkc.peers.put l { s.lkc.peers.get l with lastFrame := some s.cmu.ms }
    vtu.table :=
      if s.cju.chan = none ∨ s.cju.chan = some .catchup ∨ s.cju.chan = some .excluded ∨ s.cju.chan = some .restoring then
        s.vtu.table.put l ((s.vtu.table.get l ++ [f]).drop ((s.vtu.table.get l).length + 1 - 2))
      else if f.cycle = s.cju.cycle + 1 ∨ f.cycle = s.cju.cycle + 2 then
        s.vtu.table.put l ((s.vtu.table.get l).filter (fun g => g.cycle != f.cycle) ++ [f])
      else s.vtu.table
    cmu :=
      if (s.cju.chan = some .ready ∨ s.cju.chan = some .opened ∨ s.cju.chan = some .closing ∨
            s.cju.chan = some .voting ∨ s.cju.chan = some .rollingBack) ∧
          2 ^ 31 ≤ (f.cycle - (s.cju.cycle + 1)).toNat ∧ (s.lkc.peers.get l).view = .member then
        (recordEvent (.late (peerPosition s.position l) f.cycle) s).cmu
      else s.cmu }

/-- The channel keeps the most recent frames exactly outside the states in which it can vote. -/
theorem keepsRecent_iff (s : State) : keepsRecent s = true ↔
    s.cju.chan = none ∨ s.cju.chan = some .catchup ∨ s.cju.chan = some .excluded ∨ s.cju.chan = some .restoring := by
  unfold keepsRecent
  split <;> simp_all

theorem canVote_iff (s : State) : keepsRecent s = false ↔
    s.cju.chan = some .ready ∨ s.cju.chan = some .opened ∨ s.cju.chan = some .closing ∨ s.cju.chan = some .voting ∨
      s.cju.chan = some .rollingBack := by
  unfold keepsRecent
  rcases s.cju.chan with _ | c
  · simp
  · cases c <;> simp

/-- The place of a frame's cycle (R122). -/
theorem distance_eq_zero_iff (s : State) (f : VoteFrame) : distance s f = 0 ↔ f.cycle = s.cju.cycle + 1 := by
  unfold distance voteCycle
  bv_omega

theorem distance_eq_one_iff (s : State) (f : VoteFrame) : distance s f = 1 ↔ f.cycle = s.cju.cycle + 2 := by
  unfold distance voteCycle
  bv_omega

theorem placed_of_recent (l : Link) (f : VoteFrame) (s : State) (h : keepsRecent s = true) :
    placed l f s = putTable l (keepRecent f (s.vtu.table.get l)) (seen l s) := by
  have votes : ¬(s.cju.chan = some .ready ∨ s.cju.chan = some .opened ∨ s.cju.chan = some .closing ∨
      s.cju.chan = some .voting ∨ s.cju.chan = some .rollingBack) := fun hv => by
    rw [(canVote_iff s).2 hv] at h
    cases h
  unfold placed
  rw [if_pos ((keepsRecent_iff s).1 h), if_neg fun hv => votes hv.1]
  simp [putTable, seen, keepRecent]

/-- A frame for v or v + 1 takes the slot of its cycle. -/
theorem placed_of_slot (l : Link) (f : VoteFrame) (s : State) (h : keepsRecent s = false)
    (hc : f.cycle = s.cju.cycle + 1 ∨ f.cycle = s.cju.cycle + 2) :
    placed l f s = putTable l (placeFrame f (s.vtu.table.get l)) (seen l s) := by
  have near : ¬2 ^ 31 ≤ (f.cycle - (s.cju.cycle + 1)).toNat := by
    rcases hc with hc | hc <;> rw [hc] <;> bv_omega
  unfold placed
  rw [if_neg (by simp [← keepsRecent_iff, h]), if_pos hc, if_neg fun hv => near hv.2.1]
  rfl

/-- A frame of another cycle is discarded, LATE where it is older and its peer was a member. -/
theorem placed_of_other (l : Link) (f : VoteFrame) (s : State) (h : keepsRecent s = false)
    (hc : ¬(f.cycle = s.cju.cycle + 1 ∨ f.cycle = s.cju.cycle + 2)) :
    placed l f s =
      if 2 ^ 31 ≤ (distance s f).toNat ∧ (s.lkc.peers.get l).view = .member then
        recordEvent (.late (peerPosition s.position l) f.cycle) (seen l s)
      else seen l s := by
  have votes := (canVote_iff s).1 h
  unfold placed
  rw [if_neg (by simp [← keepsRecent_iff, h]), if_neg hc]
  split
  case isTrue hl => exact (if_pos ⟨hl.2.1, hl.2.2⟩).symm
  case isFalse hl => exact (if_neg fun ho => hl ⟨votes, ho⟩).symm

/-- A VOTE is placed, and one for v in VOTING has the condition of R125 tested. -/
theorem takeVote_seen (l : Link) (f : VoteFrame) (s : State) :
    takeVote l f (seen l s) =
      if s.cju.chan = some .voting ∧ f.cycle = s.cju.cycle + 1 then testDecision (placed l f s) else placed l f s := by
  cases hk : keepsRecent s with
  | true =>
    have votes : ¬(s.cju.chan = some .voting ∧ f.cycle = s.cju.cycle + 1) := fun ⟨hv, _⟩ => by
      rw [(canVote_iff s).2 (by simp [hv])] at hk
      cases hk
    rw [if_neg votes, placed_of_recent l f s hk]
    exact if_pos hk
  | false =>
    have recent : keepsRecent (seen l s) = keepsRecent s := rfl
    have handed : takeVote l f (seen l s) = placeVote l f (seen l s) := if_neg (by simp [recent, hk])
    have zero := distance_eq_zero_iff (seen l s) f
    have one := distance_eq_one_iff (seen l s) f
    rw [handed, placeVote]
    by_cases h0 : f.cycle = s.cju.cycle + 1
    · have waits : s.cju.chan ≠ some .voting → testDecision (placed l f s) = placed l f s := fun hv =>
        testDecision_of_waits _ fun h => absurd h hv
      rw [if_pos (zero.2 h0)]
      by_cases hv : s.cju.chan = some .voting
      · rw [if_pos ⟨hv, h0⟩, placed_of_slot l f s hk (.inl h0)]
        rfl
      · rw [if_neg fun h => hv h.1, ← waits hv, placed_of_slot l f s hk (.inl h0)]
        rfl
    · rw [if_neg (mt zero.1 h0), if_neg fun h : s.cju.chan = some .voting ∧ f.cycle = s.cju.cycle + 1 => h0 h.2]
      by_cases h1 : f.cycle = s.cju.cycle + 2
      · rw [if_pos (one.2 h1), placed_of_slot l f s hk (.inr h1)]
        rfl
      · rw [if_neg (mt one.1 h1), placed_of_other l f s hk fun h => h.elim h0 h1]
        have view : ((seen l s).lkc.peers.get l).view = (s.lkc.peers.get l).view := by simp [seen]
        have far : distance (seen l s) f = distance s f := rfl
        rw [view, far]
        split
        case isTrue hlt => rw [if_neg fun h => absurd h.1 (Nat.not_le.2 hlt)]
        case isFalse hge =>
          split
          case isTrue hm => rw [if_pos ⟨Nat.not_lt.1 hge, hm⟩]; rfl
          case isFalse hm => rw [if_neg fun h => hm h.2]

theorem exec_voteReceived (l : Link) (fp : BitVec 16) (f : VoteFrame) (s : State) (h : Claim.hears fp s)
    (hh : (s.lkc.peers.get l).heard = true) :
    exec (.voteReceived l fp f) s = .next (settle (takeVote l f (seen l s))) :=
  exec_of_hears _ l fp ⟨fp, .vote f⟩ (takeVote l f) s rfl rfl h hh

/-- Settles O48: a VOTE is placed by its cycle, and the last one awaited brings the decision. -/
theorem voteFramesArePlaced : Obligations.VoteFramesArePlaced := by
  refine ⟨fun l fp f => refreshes_of_consumer _ l fp (takeVote l f) fun s hr hp => ?handed, fun l fp f s h hh =>
    ⟨fun waits => ⟨_, exec_voteReceived l fp f s h hh, ?placed⟩, fun hv ht hc hall => ?decides⟩⟩
  case handed => exact congrArg Host.Outcome.next (receive_of_ready l ⟨fp, .vote f⟩ s hr hp)
  case placed =>
    have stays : takeVote l f (seen l s) = placed l f s := by
      rw [takeVote_seen]
      split
      case isTrue hv => exact testDecision_of_waits _ fun _ => waits hv.1 hv.2
      case isFalse => rfl
    rw [stays]
    exact settle_end _
  case decides =>
    rw [exec_voteReceived l fp f s h hh, takeVote_seen, if_pos ⟨hv, hc⟩, testDecision_of_decides (placed l f s) hv hall]
    exact (exec_voteTimerExpiry (placed l f s) h.1 hv ht).symm

/-! ### The end of a transmission (R116) -/

theorem exec_frameTransmitEnd (l : Link) (s : State) (hr : s.resetLow = false) :
    exec (.frameTransmitEnd l) s = .next (transmitEnd l s) :=
  congrArg Host.Outcome.next (whenReady_of_ready _ s hr)

/-- 64 transfers of a port that is not held any more: each is refused at the end of the next step, with its event. -/
def refusedTransfers : List Held :=
  (List.range 64).map fun k => ⟨⟨if k % 2 = 0 then .data else .dma, false, 0, 15, 0⟩, .port⟩

/-- A part whose last BLOCK is sent while so many held transfers wait for their refusal. -/
def crowded : State :=
  { State.reset with
    ppt.held := refusedTransfers
    lkc.tx := ⟨⟨[], [], some ⟨0, .credit 1⟩, false⟩, Transmitter.initial⟩
    rse.service := ⟨.finishing, some .one, some .delta, 0, [], 0, none, 0, 0, none, [], false⟩ }

/-- The refusals take the whole queue before the service ends, and its SERVICE_ENDED is dropped (R178). -/
theorem crowded_events : (transmitEnd .one crowded).cmu.events.all (fun v => eventKind v.body == 1) = true := by
  decide +kernel

theorem crowded_phase : (transmitEnd .one crowded).rse.service.phase = .idle := by decide +kernel

/-- Refutes O52: the held transfers of a part are not bounded, and those released in the step that ends the service can fill
the event queue first. -/
theorem not_transmissionGoesOn : ¬Obligations.TransmissionGoesOn := by
  rintro ⟨-, goesOn⟩
  obtain ⟨t, ht, -, -, ended⟩ := goesOn .one ⟨0, .credit 1⟩ crowded rfl (by decide) rfl
  have ran : t = transmitEnd .one crowded := Host.Outcome.next.inj (ht.symm.trans (exec_frameTransmitEnd .one crowded rfl))
  rw [ran] at ended
  obtain ⟨r, -, -, -, recorded, -⟩ := ended rfl crowded_phase
  obtain ⟨v, hv, hb⟩ := recorded (by decide)
  have refusal := List.all_eq_true.1 crowded_events v hv
  rw [hb] at refusal
  cases refusal

end Sys2Proof.Machine
end

section
/-! PROOFS. The transmit queues up to the end of a step (R115, R116), and what the end of a service leaves (R157). -/

namespace Sys2Proof.Machine

open Sys2Proof

/-! ### What goes on waiting -/

/-- From `s` to `t` the waiting control frames of a kind stay in their queues, and so do the waiting BLOCK frames. -/
def Waits (k : Nat) (s t : State) : Prop :=
  t.position = s.position ∧ ∀ l, (t.lkc.tx.get l).blocks = (s.lkc.tx.get l).blocks ∧
    ∀ c ∈ (s.lkc.tx.get l).ctrl, ctrlKind c = k → c ∈ (t.lkc.tx.get l).ctrl

namespace Waits

variable {k : Nat} {s t u : State}

theorem of_tx (hp : t.position = s.position) (h : t.lkc.tx = s.lkc.tx) : Waits k s t :=
  ⟨hp, fun l => by rw [h]; exact ⟨rfl, fun c hc _ => hc⟩⟩

theorem trans (h : Waits k s t) (h' : Waits k t u) : Waits k s u :=
  ⟨h'.1.trans h.1, fun l => ⟨(h'.2 l).1.trans (h.2 l).1, fun c hc hk => (h'.2 l).2 c ((h.2 l).2 c hc hk) hk⟩⟩

theorem sendCtrl (f : CtrlFrame) (m : Link) (s : State) (hf : ctrlKind f ≠ k) : Waits k s (sendCtrl f m s) := by
  by_cases hp : s.position = 3
  · exact of_tx (by simp) (by rw [Machine.sendCtrl, if_pos hp])
  · refine ⟨by simp, fun l => ?_⟩
    rw [sendCtrl_tx f m s hp, PerLink.get_put]
    split
    case isTrue h =>
      subst h
      exact ⟨rfl, fun c hc hk => mem_queueCtrl_of_ne f c _ (hk ▸ hf.symm) hc⟩
    case isFalse => exact ⟨rfl, fun c hc _ => hc⟩

theorem sendBoth (f : CtrlFrame) (s : State) (hf : ctrlKind f ≠ k) : Waits k s (sendBoth f s) :=
  (sendCtrl f .one s hf).trans (sendCtrl f .two _ hf)

theorem helloTrigger (s : State) (hk : k ≠ 1) : Waits k s (helloTrigger s) := sendBoth .hello s hk.symm

theorem recordEvent (b : EventBody) (s : State) : Waits k s (recordEvent b s) := of_tx rfl rfl

theorem dropPermit (c : PermitCause) (s : State) : Waits k s (dropPermit c s) := of_tx (by simp) (by simp)

theorem setChan (c : Option ChannelState) (s : State) (hk : k ≠ 1) : Waits k s (setChan c s) := by
  unfold Machine.setChan
  split
  · exact of_tx rfl rfl
  · dsimp only
    have sent : Waits k s (Machine.helloTrigger { s with cju.chan := c }) :=
      (of_tx (t := { s with cju.chan := c }) rfl rfl).trans (helloTrigger _ hk)
    split
    · exact sent
    · exact sent.trans (dropPermit _ _)

theorem setAgreed (b : Bool) (s : State) (hk : k ≠ 1) : Waits k s (setAgreed b s) := by
  unfold Machine.setAgreed
  split
  · exact of_tx rfl rfl
  · exact (of_tx (t := { s with vtu.agreedBase := b }) rfl rfl).trans (helloTrigger _ hk)

theorem enterReady (s : State) (hk : k ≠ 1) : Waits k s (enterReady s) :=
  (of_tx (t := emptyJournal s) rfl rfl).trans (setChan _ _ hk)

theorem beginPull (kind : PullKind) (server : Link) (f : PullFrame) (s : State) (hk : k ≠ 3) :
    Waits k s (beginPull kind server f s) := by
  unfold Machine.beginPull
  dsimp only
  refine .trans (.trans (of_tx ?_ ?_) (sendCtrl (.pull f) server _ hk.symm)) (recordEvent _ _) <;> rfl

theorem startFull (l : Link) (s : State) (h1 : k ≠ 1) (h3 : k ≠ 3) : Waits k s (startFull l s) := by
  rw [startFull_eq]
  exact ((of_tx (t := clearPrev s) rfl rfl).trans (setChan _ _ h1)).trans (beginPull _ _ _ _ h3)

theorem testFull (s : State) (h1 : k ≠ 1) (h3 : k ≠ 3) : Waits k s (testFull s) := by
  by_cases h : Claim.pullDue s
  · obtain ⟨l, -, -, he⟩ := testFull_of_due s h
    rw [he]
    exact startFull l s h1 h3
  · rw [testFull_of_not_due s h]
    exact of_tx rfl rfl

/-- A frame of that kind that a later one of its kind has not replaced waits on. -/
theorem ctrl (h : Waits k s t) {l : Link} {c : CtrlFrame} (hc : c ∈ (s.lkc.tx.get l).ctrl) (hk : ctrlKind c = k) :
    c ∈ (t.lkc.tx.get l).ctrl :=
  (h.2 l).2 c hc hk

theorem blocks (h : Waits k s t) (l : Link) : (t.lkc.tx.get l).blocks = (s.lkc.tx.get l).blocks := (h.2 l).1

end Waits

/-- A frame that is sent waits, unless it is a CREDIT that has been added to a waiting one. -/
theorem mem_sendCtrl (f : CtrlFrame) (l : Link) (s : State) (hp : s.position ≠ 3) (hf : ∀ n, f ≠ .credit n) :
    f ∈ ((sendCtrl f l s).lkc.tx.get l).ctrl := by
  rw [sendCtrl_tx f l s hp, PerLink.get_put, if_pos rfl]
  exact mem_queueCtrl_self f _ hf

theorem mem_sendBoth (f : CtrlFrame) (s : State) (hp : s.position ≠ 3) (hf : ∀ n, f ≠ .credit n) (l : Link) :
    f ∈ ((sendBoth f s).lkc.tx.get l).ctrl := by
  rw [sendBoth_tx f s hp l]
  exact mem_queueCtrl_self f _ hf

/-! ### The end of a step -/

theorem releaseHeld_lkc (s : State) : (releaseHeld s).lkc = s.lkc := by simp

/-- The body of a waiting frame that is no HELLO is that of the frame it becomes. -/
theorem ctrlBody_of_ne_hello (s u : State) (c : CtrlFrame) (h : ctrlKind c ≠ 1) : ctrlBody u c = ctrlBody s c := by
  cases c with
  | hello => exact absurd rfl h
  | vote | pull | credit | pullEnd => rfl

/-- With no active service the service's part of a step's end only stops the credit silence timer. -/
theorem settle_of_idle (s : State) (h : s.rse.service.phase = .idle) :
    settle s = kick { releaseHeld s with rse.service := { s.rse.service with timer := none } } := by
  have service : (releaseHeld s).rse.service = s.rse.service := by simp
  rw [settle, serviceTick_idle (releaseHeld s) (by simp [serving, h])]
  rw [← service]

/-- The service goes on without changing a waiting frame that is neither a HELLO nor a PULL_END. -/
theorem ctrl_serviceTick (s : State) (l : Link) (c : CtrlFrame) (hc : c ∈ (s.lkc.tx.get l).ctrl) (h1 : ctrlKind c ≠ 1)
    (h6 : ctrlKind c ≠ 6) : c ∈ ((serviceTick s).lkc.tx.get l).ctrl := by
  have ended : ∀ result es (u : State), c ∈ (u.lkc.tx.get l).ctrl →
      c ∈ ((endService result es u).lkc.tx.get l).ctrl := by
    intro result es u hu
    unfold endService
    split
    · dsimp only
      split
      · rename_i m _ _
        have sent := (Waits.sendCtrl (.pullEnd ⟨result, u.cju.cycle, BitVec.ofNat 32 u.rse.service.sent, es⟩) m u
          (Ne.symm h6)).ctrl hu rfl
        refine (Waits.trans (Waits.helloTrigger _ h1) (Waits.recordEvent _ _)).ctrl ?_ rfl
        simp only [modifyTx, PerLink.get_put]
        split
        case isTrue h => subst h; exact sent
        case isFalse => exact sent
      · exact hu
    · exact hu
  unfold serviceTick finishService
  have before : (nothingLeft (marksReturn (walkEnds s))).lkc = s.lkc := by simp
  have after : ∀ u, (creditTimer u).lkc = u.lkc := fun u => by simp
  rw [after]
  split
  · split
    · exact ended _ _ _ (by rwa [before])
    · rwa [before]
  · rwa [before]

/-- A frame that waits when a step ends is queued for its peer, unless the end of the service replaces it. -/
theorem queued_settle (l : Link) (c : CtrlFrame) (s u : State) (hc : c ∈ (u.lkc.tx.get l).ctrl) (h1 : ctrlKind c ≠ 1)
    (h6 : ctrlKind c ≠ 6 ∨ u.rse.service.phase = .idle) : Claim.queued l (ctrlBody s c) s (settle u) := by
  rcases h6 with h6 | idle
  · refine queued_kick l c s _ (ctrl_serviceTick _ l c ?_ h1 h6) (ctrlBody_of_ne_hello _ _ c h1)
    rwa [releaseHeld_lkc]
  · rw [settle_of_idle u idle]
    refine queued_kick l c s _ ?_ (ctrlBody_of_ne_hello _ _ c h1)
    simpa using hc

theorem blocks_beginFrame_nil (s : State) (x : Transmitter) (h : x.blocks = []) : (beginFrame s x).blocks = [] := by
  unfold beginFrame
  split
  · exact h
  · split
    · exact h
    · rename_i hb
      rw [h] at hb
      cases hb
    · exact h

/-- With no active service no BLOCK comes to wait at the end of a step. -/
theorem blocks_settle_nil (l : Link) (u : State) (idle : u.rse.service.phase = .idle)
    (h : (u.lkc.tx.get l).blocks = []) : ((settle u).lkc.tx.get l).blocks = [] := by
  rw [settle_of_idle u idle]
  by_cases hp : u.position = 3
  · rw [kick_of_position _ (by simpa using hp)]
    simpa using h
  · rw [kick_tx _ (by simpa using hp)]
    exact blocks_beginFrame_nil _ _ (by simpa using h)

theorem service_settle_idle (u : State) (idle : u.rse.service.phase = .idle) :
    (settle u).rse.service = { u.rse.service with timer := none } := by
  rw [settle_of_idle u idle, kick_eq]

/-! ### The end of a service (R157) -/

/-- The PULL_END with which a service ends. -/
def endFrame (result : PullResult) (es : Option (List SigEntry)) (s : State) : PullEndFrame :=
  ⟨result, s.cju.cycle, BitVec.ofNat 32 s.rse.service.sent, es⟩

/-- The end of a service queues its PULL_END and withdraws its BLOCK frames. -/
theorem endService_tx (result : PullResult) (es : Option (List SigEntry)) (l : Link) (s : State) (hs : serving s = true)
    (hl : s.rse.service.requester = some l) :
    ((endService result es s).lkc.tx.get l).blocks = [] ∧
      (s.position ≠ 3 → .pullEnd (endFrame result es s) ∈ ((endService result es s).lkc.tx.get l).ctrl) := by
  have withdrawn : ∀ u : State, Waits 6 u (recordEvent (.serviceEnded (peerPosition s.position l) result) (helloTrigger u)) :=
    fun u => (Waits.helloTrigger u (by decide)).trans (Waits.recordEvent _ _)
  unfold endService
  simp only [hl, hs, if_true]
  refine ⟨((withdrawn _).blocks l).trans (by simp [modifyTx]), fun hp => (withdrawn _).ctrl ?_ rfl⟩
  simpa [modifyTx, endFrame] using mem_sendCtrl (.pullEnd (endFrame result es s)) l s hp (by simp)

/-- The active service of `v` ends, and the step goes on to `w` without a PULL_END or a service: what the end of the step then
leaves of the service. -/
theorem serviceEnds_settle (room n m : Nat) (a b : EventBody → Prop) (result : PullResult) (tag : BitVec 32) (s v w : State)
    (hs : serving s = true) (service : v.rse.service = s.rse.service) (position : v.position = s.position)
    (cycle : v.cju.cycle = tag) (before : Records a n s v) (hroom : n + 1 ≤ room)
    (after : Records b m (endService result none v) w) (waits : Waits 6 (endService result none v) w)
    (ended : ∀ l, s.rse.service.requester = some l → w.rse.service = s.rse.service.ended)
    (marks : ∀ l, s.rse.service.requester = some l → w.cju.resend = []) :
    Claim.serviceEnds room result tag s (settle w) := by
  intro l hl
  have hv : serving v = true := by simpa [serving, service] using hs
  have hlv : v.rse.service.requester = some l := by rw [service, hl]
  have idle : w.rse.service.phase = .idle := by rw [ended l hl]; rfl
  obtain ⟨noBlocks, queued⟩ := endService_tx result none l v hv hlv
  refine ⟨?_, by rw [settle_resend]; exact marks l hl, blocks_settle_nil l w idle ?_, fun hp => ?_, fun fits => ?_⟩
  · rw [service_settle_idle w idle, ended l hl]
    rfl
  · rw [waits.blocks, noBlocks]
  · have frame : endFrame result none v = ⟨result, tag, BitVec.ofNat 32 s.rse.service.sent, none⟩ := by
      rw [endFrame, cycle, service]
    have waiting := waits.ctrl (queued (by rwa [position])) rfl
    rw [frame] at waiting
    exact queued_settle l _ s w waiting (by simp [ctrlKind]) (.inr idle)
  · have free : v.cmu.events.length < 64 := by
      have := before.length_le
      omega
    obtain ⟨r, hr, hb⟩ := exists_mem_events_recordEvent (.serviceEnded (peerPosition v.position l) result) v free
    have recorded : r ∈ (endService result none v).cmu.events := by
      rw [endService_of_serving result none l v hv hlv]
      exact hr
    refine ⟨r, mem_events_settle w r (by simp [hb, eventKind]) (after.mem recorded), ?_⟩
    rw [hb, position]

end Sys2Proof.Machine
end

section
/-! PROOFS. How a pull starts by RESTORE (R144), fails (R150) and is ended by silence (R147, R157). -/

namespace Sys2Proof.Machine

open Sys2Proof

/-! ### The failure of a pull (R150) -/

/-- The pull record of a pull that has failed. -/
def Pull.failed (p : Pull) : Pull :=
  { p with phase := .idle, buffers := [], timer := none, attempts := min 3 (p.attempts + 1), ending := none }

/-- The part whose pull has failed, before the test of R143. -/
def failedPull (l : Link) (cause : PullCause) (result : Option PullResult) (s : State) : State :=
  setChan (some .excluded)
    (recordEvent (.pullEnded (peerPosition s.position l) result (some cause) s.rse.pull.received)
      (setAgreed false (clearPrev { s with rse.pull := s.rse.pull.failed })))

theorem failPull_of_server (l : Link) (cause : PullCause) (result : Option PullResult) (s : State)
    (h : s.rse.pull.server = some l) : failPull cause result s = testFull (failedPull l cause result s) := by
  unfold failPull
  rw [h]
  rfl

/-- What a failed pull leaves. -/
theorem failedPull_frame (l : Link) (cause : PullCause) (result : Option PullResult) (s : State) :
    failedPull l cause result s =
      { s with
        cju := { s.cju with chan := some .excluded, wPrev := [], wPrevValid := false }
        vtu := { s.vtu with agreedBase := false }.toChan s.cju.chan (some .excluded)
        rse.pull := s.rse.pull.failed
        lkc.tx := (failedPull l cause result s).lkc.tx
        cmu := s.cmu.withEvents (failedPull l cause result s).cmu } := by
  have frame : ∀ u : State, setChan (some .excluded) (recordEvent
      (.pullEnded (peerPosition s.position l) result (some cause) s.rse.pull.received) (setAgreed false u)) =
        { u with
          cju := { u.cju with chan := some .excluded }
          vtu := { u.vtu with agreedBase := false }.toChan u.cju.chan (some .excluded)
          lkc.tx := (setChan (some .excluded) (recordEvent
            (.pullEnded (peerPosition s.position l) result (some cause) s.rse.pull.received) (setAgreed false u))).lkc.tx
          cmu := u.cmu.withEvents (setChan (some .excluded) (recordEvent
            (.pullEnded (peerPosition s.position l) result (some cause) s.rse.pull.received) (setAgreed false u))).cmu } := by
    intro u
    rw [setChan_frame, recordEvent_frame, setAgreed_frame]
    simp [Cmu.withEvents, recordEvent]
  exact frame _

/-- The pull's end is recorded at its failure. -/
theorem failedPull_records (l : Link) (cause : PullCause) (result : Option PullResult) (s : State)
    (room : s.cmu.events.length < 64) : ∃ r ∈ (failedPull l cause result s).cmu.events,
      r.body = .pullEnded (peerPosition s.position l) result (some cause) s.rse.pull.received := by
  obtain ⟨r, hr, hb⟩ := exists_mem_events_recordEvent
    (.pullEnded (peerPosition s.position l) result (some cause) s.rse.pull.received)
    (setAgreed false (clearPrev { s with rse.pull := s.rse.pull.failed })) (by simpa [clearPrev] using room)
  exact ⟨r, (Records.setChan (admits := fun _ => True) _ _ trivial).mem hr, hb⟩

/-- Eligibility is a matter of the peer's record (R141). -/
theorem eligible_congr {s t : State} (h : t.lkc.peers = s.lkc.peers) (l : Link) : eligible t l = eligible s l := by
  simp only [eligible, h]

/-- The pull of `u` fails in a step whose last state but its end, `v`, has its records. -/
theorem pullFails_settle (room n : Nat) (a : EventBody → Prop) (l : Link) (cause : PullCause) (result : Option PullResult)
    (u v : State) (server : v.rse.pull.server = some l) (attempts : v.rse.pull.attempts = u.rse.pull.attempts)
    (received : v.rse.pull.received = u.rse.pull.received) (position : v.position = u.position)
    (cycle : v.cju.cycle = u.cju.cycle) (events : Records a n u v) (hroom : n + 1 ≤ room) :
    Claim.pullFails room l cause result u (settle (failPull cause result v)) := by
  have frame := failedPull_frame l cause result v
  have tested : ∃ prev, ∃ valid, (testFull (failedPull l cause result v)).cju.wPrev = prev ∧ prev = [] ∧
      (testFull (failedPull l cause result v)).cju.wPrevValid = valid ∧ valid = false ∧
      ((testFull (failedPull l cause result v)).cju.chan = some .excluded ∨
        (testFull (failedPull l cause result v)).cju.chan = some .restoring) := by
    by_cases due : Claim.pullDue (failedPull l cause result v)
    · obtain ⟨m, -, -, he⟩ := testFull_of_due _ due
      rw [he, startFull_frame]
      exact ⟨_, _, rfl, rfl, rfl, rfl, .inr rfl⟩
    · rw [testFull_of_not_due _ due, frame]
      exact ⟨_, _, rfl, rfl, rfl, rfl, .inl rfl⟩
  obtain ⟨_, _, prev, rfl, valid, rfl, chan⟩ := tested
  rw [failPull_of_server l cause result v server]
  refine ⟨?agreed, ?attempts, by simpa using prev, by simpa using valid, ?cycle, by simpa using chan, fun fits => ?event⟩
  case agreed =>
    simp only [settle_keeps, testFull_keeps]
    rw [frame]
    simp [Vtu.toChan, Vtu.dropped]
    split <;> rfl
  case attempts =>
    simp only [settle_keeps, testFull_keeps]
    rw [frame, ← attempts]
    rfl
  case cycle =>
    simp only [settle_keeps, testFull_keeps]
    rw [frame, ← cycle]
  case event =>
    have := events.length_le
    obtain ⟨r, hr, hb⟩ := failedPull_records l cause result v (by omega)
    refine ⟨r, mem_events_settle _ r (by simp [hb, eventKind]) ((Records.testFull (admits := fun _ => True) _ trivial
      fun _ => trivial).mem hr), ?_⟩
    rw [hb, position, received]

/-! ### Silence (R147, R157) -/

/-- The end of a step leaves the cycle journal unit as it is. -/
theorem settle_cju (s : State) : (settle s).cju = s.cju := by
  have keeps := settle_keeps s
  have marks := settle_resend s
  generalize (settle s).cju = c at keeps marks
  cases c
  simp_all

theorem exec_pullSilenceExpiry (s : State) (hr : s.resetLow = false) (hp : s.rse.pull.phase = .receiving)
    (ht : s.rse.pull.timer.isSome = true) :
    exec .pullSilenceExpiry s = .next (settle (failPull .pullTimeout none s)) :=
  congrArg Host.Outcome.next ((whenReady_of_ready _ s hr).trans (if_pos ⟨hp, ht⟩))

theorem exec_creditSilenceExpiry (s : State) (hr : s.resetLow = false) (ht : s.rse.service.timer.isSome = true) :
    exec .creditSilenceExpiry s = .next (settle (endService .aborted none s)) :=
  congrArg Host.Outcome.next ((whenReady_of_ready _ s hr).trans (if_pos ht))

/-- Whether a new pull is due after a failure (R143, R150). -/
theorem pullDue_failedPull_iff (l : Link) (cause : PullCause) (result : Option PullResult) (s : State) :
    Claim.pullDue (failedPull l cause result s) ↔ s.rse.pull.attempts < 2 ∧ ∃ m, eligible s m = true := by
  rw [failedPull_frame]
  have peers : ∀ m, eligible _ m = eligible s m := fun m => eligible_congr (s := s) (t :=
    { s with
      cju := { s.cju with chan := some .excluded, wPrev := [], wPrevValid := false }
      vtu := { s.vtu with agreedBase := false }.toChan s.cju.chan (some .excluded)
      rse.pull := s.rse.pull.failed
      lkc.tx := (failedPull l cause result s).lkc.tx
      cmu := s.cmu.withEvents (failedPull l cause result s).cmu }) rfl m
  have tries : min 3 (s.rse.pull.attempts + 1) < 3 ↔ s.rse.pull.attempts < 2 := by omega
  simp only [Claim.pullDue, peers]
  simp [Pull.failed, pulling, tries]

/-- Settles O45: a pull that falls silent fails, and a service that falls silent is aborted. -/
theorem silencesEndPullsAndServices : Obligations.SilencesEndPullsAndServices := by
  refine ⟨fun l s hr hp ht hs => ⟨_, exec_pullSilenceExpiry s hr hp ht, ?pull⟩,
    fun l s hr ht hv hl hp => ⟨_, exec_creditSilenceExpiry s hr ht, ?service⟩⟩
  case pull =>
    obtain ⟨agreed, attempts, -, valid, cycle, -, event⟩ :=
      pullFails_settle 1 0 (fun _ => True) l .pullTimeout none s s hs rfl rfl rfl rfl (.of_eq rfl) (Nat.le_refl 1)
    refine ⟨agreed, attempts, valid, cycle, by simp, by simp, by simp, by simp, by simp,
      fun room => event (by omega), fun none => ?_, fun few some => ?_⟩
    · have idle : ¬Claim.pullDue (failedPull l .pullTimeout Option.none s) := by
        rw [pullDue_failedPull_iff]
        rintro ⟨few, m, hm⟩
        rcases none with many | no
        · omega
        · rw [no m] at hm; cases hm
      rw [failPull_of_server l _ _ s hs, testFull_of_not_due _ idle]
      simp only [settle_keeps]
      rw [failedPull_frame]
      exact ⟨rfl, rfl, rfl⟩
    · have due := (pullDue_failedPull_iff l .pullTimeout Option.none s).2 ⟨few, some⟩
      rw [failPull_of_server l _ _ s hs]
      simp only [settle_keeps]
      exact testFull_starts _ due
  case service =>
    obtain ⟨service, marks, -, queued, -⟩ := serviceEnds_settle 1 0 0 (fun _ => True) (fun _ => True) .aborted s.cju.cycle s s
      (endService .aborted none s) hv rfl rfl rfl (.of_eq rfl) (Nat.le_refl 1) (.of_eq rfl) (.of_tx rfl rfl)
      (fun l hl => by rw [endService_of_serving _ _ l s hv hl]) (fun l hl => by rw [endService_of_serving _ _ l s hv hl]) l hl
    have frame := endService_of_serving .aborted none l s hv hl
    refine ⟨by rw [service], by rw [service], marks, queued hp, by simp, by simp, by simp, by simp, by simp, by simp, by rw [settle_cju, frame]⟩

/-! ### RESTORE (R143, R144) -/

theorem getLsbD_slotMask (ks : List Nat) (k : Nat) (hk : k < 16) : (slotMask ks).getLsbD k = true ↔ k ∈ ks := by
  have fold : ∀ (ks : List Nat) (m : BitVec 16),
      (ks.foldl (fun m j => m ||| ((1 : BitVec 16) <<< j)) m).getLsbD k = true ↔ m.getLsbD k = true ∨ k ∈ ks := by
    intro ks
    induction ks with
    | nil => simp
    | cons j ks ih =>
      intro m
      have bit : ((1 : BitVec 16) <<< j).getLsbD k = true ↔ k = j := by
        have power : (BitVec.twoPow 16 j).getLsbD k = (decide (j < 16) && decide (j = k)) := BitVec.getLsbD_twoPow j k
        rw [show (1 : BitVec 16) <<< j = BitVec.twoPow 16 j from rfl, power, Bool.and_eq_true, decide_eq_true_eq,
          decide_eq_true_eq]
        omega
      rw [List.foldl_cons, ih, BitVec.getLsbD_or, Bool.or_eq_true, bit, List.mem_cons, or_assoc]
  unfold slotMask
  rw [fold]
  simp

/-- The slots that a FULL pull asks for (R143). -/
theorem slotAsked_iff (s : State) (l : Link) (k : Nat) : slotAsked s l k = true ↔
    ∃ e, slotRegion s k = some e ∧ (e.2.desc.kind = .vital ∨ e.2.state ≠ .normal ∨
      ∀ f, (s.vtu.table.get l).getLast? = some f → f.entries[k]? ≠ some ⟨.valid, sigOf s k⟩) := by
  have shown : ∀ f : VoteFrame, (f.entries.getD k ⟨.absent, 0⟩ != ⟨.valid, sigOf s k⟩) = true ↔
      f.entries[k]? ≠ some ⟨.valid, sigOf s k⟩ := by
    intro f
    rw [List.getD_eq_getElem?_getD, bne_iff_ne]
    cases f.entries[k]? <;> simp
  unfold slotAsked
  cases hr : slotRegion s k with
  | none => simp
  | some e =>
    dsimp only
    cases hk : e.2.desc.kind with
    | vital => simp [hk]
    | code | plain =>
      cases ht : (s.vtu.table.get l).getLast? with
      | none => simp
      | some f =>
        dsimp only
        rw [Bool.or_eq_true, shown]
        simp [hk, Region.suspect]

theorem getLsbD_fullSet (s : State) (l : Link) (k : Nat) (hk : k < 16) :
    (fullSet s l).getLsbD k = true ↔ slotAsked s l k = true := by
  unfold fullSet
  rw [getLsbD_slotMask _ k hk, List.mem_filter, List.mem_range]
  exact ⟨fun h => h.2, fun h => ⟨hk, h⟩⟩

theorem peerPosition_injective (p : BitVec 2) {l m : Link} (h : peerPosition p m = peerPosition p l) : m = l := by
  have apart := peerPosition_one_ne_two p
  cases l <;> cases m
  · rfl
  · exact absurd h.symm apart
  · exact absurd h apart
  · rfl

/-- The server that a RESTORE takes (R141, R144). -/
theorem restoreServer_iff (s : State) (ps : List Word) (l : Link) :
    restoreServer s ps = some l ↔ eligible s l = true ∧
      match ps with
      | [] => ∀ m, m ≠ l → eligible s m = true → peerPosition s.position l < peerPosition s.position m
      | w :: _ => w.toNat = peerPosition s.position l := by
  cases ps with
  | nil => exact chooseServer_iff s l
  | cons w ws =>
    have unfolded : restoreServer s (w :: ws) = (linksByPosition s).find?
        (fun l => peerPosition s.position l == w.toNat && eligible s l) := rfl
    rw [unfolded, find?_linksByPosition_iff, Bool.and_eq_true, beq_iff_eq, eq_comm (a := peerPosition _ _),
      and_comm (a := w.toNat = _)]
    refine ⟨fun h => h.1, fun h => ⟨h, fun m hm hb => ?_⟩⟩
    rw [Bool.and_eq_true, beq_iff_eq] at hb
    exact absurd (peerPosition_injective s.position (hb.1.trans h.2)) hm

theorem restoreServer_eq_none_iff (s : State) (ps : List Word) :
    restoreServer s ps = none ↔ ∀ l, restoreServer s ps ≠ some l :=
  Option.eq_none_iff_forall_ne_some

/-- A peer's position is another one of the three (R106). -/
theorem peerPosition_ne (p : BitVec 2) (hp : p ≠ 3) (l : Link) :
    peerPosition p l ≤ 2 ∧ peerPosition p l ≠ p.toNat := by
  have range : p.toNat < 3 := by
    have small := p.isLt
    have other : p.toNat ≠ 3 := fun h => hp (BitVec.eq_of_toNat_eq h)
    omega
  cases l <;> simp only [peerPosition] <;> omega

/-- A donor word that names a peer passes its check (R144). -/
theorem donor_of_peer (w : Word) (l : Link) (s : State) (hp : s.position ≠ 3) (hw : w.toNat = peerPosition s.position l) :
    ¬([w].length = 1 ∧ (2 < param [w] 1 ∨ param [w] 1 = s.position.toNat)) := by
  obtain ⟨low, other⟩ := peerPosition_ne s.position hp l
  have word : param [w] 1 = w.toNat := rfl
  rw [word, hw]
  rintro ⟨-, h | h⟩ <;> omega

/-- RESTORE, where the state of the part permits it. -/
theorem exec_restore (tag : Byte) (ps : List Word) (s : State) (ht : Claim.takes .restore s) (hd : s.dev = .running)
    (hc : s.cju.chan = some .excluded ∨ s.cju.chan = some .ready ∧ s.vtu.agreedBase = false) (hl : ps.length ≤ 1) :
    exec (.restore tag ps) s = .next (takeRestore tag ps (Claim.presented .restore tag ps s)) := by
  have fits : lengthFits .restore ps.length = true := by
    have : ps.length = 0 ∨ ps.length = 1 := by omega
    rcases this with h | h <;> simp [lengthFits, h]
  refine exec_software_of_takes .restore tag ps s ht fits ((whileRunning_of_running s _ hd).trans ?_)
  rcases hc with h | ⟨h, ha⟩ <;> simp [restoreRefusal, *]

theorem takeRestore_of_badField (tag : Byte) (ps : List Word) (s : State)
    (h : ps.length = 1 ∧ (2 < param ps 1 ∨ param ps 1 = s.position.toNat)) : takeRestore tag ps s = badField 1 tag s :=
  if_pos h

theorem takeRestore_of_no_server (tag : Byte) (ps : List Word) (s : State)
    (h : ¬(ps.length = 1 ∧ (2 < param ps 1 ∨ param ps 1 = s.position.toNat))) (hn : restoreServer s ps = none) :
    takeRestore tag ps s = refusedState .noServer tag s := by
  unfold takeRestore
  rw [if_neg h, hn]

/-- The part from which RESTORE starts its pull: the attempt count is 0 again (R144). -/
def retried (s : State) : State := { s with rse.pull.attempts := 0 }

theorem takeRestore_of_server (tag : Byte) (ps : List Word) (l : Link) (s : State)
    (h : ¬(ps.length = 1 ∧ (2 < param ps 1 ∨ param ps 1 = s.position.toNat))) (hn : restoreServer s ps = some l) :
    takeRestore tag ps s = settle (accepted tag (startFull l (retried s))) := by
  unfold takeRestore
  rw [if_neg h, hn]
  rfl

/-- The PULL of a FULL pull waits for its server. -/
theorem mem_startFull (l : Link) (s : State) (hp : s.position ≠ 3) :
    .pull ⟨.full, 8, 0, fullSet s l, []⟩ ∈ ((startFull l s).lkc.tx.get l).ctrl := by
  rw [startFull_eq]
  unfold beginPull
  dsimp only
  refine (Waits.recordEvent _ _).ctrl (mem_sendCtrl _ l _ ?_ (by simp)) rfl
  simpa [restoring, clearPrev] using hp

/-- Settles O30: a RESTORE is refused for its donor word, then for want of a server, and else starts the pull. -/
theorem restoreStartsAFullPull : Obligations.RestoreStartsAFullPull := by
  refine ⟨fun l s => eligible_iff s l, fun l s k hk => (getLsbD_fullSet s l k hk).trans (slotAsked_iff s l k),
    fun tag ps s ht hd hp hc => ⟨fun hl hb => ?bad, fun hps hn => ?none, fun l w hps hw hn => ?named,
      fun l he hs => ?starts⟩⟩
  case bad =>
    have taken := takeRestore_of_badField tag ps (Claim.presented .restore tag ps s) ⟨hl, hb⟩
    refine ⟨_, (exec_restore tag ps s ht hd hc (Nat.le_of_eq hl)).trans (congrArg Host.Outcome.next taken), ?_,
      response_respond _ _ _ _ _ _ rfl⟩
    exact respond_eq_withResponse ..
  case none =>
    subst hps
    have server : restoreServer (Claim.presented .restore tag [] s) [] = none :=
      (restoreServer_eq_none_iff _ _).2 fun l hl =>
        Bool.false_ne_true ((hn l).symm.trans ((restoreServer_iff _ _ l).1 hl).1)
    have taken := takeRestore_of_no_server tag [] (Claim.presented .restore tag [] s) (fun h => absurd h.1 (by decide)) server
    refine ⟨_, (exec_restore tag [] s ht hd hc (by decide)).trans (congrArg Host.Outcome.next taken), ?_,
      response_respond _ _ _ _ _ _ rfl⟩
    exact respond_eq_withResponse ..
  case named =>
    subst hps
    have server : restoreServer (Claim.presented .restore tag [w] s) [w] = none := by
      refine (restoreServer_eq_none_iff _ _).2 fun m hm => ?_
      obtain ⟨he, hpos⟩ := (restoreServer_iff _ _ m).1 hm
      have same : m = l := peerPosition_injective s.position (hpos.symm.trans hw)
      subst same
      exact Bool.false_ne_true (hn.symm.trans he)
    have taken := takeRestore_of_no_server tag [w] (Claim.presented .restore tag [w] s) (donor_of_peer w l s hp hw) server
    refine ⟨_, (exec_restore tag [w] s ht hd hc (Nat.le_refl 1)).trans (congrArg Host.Outcome.next taken), ?_,
      response_respond _ _ _ _ _ _ rfl⟩
    exact respond_eq_withResponse ..
  case starts =>
    have server : restoreServer (Claim.presented .restore tag ps s) ps = some l := by
      refine (restoreServer_iff _ _ l).2 ⟨he, ?_⟩
      rcases hs with ⟨rfl, low⟩ | ⟨w, rfl, hw⟩
      · exact low
      · exact hw
    have passes : ps.length ≤ 1 ∧ ¬(ps.length = 1 ∧ (2 < param ps 1 ∨ param ps 1 = s.position.toNat)) := by
      rcases hs with ⟨rfl, low⟩ | ⟨w, rfl, hw⟩
      · exact ⟨by decide, fun h => absurd h.1 (by decide)⟩
      · exact ⟨Nat.le_refl 1, donor_of_peer w l s hp hw⟩
    have taken := takeRestore_of_server tag ps l (Claim.presented .restore tag ps s) passes.2 server
    have frame := startFull_frame l (retried (Claim.presented .restore tag ps s))
    have waits := mem_startFull l (retried (Claim.presented .restore tag ps s)) hp
    have response : (startFull l (retried (Claim.presented .restore tag ps s))).cmu.response = s.cmu.response := by
      rw [frame]
      rfl
    have table : (startFull l (retried (Claim.presented .restore tag ps s))).vtu.table = s.vtu.table := by
      simp only [startFull_keeps]
      rfl
    generalize startFull l (retried (Claim.presented .restore tag ps s)) = u at taken frame waits response table
    refine ⟨_, (exec_restore tag ps s ht hd hc passes.1).trans (congrArg Host.Outcome.next taken),
      response_settle _ _ _ _ _ _ (response_respond _ _ _ _ _ _ response), ?_⟩
    have queued : Claim.queued l (.pull ⟨.full, 8, 0, fullSet s l, []⟩) s (settle (accepted tag u)) :=
      queued_settle l _ s (accepted tag u) waits (by simp [ctrlKind]) (.inl (by simp [ctrlKind]))
    simp only [settle_keeps, accepted, respond_keeps] at queued ⊢
    refine ⟨congrArg (fun v => v.cju.chan) frame, congrArg (fun v => v.cju.wPrev) frame,
      congrArg (fun v => v.cju.wPrevValid) frame, congrArg (fun v => v.rse.pull) frame, queued,
      congrArg (fun v => v.rgt) frame, congrArg (fun v => v.mpu) frame, congrArg (fun v => v.sgu) frame,
      congrArg (fun v => v.ptu) frame, congrArg (fun v => v.cju.cycle) frame, congrArg (fun v => v.cju.journal) frame,
      congrArg (fun v => v.cju.repair) frame, table⟩

end Sys2Proof.Machine
end

section
/-! PROOFS. The completion of a pull (R148, R149): the slots are compared, the pull succeeds or fails, or a pass signs the SUSPECT
regions again. -/

namespace Sys2Proof.Machine

open Sys2Proof

/-! ### Success (R149) -/

/-- The region entries with every signed region NORMAL (R14). -/
def mended (es : List (Nat × Region)) : List (Nat × Region) :=
  es.map (fun e => if e.2.desc.signed then (e.1, { e.2 with state := .normal }) else e)

/-- The cycle journal unit after a pull of this kind has succeeded. -/
def Cju.pulled (c : Cju) (kind : Option PullKind) (cycle : BitVec 32) : Cju :=
  { c with
    chan := some .ready, cycle := cycle, repair := [], repairOverflow := false, wPrevValid := kind == some .delta,
    wPrev := if kind == some .delta then c.wPrev else [], wCur := [], journal := [], unrevertible := false }

/-- The pull record of a pull that has succeeded. -/
def Pull.succeeded (p : Pull) : Pull := { p with phase := .idle, timer := none, attempts := 0, ending := none }

/-- What the success of a pull leaves. -/
theorem succeedPull_frame (l : Link) (f : PullEndFrame) (es : List SigEntry) (s : State)
    (h : s.rse.pull.server = some l) :
    succeedPull f es s =
      { s with
        rgt.entries := mended s.rgt.entries
        cju := s.cju.pulled s.rse.pull.kind f.tag
        vtu := { s.vtu with closedSet := es, agreedBase := true, table := (succeedPull f es s).vtu.table }
        rse.pull := s.rse.pull.succeeded
        lkc.tx := (succeedPull f es s).lkc.tx
        cmu := s.cmu.withEvents
          (recordEvent (.pullEnded (peerPosition s.position l) (some .done) none s.rse.pull.received)
            { s with cju.cycle := f.tag }).cmu } := by
  unfold succeedPull
  rw [h]
  dsimp only
  rw [recordEvent_frame]
  unfold sortKept
  rw [enterReady_frame, setAgreed_frame]
  simp [mendRegions, mended, Cju.pulled, Pull.succeeded, recordEvent, voteCycle, Cmu.withEvents]

/-- The pull of `u` succeeds in a step whose last state but its end, `v`, has its records. -/
theorem pullSucceeds_settle (room n : Nat) (a : EventBody → Prop) (l : Link) (f : PullEndFrame) (es : List SigEntry)
    (u v : State) (server : v.rse.pull.server = some l) (kind : v.rse.pull.kind = u.rse.pull.kind)
    (wPrev : v.cju.wPrev = u.cju.wPrev)
    (descs : v.rgt.entries.map (fun e => (e.1, e.2.desc)) = u.rgt.entries.map (fun e => (e.1, e.2.desc)))
    (received : v.rse.pull.received = u.rse.pull.received) (position : v.position = u.position)
    (pass : v.sgu.pass = none) (events : Records a n u v) (hroom : n + 1 ≤ room) :
    Claim.pullSucceeds room l f es u (settle (succeedPull f es v)) := by
  have frame := succeedPull_frame l f es v server
  have valid : decide (u.rse.pull.kind = some .delta) = (v.rse.pull.kind == some .delta) := by
    rw [kind, Bool.eq_iff_iff]
    simp
  have mends : (mended v.rgt.entries).map (fun e => (e.1, e.2.desc)) = v.rgt.entries.map (fun e => (e.1, e.2.desc)) := by
    unfold mended
    rw [List.map_map]
    refine List.map_congr_left fun e _ => ?_
    simp only [Function.comp]
    split <;> rfl
  simp only [Claim.pullSucceeds, settle_keeps, valid]
  refine ⟨congrArg (fun t => t.cju.chan) frame, congrArg (fun t => t.cju.cycle) frame, congrArg (fun t => t.cju.repair) frame,
    congrArg (fun t => t.cju.repairOverflow) frame, congrArg (fun t => t.cju.journal) frame,
    congrArg (fun t => t.cju.wCur) frame, congrArg (fun t => t.cju.unrevertible) frame,
    congrArg (fun t => t.cju.wPrevValid) frame, (congrArg (fun t => t.cju.wPrev) frame).trans ?prev,
    congrArg (fun t => t.vtu.closedSet) frame, congrArg (fun t => t.vtu.agreedBase) frame, ?descs, ?normal,
    congrArg (fun t => t.rse.pull.phase) frame, congrArg (fun t => t.rse.pull.attempts) frame,
    congrArg (fun t => t.rse.pull.timer) frame, (congrArg (fun t => t.sgu.pass) frame).trans pass, fun fits => ?event⟩
  case prev =>
    simp only [Cju.pulled, wPrev, kind]
    cases hk : u.rse.pull.kind == some .delta <;> simp_all
  case descs =>
    rw [frame]
    exact mends.trans descs
  case normal =>
    rw [frame]
    intro e he hs
    obtain ⟨d, hd, rfl⟩ := List.mem_map.1 he
    split
    case isTrue => rfl
    case isFalse hn =>
      rw [if_neg hn] at hs
      exact absurd hs hn
  case event =>
    have grown := events.length_le
    have free : v.cmu.events.length < 64 := by omega
    obtain ⟨r, hr, hb⟩ := exists_mem_events_recordEvent
      (.pullEnded (peerPosition v.position l) (some .done) none v.rse.pull.received) { v with cju.cycle := f.tag } free
    refine ⟨r, mem_events_settle _ r (by simp [hb, eventKind]) ?_, ?_⟩
    · rw [frame]
      exact hr
    · rw [hb, position, received]

/-! ### The comparison of the slots (R149) -/

theorem slotPasses_iff (s : State) (es : List SigEntry) (k : Nat) : slotPasses s es k = true ↔ Claim.slotPasses s es k := by
  unfold slotPasses Claim.slotPasses
  rw [List.getD_eq_getElem?_getD]
  cases he : es[k]? with
  | none => simp
  | some e =>
    cases hf : e.flag <;> cases slotRegion s k <;> simp [hf]

theorem slotsPass_iff (s : State) (es : List SigEntry) :
    (List.range Config.sigSlots).all (slotPasses s es) = true ↔ ∀ k, k < 16 → Claim.slotPasses s es k := by
  simp [List.all_eq_true, slotPasses_iff, Config.sigSlots]

theorem completionCheck_of_passes (f : PullEndFrame) (es : List SigEntry) (s : State) (he : s.rse.pull.ending = some f)
    (hf : f.entries = some es) (h : ∀ k, k < 16 → Claim.slotPasses s es k) : completionCheck s = succeedPull f es s := by
  unfold completionCheck
  simp only [he, hf]
  exact if_pos ((slotsPass_iff s es).2 h)

theorem completionCheck_of_fails (f : PullEndFrame) (es : List SigEntry) (s : State) (he : s.rse.pull.ending = some f)
    (hf : f.entries = some es) (h : ∃ k, k < 16 ∧ ¬Claim.slotPasses s es k) :
    completionCheck s = failPull .mismatch (some f.result) s := by
  obtain ⟨k, hk, hn⟩ := h
  unfold completionCheck
  simp only [he, hf]
  exact if_neg fun hall => hn ((slotsPass_iff s es).1 hall k hk)

/-! ### The checks once every buffer is written (R148) -/

/-- The last state `v` before a step's end, in which a pull with its PULL_END is checked, and a state `u` that shows of it what
the checks look at. -/
structure Completing (l : Link) (f : PullEndFrame) (es : List SigEntry) (u v : State) : Prop where
  server : v.rse.pull.server = some l
  ending : v.rse.pull.ending = some f
  slots : f.entries = some es
  phase : v.rse.pull.phase = .completing
  buffers : v.rse.pull.buffers = []
  pass : v.sgu.pass = none
  kind : v.rse.pull.kind = u.rse.pull.kind
  target : v.rse.pull.target = u.rse.pull.target
  received : v.rse.pull.received = u.rse.pull.received
  attempts : v.rse.pull.attempts = u.rse.pull.attempts
  clean : ∀ k, k < 16 → v.rse.pull.clean.getLsbD k = u.rse.pull.clean.getLsbD k
  wPrev : v.cju.wPrev = u.cju.wPrev
  cycle : v.cju.cycle = u.cju.cycle
  chan : v.cju.chan = u.cju.chan
  position : v.position = u.position
  entries : v.rgt.entries = u.rgt.entries
  sigs : v.sgu.sigs = u.sgu.sigs

namespace Completing

variable {l : Link} {f : PullEndFrame} {es : List SigEntry} {u v : State}

/-- A slot passes in both alike. -/
theorem slotPasses_iff (h : Completing l f es u v) (k : Nat) (hk : k < 16) :
    Claim.slotPasses v es k ↔ Claim.slotPasses u es k := by
  have sig : sigOf v k = sigOf u k := by rw [sigOf, sigOf, h.sigs]
  rw [Claim.slotPasses, Claim.slotPasses, slotRegion_congr h.entries, sig, h.clean k hk]

/-- The branches of the checks. -/
theorem progress (h : Completing l f es u v) :
    pullProgress v =
      if v.rse.pull.kind = some .delta ∧ f.tag ≠ v.rse.pull.target then failPull .mismatch (some f.result) v
      else if f.sent.toNat ≠ v.rse.pull.received then failPull .count (some f.result) v
      else if slotsWith v Region.suspect = [] then completionCheck v
      else beginRegion (slotsWith v Region.suspect) 0 v := by
  unfold pullProgress
  rw [if_pos ⟨h.phase, h.buffers, h.pass⟩]
  simp only [h.ending]
  refine if_congr Iff.rfl rfl (if_congr Iff.rfl rfl ?_)
  cases slotsWith v Region.suspect <;> simp

theorem fails (h : Completing l f es u v) (room n : Nat) (a : EventBody → Prop) (cause : PullCause)
    (events : Records a n u v) (hroom : n + 1 ≤ room) :
    Claim.pullFails room l cause (some f.result) u (settle (failPull cause (some f.result) v)) :=
  pullFails_settle room n a l cause (some f.result) u v h.server h.attempts h.received h.position h.cycle events hroom

theorem succeeds (h : Completing l f es u v) (room n : Nat) (a : EventBody → Prop) (events : Records a n u v)
    (hroom : n + 1 ≤ room) : Claim.pullSucceeds room l f es u (settle (succeedPull f es v)) :=
  pullSucceeds_settle room n a l f es u v h.server h.kind h.wPrev (by rw [h.entries]) h.received h.position h.pass events
    hroom

end Completing

/-- The slots whose regions are SUSPECT (R63). -/
theorem mem_slotsWith_suspect (s : State) (k : Nat) :
    k ∈ slotsWith s Region.suspect ↔ k < 16 ∧ ∃ d, slotRegion s k = some d ∧ d.2.state ≠ .normal := by
  simp only [slotsWith, List.mem_filter, List.mem_range]
  refine and_congr Iff.rfl ?_
  cases slotRegion s k <;> simp [Region.suspect]

/-- No region of a slot is SUSPECT. -/
theorem slotsWith_suspect_eq_nil_iff (s : State) : slotsWith s Region.suspect = [] ↔
    ∀ k e, k < 16 → slotRegion s k = some e → e.2.state = .normal := by
  rw [List.eq_nil_iff_forall_not_mem]
  simp only [mem_slotsWith_suspect, not_and, not_exists, not_not]
  exact ⟨fun h k e hk he => h k hk e he, fun h k hk e he => h k e hk he⟩

/-- A pass that begins touches the pass and the clean flags alone. -/
theorem beginRegion_frame (slots : List Nat) (bad : Nat) (s : State) :
    beginRegion slots bad s =
      { s with
        sgu.pass := (beginRegion slots bad s).sgu.pass
        rse.pull.clean := (beginRegion slots bad s).rse.pull.clean } := by
  unfold beginRegion
  split
  · rfl
  · split <;> rfl

/-- What follows once every buffer of a pull that completes is written. -/
theorem buffersWritten_settle (room n : Nat) (a : EventBody → Prop) (l : Link) (f : PullEndFrame) (es : List SigEntry)
    (u v : State) (h : Completing l f es u v) (events : Records a n u v) (hroom : n + 1 ≤ room) :
    Claim.buffersWritten room l f es u (settle (pullProgress v)) := by
  have branches := h.progress
  have clean : (∀ k e, k < 16 → slotRegion u k = some e → e.2.state = .normal) ↔ slotsWith v Region.suspect = [] := by
    simp only [slotsWith_suspect_eq_nil_iff, slotRegion_congr h.entries]
  simp only [h.kind, h.target, h.received] at branches
  unfold Claim.buffersWritten
  dsimp only
  rw [clean]
  refine ⟨fun tag => ?_, fun tag count => ?_, fun tag count suspect => ?_, fun tag count none => ⟨fun pass => ?_, fun fail => ?_⟩⟩
  · rw [branches, if_pos (Classical.not_imp.1 tag)]
    exact h.fails room n a .mismatch events hroom
  all_goals rw [if_neg fun bad => bad.2 (tag bad.1)] at branches
  · rw [branches, if_pos count]
    exact h.fails room n a .count events hroom
  all_goals rw [if_neg (not_not.2 count)] at branches
  · rw [if_neg suspect] at branches
    obtain ⟨k, rest, hs⟩ := List.exists_cons_of_ne_nil suspect
    obtain ⟨-, e, he, -⟩ := (mem_slotsWith_suspect v k).1 (by rw [hs]; exact List.mem_cons_self)
    have pass := beginRegion_pass k rest 0 v e he
    have order := slotsWith_pairwise v Region.suspect
    rw [hs] at branches order
    have frame := beginRegion_frame (k :: rest) 0 v
    rw [branches]
    simp only [settle_keeps, pass]
    refine ⟨(congrArg (fun t => t.rse.pull.phase) frame).trans h.phase, (congrArg (fun t => t.cju.chan) frame).trans h.chan,
      (congrArg (fun t => t.cju.cycle) frame).trans h.cycle, k, rest, e, by rw [← slotRegion_congr h.entries, he], rfl, order,
      fun j => ?_⟩
    rw [← hs, mem_slotsWith_suspect, slotRegion_congr h.entries]
  · rw [branches, if_pos none, completionCheck_of_passes f es v h.ending h.slots fun k hk =>
      (h.slotPasses_iff k hk).2 (pass k hk)]
    exact h.succeeds room n a events hroom
  · obtain ⟨k, hk, hf⟩ := fail
    rw [branches, if_pos none, completionCheck_of_fails f es v h.ending h.slots ⟨k, hk, fun hp =>
      hf ((h.slotPasses_iff k hk).1 hp)⟩]
    exact h.fails room n a .mismatch events hroom

/-! ### CREDIT and PULL_END (R148, R153) -/

theorem exec_creditReceived (l : Link) (fp : BitVec 16) (n : Byte) (s : State) (h : Claim.hears fp s)
    (hh : (s.lkc.peers.get l).heard = true) :
    exec (.creditReceived l fp n) s = .next (settle (takeCredit l n (seen l s))) :=
  exec_of_hears _ l fp ⟨fp, .credit n⟩ (takeCredit l n) s rfl rfl h hh

theorem exec_pullEndReceived (l : Link) (fp : BitVec 16) (f : PullEndFrame) (s : State) (h : Claim.hears fp s)
    (hh : (s.lkc.peers.get l).heard = true) :
    exec (.pullEndReceived l fp f) s = .next (settle (takePullEnd l f (seen l s))) :=
  exec_of_hears _ l fp ⟨fp, .pullEnd f⟩ (takePullEnd l f) s rfl rfl h hh

theorem takeCredit_eq (l : Link) (n : Byte) (s : State) :
    takeCredit l n s =
      { s with
        rse.service.credits :=
          if serving s = true ∧ s.rse.service.requester = some l then min 8 (s.rse.service.credits + n.toNat)
          else s.rse.service.credits } := by
  unfold takeCredit
  split <;> rfl

theorem takePullEnd_of_other (l : Link) (f : PullEndFrame) (s : State)
    (h : ¬(s.rse.pull.phase = .receiving ∧ s.rse.pull.server = some l)) : takePullEnd l f s = s :=
  if_neg h

/-- The part whose pull has its PULL_END with DONE (R148, R149). -/
def endingPull (f : PullEndFrame) (s : State) : State :=
  { s with
    rse.pull :=
      { s.rse.pull with
        phase := .completing, timer := none, ending := some f, clean := slotMask (slotsWith s (fun r => !r.suspect)) } }

theorem takePullEnd_of_done (l : Link) (f : PullEndFrame) (s : State) (hp : s.rse.pull.phase = .receiving)
    (hs : s.rse.pull.server = some l) (hd : f.result = .done) (he : f.entries.isSome = true) :
    takePullEnd l f s = pullProgress (endingPull f s) :=
  (if_pos ⟨hp, hs⟩).trans (if_pos ⟨hd, he⟩)

theorem takePullEnd_of_result (l : Link) (f : PullEndFrame) (s : State) (hp : s.rse.pull.phase = .receiving)
    (hs : s.rse.pull.server = some l) (hd : f.result ≠ .done) :
    takePullEnd l f s = failPull .serverResult (some f.result) s :=
  (if_pos ⟨hp, hs⟩).trans (if_neg fun h => hd h.1)

/-- While buffers are full nothing is checked yet. -/
theorem pullProgress_of_buffers (s : State) (h : s.rse.pull.buffers ≠ []) : pullProgress s = s :=
  if_neg fun hc => h hc.2.1

/-- The clean flags at a PULL_END: those of the slots whose regions are NORMAL (R149). -/
theorem getLsbD_clean_endingPull (f : PullEndFrame) (s : State) (k : Nat) (hk : k < 16) :
    (endingPull f s).rse.pull.clean.getLsbD k = true ↔ ∃ e, slotRegion s k = some e ∧ e.2.state = .normal := by
  have flag : (endingPull f s).rse.pull.clean = slotMask (slotsWith s (fun r => !r.suspect)) := rfl
  rw [flag, getLsbD_slotMask _ k hk]
  simp only [slotsWith, List.mem_filter, List.mem_range]
  rw [and_iff_right (show k < Config.sigSlots from hk)]
  cases slotRegion s k <;> simp [Region.suspect]

/-- Settles O51: a CREDIT of the requester counts, a PULL_END of the pull's server completes or fails the pull, and any other is
discarded. -/
theorem creditsAndPullEndsAreTaken : Obligations.CreditsAndPullEndsAreTaken := by
  refine ⟨fun l fp n => refreshes_of_consumer _ l fp (takeCredit l n) fun s hr hp => ?credits,
    fun l fp f => refreshes_of_consumer _ l fp (takePullEnd l f) fun s hr hp => ?pullEnds,
    fun l fp n s h hh => ⟨_, exec_creditReceived l fp n s h hh, ?credit⟩,
    fun l fp f s h hh hn => ⟨_, exec_pullEndReceived l fp f s h hh, ?other⟩,
    fun l fp f s h hh hp hs hf => ⟨_, exec_pullEndReceived l fp f s h hh, fun hd hb => ?waits, fun hd hb hpass es clean he hc => ?checks,
      fun hd => ?fails⟩⟩
  case credits => exact congrArg Host.Outcome.next (receive_of_ready l ⟨fp, .credit n⟩ s hr hp)
  case pullEnds => exact congrArg Host.Outcome.next (receive_of_ready l ⟨fp, .pullEnd f⟩ s hr hp)
  case credit =>
    rw [takeCredit_eq]
    exact settle_end _
  case other =>
    rw [takePullEnd_of_other l f (seen l s) hn]
    exact settle_end _
  case waits =>
    rw [takePullEnd_of_done l f (seen l s) hp hs hd (hf.2 hd), pullProgress_of_buffers (endingPull f (seen l s)) hb]
    refine ⟨?_, fun k hk => ?_⟩
    · simp only [settle_keeps]
      exact settle_end (endingPull f (seen l s))
    · simp only [settle_keeps]
      exact getLsbD_clean_endingPull f (seen l s) k hk
  case checks =>
    rw [takePullEnd_of_done l f (seen l s) hp hs hd (hf.2 hd)]
    refine buffersWritten_settle 1 0 (fun _ => True) l f es _ (endingPull f (seen l s)) ?_ (.of_eq rfl) (Nat.le_refl 1)
    refine ⟨hs, rfl, he, rfl, hb, hpass, rfl, rfl, rfl, rfl, fun k hk => ?_, rfl, rfl, rfl, rfl, rfl, rfl⟩
    rw [Bool.eq_iff_iff, getLsbD_clean_endingPull f (seen l s) k hk]
    exact (hc k hk).symm
  case fails =>
    rw [takePullEnd_of_result l f (seen l s) hp hs hd]
    exact pullFails_settle 1 0 (fun _ => True) l .serverResult (some f.result) s (seen l s) hs rfl rfl rfl rfl (.of_eq rfl)
      (Nat.le_refl 1)

end Sys2Proof.Machine
end

section
/-! PROOFS. A HELLO (R118, R119): what it stores, the service that it may end (R157), and the decision or pull that follows. -/

namespace Sys2Proof.Machine

open Sys2Proof

/-! ### Steps without an active service -/

/-- A step from a part without an active service to one without, in which the RESEND marks and the waiting PULL_ENDs and BLOCK
frames stay. -/
def StaysIdle (s t : State) : Prop :=
  s.rse.service.phase = .idle → t.rse.service.phase = .idle ∧ t.cju.resend = s.cju.resend ∧ Waits 6 s t

namespace StaysIdle

variable {s t u : State}

theorem refl (s : State) : StaysIdle s s := fun h => ⟨h, rfl, .of_tx rfl rfl⟩

theorem trans (h : StaysIdle s t) (k : StaysIdle t u) : StaysIdle s u := fun idle =>
  let ⟨ht, rt, wt⟩ := h idle
  let ⟨hu, ru, wu⟩ := k ht
  ⟨hu, ru.trans rt, wt.trans wu⟩

theorem of_keeps (hs : t.rse.service = s.rse.service) (hr : t.cju.resend = s.cju.resend) (hw : Waits 6 s t) :
    StaysIdle s t :=
  fun h => ⟨by rw [hs, h], hr, hw⟩

theorem endService (r : PullResult) (es : Option (List SigEntry)) (s : State) : StaysIdle s (endService r es s) :=
  fun h => by
    rw [endService_of_idle r es s h]
    exact refl s h

theorem setChan (c : Option ChannelState) (s : State) : StaysIdle s (setChan c s) :=
  of_keeps (by simp) (by simp) (.setChan c s (by decide))

theorem setAgreed (b : Bool) (s : State) : StaysIdle s (setAgreed b s) :=
  of_keeps (by simp) (by simp) (.setAgreed b s (by decide))

theorem enterReady (s : State) : StaysIdle s (enterReady s) :=
  of_keeps (by simp) (by simp) (.enterReady s (by decide))

theorem dropPermit (c : PermitCause) (s : State) : StaysIdle s (dropPermit c s) :=
  of_keeps (by simp) (by simp) (.dropPermit c s)

theorem endIfLost (s : State) : StaysIdle s (endIfLost s) := by
  unfold Machine.endIfLost
  split
  · exact refl s
  · exact endService _ _ s

theorem staleDelta (s : State) : StaysIdle s (staleDelta s) := by
  unfold Machine.staleDelta
  split
  · exact endService _ _ s
  · exact refl s

theorem testFull (s : State) : StaysIdle s (testFull s) :=
  of_keeps (by simp) (by simp) (.testFull s (by decide) (by decide))

/-- A change of fields apart from the service and the queues. -/
theorem of_fields (hs : t.rse.service = s.rse.service) (hr : t.cju.resend = s.cju.resend) (hp : t.position = s.position)
    (hx : t.lkc.tx = s.lkc.tx) : StaysIdle s t :=
  of_keeps hs hr (.of_tx hp hx)

theorem markResend (s : State) : StaysIdle s (markResend s) := fun h => by
  have idle : ¬(serving s = true ∧ s.rse.service.kind = some .full) := fun ⟨hs, _⟩ => by simp [serving, h] at hs
  have same : Machine.markResend s = s := if_neg idle
  rw [same]
  exact refl s h

theorem reconsiderMarks (s : State) : StaysIdle s (reconsiderMarks s) := fun h => ⟨h, rfl, .of_tx rfl rfl⟩

theorem memberOutcome (own : VoteFrame) (s : State) : StaysIdle s (memberOutcome own s) := by
  have closed : StaysIdle s
      (Machine.enterReady (Machine.setAgreed true (Machine.staleDelta (advance own (Machine.markResend s))))) :=
    ((((markResend s).trans (of_fields (t := advance own (Machine.markResend s)) rfl rfl rfl rfl)).trans
      (staleDelta _)).trans (setAgreed true _)).trans (enterReady _)
  unfold Machine.memberOutcome
  dsimp only
  split
  · exact closed
  · exact closed.trans (of_fields (by simp) (by simp) (by simp) (by simp))

theorem applyOutcome (o : VoteOutcome) (own : VoteFrame) (s : State) : StaysIdle s (applyOutcome o own s) := by
  have emptied : StaysIdle s (emptyNext s) := of_fields rfl rfl rfl rfl
  cases o with
  | member3 => exact memberOutcome own s
  | member2 => exact memberOutcome own s
  | collectiveAbandon => exact emptied.trans (enterReady _)
  | outvoted => exact (endService .serverLost none s).trans (setChan (some .catchup) _)
  | excluded =>
    have left : StaysIdle s (clearPrev (emptyJournal s)) := of_fields rfl rfl rfl rfl
    exact ((left.trans (setAgreed false _)).trans (endIfLost _)).trans (setChan (some .excluded) _)
  | noQuorum =>
    have lost : ∀ u, StaysIdle u (Machine.enterReady (Machine.endIfLost (Machine.setAgreed false u))) := fun u =>
      ((setAgreed false u).trans (endIfLost _)).trans (enterReady _)
    unfold Machine.applyOutcome noQuorumOutcome
    dsimp only
    split
    · exact ((of_fields (t := advance own s) rfl rfl rfl rfl).trans (staleDelta _)).trans (lost _)
    · exact emptied.trans (lost _)

theorem decided (o : VoteOutcome) (own : VoteFrame) (frames : PerLink (Option VoteFrame)) (s : State) :
    StaysIdle s (decided o own frames s) := by
  have viewed : ∀ u, StaysIdle u (setViews own frames u) := fun u => of_fields rfl rfl rfl rfl
  have recorded : ∀ d u, StaysIdle u (recordDecision d u) := fun d u => by
    rw [recordDecision_frame]
    exact of_fields rfl rfl rfl rfl
  exact (((applyOutcome o own s).trans (reconsiderMarks _)).trans (viewed _)).trans (recorded _ _)

theorem completeDecision (o : VoteOutcome) (server : Option Link) (own : VoteFrame)
    (frames : PerLink (Option VoteFrame)) (s : State) : StaysIdle s (completeDecision o server own frames s) := by
  rw [completeDecision_eq]
  refine (decided o own frames s).trans ?_
  unfold afterDecision
  split
  · have cleared : ∀ u, StaysIdle u (clearPrev u) := fun u => of_fields rfl rfl rfl rfl
    refine (cleared _).trans (of_keeps ?_ ?_ (.beginPull .delta _ _ _ (by decide))) <;> simp
  · exact testFull _
  · exact refl _

theorem takeDecision (s : State) : StaysIdle s (takeDecision s) := by
  have frames : StaysIdle s (takeFrames s) := of_fields (by simp) (by simp) (by simp) (by simp)
  have begun : ∀ m, StaysIdle s (toRollBack m s) := fun m =>
    (frames.trans (dropPermit (.outcome none) _)).trans ((of_fields (t := { Machine.dropPermit (.outcome none) (takeFrames s) with
      vtu := { (Machine.dropPermit (.outcome none) (takeFrames s)).vtu with deciding := some ⟨currents s, m⟩ } })
      rfl rfl rfl rfl).trans (setChan _ _))
  refine takeDecision_cases (P := fun t => StaysIdle s t) s (fun _ => refl s) (fun own o server _ _ => ?completed)
    (fun own m _ _ _ => ?undone) (fun own m _ _ _ => begun m)
  case completed =>
    refine .trans ?_ (completeDecision o server own _ _)
    unfold toDecide
    split
    · exact frames
    · exact frames.trans (dropPermit _ _)
  case undone =>
    rw [finishDecisionRollback_eq]
    refine ((begun m).trans ?_).trans (completeDecision _ none _ _ (rolledBack _))
    exact of_fields (by simp [rolledBack]) (by simp [rolledBack]) (by simp [rolledBack]) (by simp [rolledBack])

theorem linkChanged (s : State) : StaysIdle s (linkChanged s) := by
  have tested : StaysIdle s (testDecision s) := by
    unfold testDecision
    split
    · exact takeDecision s
    · exact refl s
  exact tested.trans (testFull _)

end StaysIdle

/-! ### A HELLO -/

/-- The match of a HELLO's fingerprint with the part's own (R119). -/
def helloMatch (fp : BitVec 16) (s : State) : Bool := fp == (if s.dev = .configuring then 0 else s.rgt.fingerprint)

/-- A HELLO that changes neither the link state nor the match. -/
def helloSame (l : Link) (fp : BitVec 16) (s : State) : Bool :=
  (s.lkc.peers.get l).heard && (s.lkc.peers.get l).matched == helloMatch fp s

/-- A HELLO of the pull's server that shows it serving (R147). -/
def helloRestarts (l : Link) (fp : BitVec 16) (f : HelloFields) (s : State) : Bool :=
  s.rse.pull.phase == .receiving && s.rse.pull.server == some l && helloMatch fp s && f.dev == .running && f.serviceBusy

/-- A HELLO of the requester that shows it no longer pulling (R157). -/
def helloEnds (l : Link) (f : HelloFields) (s : State) : Prop :=
  serving s = true ∧ s.rse.service.requester = some l ∧
    (s.rse.service.kind = some .delta ∧ (f.dev ≠ .running ∨ f.chan ≠ some .catchup) ∨
     s.rse.service.kind = some .full ∧ (f.dev ≠ .running ∨ f.chan ≠ some .restoring))

/-- The peer's record with a HELLO in it. -/
def Peer.greeted (p : Peer) (fp : BitVec 16) (f : HelloFields) (matched : Bool) (ms : BitVec 32) : Peer :=
  { p with heard := true, matched := matched, hello := some ⟨f, fp⟩, lastFrame := some ms }

/-- The part that has stored a HELLO and has restarted its pull silence timer for it. -/
def greeted (l : Link) (fp : BitVec 16) (f : HelloFields) (s : State) : State :=
  { s with
    lkc.peers := s.lkc.peers.put l ((s.lkc.peers.get l).greeted fp f (helloMatch fp s) s.cmu.ms)
    cmu :=
      if helloSame l fp s then s.cmu
      else (recordEvent (.peerState (peerPosition s.position l) true (helloMatch fp s)) s).cmu
    rse.pull.timer := if helloRestarts l fp f s then some s.times.pullSilence else s.rse.pull.timer }

/-- The part that has also ended the service that the HELLO ends. -/
def answered (l : Link) (fp : BitVec 16) (f : HelloFields) (s : State) : State := abortService l f (greeted l fp f s)

theorem restartSilence_eq (l : Link) (fp : BitVec 16) (f : HelloFields) (s u : State)
    (hp : u.rse.pull = s.rse.pull) (ht : u.times = s.times) :
    restartSilence l f (helloMatch fp s) u =
      { u with rse.pull.timer := if helloRestarts l fp f s then some s.times.pullSilence else s.rse.pull.timer } := by
  have iff : (u.rse.pull.phase = .receiving ∧ u.rse.pull.server = some l ∧ helloMatch fp s = true ∧ f.dev = .running ∧
      f.serviceBusy = true) ↔ helloRestarts l fp f s = true := by
    simp [helloRestarts, hp, and_assoc]
  unfold restartSilence
  by_cases h : helloRestarts l fp f s = true
  · rw [if_pos (iff.2 h), if_pos h, ht]
  · rw [if_neg (mt iff.1 h), if_neg h, ← hp]

/-- A HELLO is stored and acted on, in this order (notes/assumptions/44). -/
theorem receiveHello_eq (l : Link) (fp : BitVec 16) (f : HelloFields) (s : State) :
    receiveHello l fp f s =
      testFull (if (s.lkc.peers.get l).heard then answered l fp f s else testDecision (answered l fp f s)) := by
  have stored : restartSilence l f (helloMatch fp s)
      (if (s.lkc.peers.get l).heard = true ∧ (s.lkc.peers.get l).matched = helloMatch fp s then
        putPeer l ((s.lkc.peers.get l).greeted fp f (helloMatch fp s) s.cmu.ms) s
      else recordEvent (.peerState (peerPosition s.position l) true (helloMatch fp s))
        (putPeer l ((s.lkc.peers.get l).greeted fp f (helloMatch fp s) s.cmu.ms) s)) = greeted l fp f s := by
    rw [restartSilence_eq l fp f s _ (by split <;> rfl) (by split <;> rfl)]
    unfold greeted
    by_cases h : helloSame l fp s = true
    · rw [if_pos h, if_pos (by simpa [helloSame] using h)]
      rfl
    · rw [if_neg h, if_neg (by simpa [helloSame] using h)]
      rfl
  rw [answered, ← stored]
  rfl

theorem abortService_of_ends (l : Link) (f : HelloFields) (s : State) (h : helloEnds l f s) :
    abortService l f s = endService .aborted none s := by
  obtain ⟨hs, hl, hk⟩ := h
  unfold abortService
  rcases hk with ⟨hk, hf⟩ | ⟨hk, hf⟩ <;> simp only [hk] <;> exact if_pos ⟨hs, hl, hf⟩

theorem abortService_of_not_ends (l : Link) (f : HelloFields) (s : State) (h : ¬helloEnds l f s) :
    abortService l f s = s := by
  unfold abortService
  split
  case h_1 k hk =>
    refine if_neg fun ⟨hs, hl, hf⟩ => h ⟨hs, hl, ?_⟩
    cases k with
    | delta => exact .inl ⟨hk, hf⟩
    | full => exact .inr ⟨hk, hf⟩
  case h_2 => rfl

/-- The end of the service leaves everything but the service, its marks, the queues and the events. -/
theorem answered_frame (l : Link) (fp : BitVec 16) (f : HelloFields) (s : State) :
    answered l fp f s =
      { greeted l fp f s with
        cju := { s.cju with resend := (answered l fp f s).cju.resend }
        lkc.tx := (answered l fp f s).lkc.tx
        rse.service := (answered l fp f s).rse.service
        cmu := (answered l fp f s).cmu } := by
  by_cases h : helloEnds l f (greeted l fp f s)
  · rw [answered, abortService_of_ends l f _ h, endService_frame]
    rfl
  · rw [answered, abortService_of_not_ends l f _ h]
    rfl

theorem receiveHello_of_heard (l : Link) (fp : BitVec 16) (f : HelloFields) (s : State)
    (h : (s.lkc.peers.get l).heard = true) : receiveHello l fp f s = testFull (answered l fp f s) := by
  rw [receiveHello_eq, if_pos h]

theorem receiveHello_of_silent (l : Link) (fp : BitVec 16) (f : HelloFields) (s : State)
    (h : (s.lkc.peers.get l).heard = false) : receiveHello l fp f s = linkChanged (answered l fp f s) := by
  rw [receiveHello_eq, if_neg (by simp [h])]
  rfl

/-- What both tests after a HELLO keep, the HELLO's effect has. -/
theorem receiveHello_cases {P : State → Prop} (l : Link) (fp : BitVec 16) (f : HelloFields) (s : State)
    (heard : P (testFull (answered l fp f s))) (silent : P (linkChanged (answered l fp f s))) :
    P (receiveHello l fp f s) := by
  cases h : (s.lkc.peers.get l).heard with
  | true =>
    rw [receiveHello_of_heard l fp f s h]
    exact heard
  | false =>
    rw [receiveHello_of_silent l fp f s h]
    exact silent

theorem receiveHello_peers (l m : Link) (fp : BitVec 16) (f : HelloFields) (s : State) :
    ∃ v, (receiveHello l fp f s).lkc.peers.get m = { (greeted l fp f s).lkc.peers.get m with view := v } := by
  have peers : (answered l fp f s).lkc.peers = (greeted l fp f s).lkc.peers := by rw [answered_frame]
  refine receiveHello_cases (P := fun t => ∃ v, t.lkc.peers.get m = { (greeted l fp f s).lkc.peers.get m with view := v })
    l fp f s ⟨((greeted l fp f s).lkc.peers.get m).view, by simp [peers]⟩ ?_
  obtain ⟨v, hv⟩ := linkChanged_peers (answered l fp f s) m
  exact ⟨v, by rw [hv, peers]⟩

/-- The kinds of the events that a HELLO can record besides its PEER_STATE. -/
def afterHello (b : EventBody) : Prop := ∀ n h m, b ≠ .peerState n h m

theorem afterHello_of_decision {b : EventBody} (h : ofDecision b) : afterHello b := by
  rintro n h' m rfl
  rcases h with h | ⟨_, _, _, h⟩
  · exact h
  · cases h

theorem Records.weaken {a b : EventBody → Prop} {n : Nat} {s t : State} (h : Records a n s t) (hb : ∀ x, a x → b x) :
    Records b n s t :=
  let ⟨more, ht, hm, ha⟩ := h
  ⟨more, ht, hm, fun r hr => hb _ (ha r hr)⟩

/-- What follows the HELLO's own effect records no PEER_STATE. -/
theorem Records.tested (l : Link) (fp : BitVec 16) (f : HelloFields) (s : State) :
    ∃ n, Records afterHello n (answered l fp f s) (receiveHello l fp f s) := by
  refine receiveHello_cases (P := fun t => ∃ n, Records afterHello n (answered l fp f s) t) l fp f s ⟨2, ?_⟩ ?_
  · exact .testFull _ (fun _ _ _ hc => by cases hc) fun _ _ _ _ hc => by cases hc
  · obtain ⟨n, hn⟩ := Records.linkChanged (answered l fp f s)
    exact ⟨n, hn.weaken fun _ => afterHello_of_decision⟩

theorem Records.receiveHello (l : Link) (fp : BitVec 16) (f : HelloFields) (s : State) :
    ∃ n, Records afterHello n (greeted l fp f s) (receiveHello l fp f s) := by
  have ended : Records afterHello 1 (greeted l fp f s) (answered l fp f s) := by
    by_cases h : helloEnds l f (greeted l fp f s)
    · rw [answered, abortService_of_ends l f _ h]
      exact .endService _ _ _ fun _ _ _ _ hc => by cases hc
    · rw [answered, abortService_of_not_ends l f _ h]
      exact .of_eq rfl
  obtain ⟨n, hn⟩ := tested l fp f s
  exact ⟨_, ended.trans hn⟩

/-- A PEER_STATE in the queue was there: the events of a step's end are of other kinds. -/
theorem fresh_rule (old : List Record) :
    EventRule afterHello (fun es => ∀ r ∈ es, r ∈ old ∨ afterHello r.body) where
  refused _ _ _ _ _ := fun _ _ _ hc => by cases hc
  ended _ _ := fun _ _ _ hc => by cases hc
  append es r hb h := fun x hx => by
    rcases List.mem_append.1 hx with hx | hx
    · exact h x hx
    · rw [List.mem_singleton.1 hx]
      exact .inr hb
  extend es r reason ini a region n _ h := fun x hx => by
    rcases List.mem_append.1 hx with hx | hx
    · exact h x (List.mem_append_left _ hx)
    · rw [List.mem_singleton.1 hx]
      exact .inr fun _ _ _ hc => by cases hc

theorem exec_helloReceived (l : Link) (fp : BitVec 16) (f : HelloFields) (s : State) (hr : s.resetLow = false)
    (hp : s.position ≠ 3) : exec (.helloReceived l fp f) s = .next (settle (receiveHello l fp f s)) :=
  congrArg Host.Outcome.next (receive_of_ready l ⟨fp, .hello f⟩ s hr hp)

/-- What a HELLO leaves as it is. -/
theorem receiveHello_keeps (l : Link) (fp : BitVec 16) (f : HelloFields) (s : State) :
    (receiveHello l fp f s).mpu = s.mpu ∧ (receiveHello l fp f s).sgu = s.sgu ∧
      (receiveHello l fp f s).cju.repair = s.cju.repair ∧ (receiveHello l fp f s).dev = s.dev ∧
      (receiveHello l fp f s).rgt.fingerprint = s.rgt.fingerprint ∧
      (receiveHello l fp f s).rse.pull.attempts = s.rse.pull.attempts := by
  have frame := answered_frame l fp f s
  have kept : ∀ t : State, t.mpu = (answered l fp f s).mpu ∧ t.sgu = (answered l fp f s).sgu ∧
      t.cju.repair = (answered l fp f s).cju.repair ∧ t.dev = (answered l fp f s).dev ∧
      t.rgt.fingerprint = (answered l fp f s).rgt.fingerprint ∧
      t.rse.pull.attempts = (answered l fp f s).rse.pull.attempts →
      t.mpu = s.mpu ∧ t.sgu = s.sgu ∧ t.cju.repair = s.cju.repair ∧ t.dev = s.dev ∧
      t.rgt.fingerprint = s.rgt.fingerprint ∧ t.rse.pull.attempts = s.rse.pull.attempts := by
    intro t ht
    rw [frame] at ht
    exact ht
  exact receiveHello_cases (P := fun t => t.mpu = s.mpu ∧ t.sgu = s.sgu ∧ t.cju.repair = s.cju.repair ∧ t.dev = s.dev ∧
    t.rgt.fingerprint = s.rgt.fingerprint ∧ t.rse.pull.attempts = s.rse.pull.attempts) l fp f s (kept _ (by simp))
    (kept _ (by simp))

/-- Of the patrol's records a HELLO can set only `turned`. -/
theorem receiveHello_ptu (l : Link) (fp : BitVec 16) (f : HelloFields) (s : State) :
    (receiveHello l fp f s).ptu = { s.ptu with turned := (receiveHello l fp f s).ptu.turned } := by
  have ptu : (answered l fp f s).ptu = s.ptu := by rw [answered_frame]; rfl
  refine receiveHello_cases (P := fun t => t.ptu = { s.ptu with turned := t.ptu.turned }) l fp f s ?_ ?_
  · simp [ptu]
  · rw [linkChanged_ptu, ptu]

/-- Where the part is not voting and no pull is due, a HELLO does no more than what is stored and ended. -/
theorem receiveHello_of_quiet (l : Link) (fp : BitVec 16) (f : HelloFields) (s : State)
    (hd : ¬Claim.pullDue (answered l fp f s))
    (hv : s.cju.chan = some .voting → (s.lkc.peers.get l).heard = true ∨ ∃ m, Claim.awaits (answered l fp f s) m) :
    receiveHello l fp f s = answered l fp f s := by
  have chan : (answered l fp f s).cju.chan = s.cju.chan := by rw [answered_frame]
  cases hh : (s.lkc.peers.get l).heard with
  | true => rw [receiveHello_of_heard l fp f s hh, testFull_of_not_due _ hd]
  | false =>
    rw [receiveHello_of_silent l fp f s hh]
    refine linkChanged_of_quiet _ hd fun h => (hv (chan ▸ h)).resolve_left (by simp [hh])

/-- The end of the service does not matter to the test of R143. -/
theorem pullDue_answered_iff (l : Link) (fp : BitVec 16) (f : HelloFields) (s : State) :
    Claim.pullDue (answered l fp f s) ↔ Claim.pullDue (greeted l fp f s) := by
  have peers : ∀ m, eligible (answered l fp f s) m = eligible (greeted l fp f s) m := eligible_congr (by rw [answered_frame])
  have chan : (answered l fp f s).cju.chan = (greeted l fp f s).cju.chan := by rw [answered_frame]; rfl
  have pull : (answered l fp f s).rse.pull = (greeted l fp f s).rse.pull := by rw [answered_frame]
  simp only [Claim.pullDue, pulling, peers, chan, pull]

theorem awaits_answered_iff (l m : Link) (fp : BitVec 16) (f : HelloFields) (s : State) :
    Claim.awaits (answered l fp f s) m ↔ Claim.awaits (greeted l fp f s) m := by
  rw [answered_frame]
  rfl

/-- The service that a HELLO has ended stays ended, with its PULL_END queued and recorded. -/
theorem helloEnds_claim (l : Link) (fp : BitVec 16) (f : HelloFields) (s : State) (hp : s.position ≠ 3)
    (h : helloEnds l f s) :
    (settle (receiveHello l fp f s)).rse.service.phase = .idle ∧ (settle (receiveHello l fp f s)).rse.service.timer = none ∧
      (settle (receiveHello l fp f s)).cju.resend = [] ∧
      Claim.queued l (.pullEnd ⟨.aborted, s.cju.cycle, BitVec.ofNat 32 s.rse.service.sent, none⟩) s
        (settle (receiveHello l fp f s)) ∧
      (s.cmu.events.length < 63 → ∃ r ∈ (settle (receiveHello l fp f s)).cmu.events,
        r.body = .serviceEnded (peerPosition s.position l) .aborted) := by
  have ended : answered l fp f s = endService .aborted none (greeted l fp f s) := abortService_of_ends l f _ h
  have frame := endService_of_serving .aborted none l (greeted l fp f s) h.1 h.2.1
  have idle : (answered l fp f s).rse.service.phase = .idle := by rw [ended, frame]; rfl
  have marks : (answered l fp f s).cju.resend = [] := by rw [ended, frame]
  have stays : StaysIdle (answered l fp f s) (receiveHello l fp f s) :=
    receiveHello_cases (P := StaysIdle (answered l fp f s)) l fp f s (.testFull _) (.linkChanged _)
  obtain ⟨idle', marks', waits⟩ := stays idle
  have waiting := waits.ctrl (ended ▸ (endService_tx .aborted none l (greeted l fp f s) h.1 h.2.1).2 hp) rfl
  refine ⟨?_, ?_, ?_, queued_settle l _ s _ waiting (by simp [ctrlKind]) (.inr idle'), fun room => ?_⟩
  · rw [service_settle_idle _ idle']
    exact idle'
  · rw [service_settle_idle _ idle']
  · rw [settle_resend, marks', marks]
  · have stored : (greeted l fp f s).cmu.events.length < 64 := by
      unfold greeted
      dsimp only
      split
      · omega
      · have := length_events_recordEvent_le (.peerState (peerPosition s.position l) true (helloMatch fp s)) s
        omega
    obtain ⟨r, hr, hb⟩ := exists_mem_events_recordEvent (.serviceEnded (peerPosition s.position l) .aborted)
      (greeted l fp f s) stored
    have recorded : r ∈ (answered l fp f s).cmu.events := by
      rw [ended, frame]
      exact hr
    obtain ⟨n, hn⟩ := Records.tested l fp f s
    exact ⟨r, mem_events_settle _ r (by simp [hb, eventKind]) (hn.mem recorded), hb⟩

/-- Settles O47: a HELLO is stored, may restart a pull and end a service, and then brings what the change of link state brings. -/
theorem helloUpdatesThePeer : Obligations.HelloUpdatesThePeer := by
  intro l fp f s hr hp
  have ran := exec_helloReceived l fp f s hr hp
  obtain ⟨mpu, sgu, repair, dev, fingerprint, attempts⟩ := receiveHello_keeps l fp f s
  refine ⟨⟨_, ran, ?view, by simpa using mpu, by simpa using sgu, ?ptu, by simpa using repair, by simpa using dev,
    by simpa using fingerprint, fun hs room => ?event, fun hs => ?same, fun hrs hv => ?restarts,
    helloEnds_claim l fp f s hp, fun hd => ?due, fun he hd hv => ?quiet, fun hv hx => ?apart⟩,
    fun hv ht hh hall => ⟨answered l fp f s, ?decides, answered_frame l fp f s, fun he => ?stays, fun he => ?ends⟩⟩
  case view =>
    obtain ⟨v, hv⟩ := receiveHello_peers l l fp f s
    refine ⟨v, ?_⟩
    simp only [settle_keeps, hv]
    simp only [greeted, PerLink.get_put, if_pos]
    rfl
  case ptu =>
    simp only [settle_keeps]
    exact receiveHello_ptu l fp f s
  case event =>
    obtain ⟨r, hr, hb⟩ := exists_mem_events_recordEvent (.peerState (peerPosition s.position l) true (helloMatch fp s)) s room
    have stored : r ∈ (greeted l fp f s).cmu.events := by
      have changes : helloSame l fp s = false := hs
      simpa [greeted, changes] using hr
    obtain ⟨n, hn⟩ := Records.receiveHello l fp f s
    exact ⟨r, mem_events_settle _ r (by simp [hb, eventKind]) (hn.mem stored), hb⟩
  case same =>
    obtain ⟨n, hn⟩ := Records.receiveHello l fp f s
    have stored : (greeted l fp f s).cmu.events = s.cmu.events := by
      have stays : helloSame l fp s = true := hs
      simp [greeted, stays]
    exact (fresh_rule s.cmu.events).settle _ fun r hr => stored ▸ hn.fresh hr
  case restarts =>
    have restarts : helloRestarts l fp f s = true := hrs
    have frame := answered_frame l fp f s
    have idle : ¬Claim.pullDue (answered l fp f s) := by
      rintro ⟨-, -, hn, -⟩
      have receiving : (answered l fp f s).rse.pull.phase = .receiving := by
        rw [frame]
        have := restarts
        simp only [helloRestarts, Bool.and_eq_true, beq_iff_eq] at this
        exact this.1.1.1.1
      simp [pulling, receiving] at hn
    rw [receiveHello_of_quiet l fp f s idle fun h => absurd h hv]
    simp only [settle_keeps]
    rw [frame]
    simp [greeted, restarts]
  case due =>
    have pulls : Claim.pullDue (answered l fp f s) := (pullDue_answered_iff l fp f s).2 hd
    have excluded : (answered l fp f s).cju.chan ≠ some .voting := by simp [pulls.1]
    have starts : (receiveHello l fp f s).cju.chan = some .restoring ∧ (receiveHello l fp f s).rse.pull.phase = .receiving ∧
        (receiveHello l fp f s).rse.pull.kind = some .full := by
      refine receiveHello_cases (P := fun t => t.cju.chan = some .restoring ∧ t.rse.pull.phase = .receiving ∧
        t.rse.pull.kind = some .full) l fp f s (testFull_starts _ pulls) ?_
      rw [linkChanged_of_not_voting _ excluded]
      exact testFull_starts _ pulls
    simp only [settle_keeps]
    exact ⟨starts.1, starts.2.1, starts.2.2, attempts⟩
  case quiet =>
    have same : answered l fp f s = greeted l fp f s := abortService_of_not_ends l f (greeted l fp f s) he
    rw [receiveHello_of_quiet l fp f s (same ▸ hd) (same ▸ hv), same]
    exact settle_end (greeted l fp f s)
  case apart =>
    have frame := answered_frame l fp f s
    have idle : ¬Claim.pullDue (answered l fp f s) := not_pullDue_of_chan _ (by rw [frame]; exact hx)
    rw [receiveHello_of_quiet l fp f s idle fun h => absurd h hv]
    simp only [settle_keeps, settle_cju]
    rw [frame]
    refine ⟨rfl, rfl, rfl, rfl, ?_⟩
    cases l <;> rfl
  case decides =>
    have all : ∀ m, ¬Claim.awaits (answered l fp f s) m := fun m h => hall m ((awaits_answered_iff l m fp f s).1 h)
    have frame := answered_frame l fp f s
    have voting : (answered l fp f s).cju.chan = some .voting := by rw [frame]; exact hv
    rw [ran, receiveHello_of_silent l fp f s hh, linkChanged_of_decision _ voting all]
    exact (exec_voteTimerExpiry _ (by rw [frame]; exact hr) voting (by rw [frame]; exact ht)).symm
  case stays => exact abortService_of_not_ends l f (greeted l fp f s) he
  case ends =>
    have ended : answered l fp f s = endService .aborted none (greeted l fp f s) :=
      abortService_of_ends l f (greeted l fp f s) he
    rw [ended, endService_of_serving .aborted none l (greeted l fp f s) he.1 he.2.1]
    exact ⟨rfl, rfl⟩

end Sys2Proof.Machine
end

section
/-! PROOFS. What R127 rules: agreement (R126), the majorities and the lines of the table. -/

namespace Sys2Proof.Machine

open Sys2Proof

/-! ### Agreement (R126) -/

theorem entryAgrees_iff (a b : SigEntry) : entryAgrees a b = true ↔ Claim.entriesAgree a b := by
  unfold entryAgrees Claim.entriesAgree
  cases a.flag <;> cases b.flag <;> simp

theorem framesAgree_iff (f g : VoteFrame) : framesAgree f g = true ↔ Claim.agree f g := by
  have slot : ∀ k, entryAgrees (f.entries.getD k ⟨.reserved, 0⟩) (g.entries.getD k ⟨.reserved, 0⟩) = true ↔
      ∃ a b, f.entries[k]? = some a ∧ g.entries[k]? = some b ∧ Claim.entriesAgree a b := by
    intro k
    rw [List.getD_eq_getElem?_getD, List.getD_eq_getElem?_getD, entryAgrees_iff]
    cases f.entries[k]? <;> cases g.entries[k]? <;> simp [Claim.entriesAgree]
  unfold framesAgree Claim.agree
  simp only [Bool.and_eq_true, beq_iff_eq, List.all_eq_true, List.mem_range, slot, and_assoc, Config.sigSlots]

/-- The peer's frame is in the own class exactly where it agrees. -/
theorem peerAgrees_iff (own : VoteFrame) (s : State) (l : Link) :
    peerAgrees own (currentFrame s l) = true ↔ Claim.joins own s l := by
  have joins : Claim.joins own s l ↔ ∃ g, currentFrame s l = some g ∧ Claim.agree own g := Iff.rfl
  rw [joins]
  unfold peerAgrees
  cases currentFrame s l with
  | none => simp
  | some g => simp [framesAgree_iff]

theorem peerAgrees_eq_false_iff (own : VoteFrame) (s : State) (l : Link) :
    peerAgrees own (currentFrame s l) = false ↔ ¬Claim.joins own s l := by
  rw [← peerAgrees_iff, Bool.not_eq_true]

/-- Some peer joins the own class. -/
theorem exists_joins_iff (own : VoteFrame) (s : State) :
    (∃ l, Claim.joins own s l) ↔
      (peerAgrees own (currentFrame s .one) || peerAgrees own (currentFrame s .two)) = true := by
  rw [Bool.or_eq_true, peerAgrees_iff, peerAgrees_iff]
  constructor
  · rintro ⟨_ | _, h⟩
    · exact .inl h
    · exact .inr h
  · exact fun h => h.elim (fun h => ⟨_, h⟩) fun h => ⟨_, h⟩

theorem forall_joins_iff (own : VoteFrame) (s : State) :
    (∀ l, Claim.joins own s l) ↔
      (peerAgrees own (currentFrame s .one) && peerAgrees own (currentFrame s .two)) = true := by
  rw [Bool.and_eq_true, peerAgrees_iff, peerAgrees_iff]
  exact ⟨fun h => ⟨h .one, h .two⟩, fun h l => by cases l; exacts [h.1, h.2]⟩

/-- The majority of the peers, where none joins the own class. -/
theorem peerMajority_iff (own p : VoteFrame) (s : State) (h : ∀ l, ¬Claim.joins own s l) :
    peerMajority own (currents s) = some p ↔ Claim.outside own s p := by
  have alone : ∀ g, currentFrame s .one = some g → framesAgree own g = false := fun g hg => by
    have := (peerAgrees_eq_false_iff own s .one).2 (h .one)
    rw [hg] at this
    exact this
  have outside : Claim.outside own s p ↔
      ∃ q, currentFrame s .one = some p ∧ currentFrame s .two = some q ∧ Claim.agree p q :=
    ⟨fun ho => ho.2, fun ho => ⟨h, ho⟩⟩
  rw [outside]
  unfold peerMajority currents
  cases h1 : currentFrame s .one with
  | none => simp
  | some g =>
    cases h2 : currentFrame s .two with
    | none => simp
    | some q =>
      have apart := alone g h1
      simp only [apart, Bool.not_false, Bool.and_true, framesAgree_iff, Option.ite_none_right_eq_some, Option.some.injEq]
      constructor
      · rintro ⟨ha, rfl⟩
        exact ⟨q, rfl, rfl, ha⟩
      · rintro ⟨_, rfl, rfl, ha⟩
        exact ⟨ha, rfl⟩

/-! ### The lines of the table (R127) -/

theorem anyUnlocated_iff (s : State) : anyUnlocated s = false ↔
    ∀ e ∈ s.rgt.entries, e.2.desc.signed = true → e.2.state ≠ .suspectUnlocated := by
  simp [anyUnlocated]

/-- The link that leads to the lower position (R131). -/
theorem head?_linksByPosition_iff (s : State) (l : Link) : (linksByPosition s).head? = some l ↔
    ∀ m, m ≠ l → peerPosition s.position l < peerPosition s.position m := by
  have found := find?_linksByPosition_iff s (fun _ => true) l
  have head : (linksByPosition s).find? (fun _ => true) = (linksByPosition s).head? := by
    cases linksByPosition s <;> rfl
  rw [← head, found]
  simp

theorem exists_lower (s : State) : ∃ l, ∀ m, m ≠ l → peerPosition s.position l < peerPosition s.position m := by
  have some : ∃ l, (linksByPosition s).head? = some l := by
    unfold linksByPosition
    split <;> exact ⟨_, rfl⟩
  exact some.imp fun l => (head?_linksByPosition_iff s l).1

/-- With a peer in the own class the own kind decides. -/
theorem rule_of_joins (own : VoteFrame) (s : State) (h : ∃ l, Claim.joins own s l) :
    rule s own (currents s) =
      match own.kind with
      | .closed => .outcome (if peerAgrees own (currentFrame s .one) && peerAgrees own (currentFrame s .two) then .member3
          else .member2) none
      | .abandoned => .outcome .collectiveAbandon none :=
  (if_pos ((exists_joins_iff own s).1 h)).trans rfl

/-- With a majority of the peers its frame and the own one decide. -/
theorem rule_of_outside (own p : VoteFrame) (s : State) (h : Claim.outside own s p) :
    (Claim.undoes own s p → rule s own (currents s) = .rollback p) ∧
      (¬Claim.undoes own s p → Claim.catchesUp own s p →
        rule s own (currents s) = .outcome .outvoted (linksByPosition s).head?) ∧
      (¬Claim.undoes own s p → ¬Claim.catchesUp own s p → rule s own (currents s) = .outcome .excluded none) := by
  have alone : ¬(peerAgrees own (currents s).one || peerAgrees own (currents s).two) = true := fun hj =>
    let ⟨l, hl⟩ := (exists_joins_iff own s).2 hj
    h.1 l hl
  have majority := (peerMajority_iff own p s h.1).2 h
  have unlocated := anyUnlocated_iff s
  unfold rule
  dsimp only
  rw [if_neg alone]
  simp only [majority]
  refine ⟨fun hu => if_pos hu, fun hu hc => (if_neg hu).trans (if_pos ?_), fun hu hc => (if_neg hu).trans (if_neg ?_)⟩
  · rw [unlocated]
    exact hc
  · rw [unlocated]
    exact hc

/-- With no majority at all the decision lacks a quorum. -/
theorem rule_of_none (own : VoteFrame) (s : State) (hj : ∀ l, ¬Claim.joins own s l) (ho : ∀ p, ¬Claim.outside own s p) :
    rule s own (currents s) =
      .outcome (if own.kind = .abandoned ∧ s.cju.unrevertible = true then .excluded else .noQuorum) none := by
  have alone : ¬(peerAgrees own (currents s).one || peerAgrees own (currents s).two) = true := fun h =>
    let ⟨l, hl⟩ := (exists_joins_iff own s).2 h
    hj l hl
  have majority : peerMajority own (currents s) = none :=
    Option.eq_none_iff_forall_ne_some.2 fun p hp => ho p ((peerMajority_iff own p s hj).1 hp)
  unfold rule
  dsimp only
  rw [if_neg alone]
  simp only [majority]
  split <;> rfl

/-- The table over the frames is the ruling over them (R127). -/
theorem rules_iff (own : VoteFrame) (r : Ruling) (s : State) :
    Claim.rules own s r ↔ rule s own (currents s) = r := by
  constructor
  · rintro (⟨hk, hall, rfl⟩ | ⟨hk, hj, ⟨m, hm⟩, rfl⟩ | ⟨hk, hj, rfl⟩ | ⟨p, ho, hu, rfl⟩ | ⟨p, l, ho, hc, hl, rfl⟩ |
      ⟨p, ho, hu, hc, rfl⟩ | ⟨hj, ho, rfl⟩)
    · rw [rule_of_joins own s ⟨.one, hall .one⟩, hk, (forall_joins_iff own s).1 hall]
      rfl
    · have notAll : ¬(peerAgrees own (currentFrame s .one) && peerAgrees own (currentFrame s .two)) = true := fun h =>
        hm ((forall_joins_iff own s).2 h m)
      rw [rule_of_joins own s hj, hk]
      simp [notAll]
    · rw [rule_of_joins own s hj, hk]
    · exact (rule_of_outside own p s ho).1 hu
    · have other : ¬Claim.undoes own s p := fun hu => by
        have kinds := hu.1.symm.trans hc.1
        cases kinds
      rw [(rule_of_outside own p s ho).2.1 other hc, (head?_linksByPosition_iff s l).2 hl]
    · exact (rule_of_outside own p s ho).2.2 hu hc
    · exact rule_of_none own s hj ho
  · rintro rfl
    by_cases hj : ∃ l, Claim.joins own s l
    · rw [rule_of_joins own s hj]
      cases hk : own.kind with
      | abandoned => exact .inr (.inr (.inl ⟨hk, hj, rfl⟩))
      | closed =>
        by_cases hall : ∀ l, Claim.joins own s l
        · refine .inl ⟨hk, hall, ?_⟩
          rw [(forall_joins_iff own s).1 hall]
          rfl
        · refine .inr (.inl ⟨hk, hj, not_forall.1 hall, ?_⟩)
          simp [mt (forall_joins_iff own s).2 hall]
    · have alone : ∀ l, ¬Claim.joins own s l := not_exists.1 hj
      by_cases ho : ∃ p, Claim.outside own s p
      · obtain ⟨p, ho⟩ := ho
        obtain ⟨undone, outvoted, excluded⟩ := rule_of_outside own p s ho
        by_cases hu : Claim.undoes own s p
        · exact .inr (.inr (.inr (.inl ⟨p, ho, hu, undone hu⟩)))
        by_cases hc : Claim.catchesUp own s p
        · obtain ⟨l, hl⟩ := exists_lower s
          refine .inr (.inr (.inr (.inr (.inl ⟨p, l, ho, hc, hl, ?_⟩))))
          rw [outvoted hu hc, (head?_linksByPosition_iff s l).2 hl]
        · exact .inr (.inr (.inr (.inr (.inr (.inl ⟨p, ho, hu, hc, excluded hu hc⟩)))))
      · exact .inr (.inr (.inr (.inr (.inr (.inr ⟨alone, not_exists.1 ho, rule_of_none own s alone (not_exists.1 ho)⟩)))))

/-- A frame whose entries are all SUSPECT agrees with none. -/
theorem not_agree_of_suspect (own g : VoteFrame) (h : ∀ e ∈ own.entries, e.flag = .suspect) : ¬Claim.agree own g := by
  rintro ⟨-, -, slots⟩
  obtain ⟨a, b, ha, -, he⟩ := slots 0 (by decide)
  have flag := h a (List.mem_of_getElem? ha)
  rcases he with ⟨h1, -⟩ | ⟨h1, -⟩ <;> rw [flag] at h1 <;> cases h1

/-- The frame of R78 is EXCLUDED. -/
theorem rules_excluded_of_suspect (own : VoteFrame) (s : State) (hk : own.kind = .abandoned)
    (hu : s.cju.unrevertible = true) (h : ∀ e ∈ own.entries, e.flag = .suspect) :
    Claim.rules own s (.outcome .excluded none) := by
  have alone : ∀ l, ¬Claim.joins own s l := fun l ⟨g, _, ha⟩ => not_agree_of_suspect own g h ha
  by_cases ho : ∃ p, Claim.outside own s p
  · obtain ⟨p, ho⟩ := ho
    refine .inr (.inr (.inr (.inr (.inr (.inl ⟨p, ho, fun hn => ?_, fun hn => ?_, rfl⟩)))))
    · have := hn.2.1
      rw [hk] at this
      cases this
    · have := hn.2.2.1
      rw [hu] at this
      cases this
  · refine .inr (.inr (.inr (.inr (.inr (.inr ⟨alone, not_exists.1 ho, ?_⟩)))))
    rw [if_pos ⟨hk, hu⟩]

/-! ### The agreeing set and the views (R126, R134) -/

theorem getLsbD_positionBit (m n : Nat) (hn : n < 3) : (positionBit m).getLsbD n = true ↔ n = m := by
  have power : (BitVec.twoPow 3 m).getLsbD n = (decide (m < 3) && decide (m = n)) := BitVec.getLsbD_twoPow m n
  rw [positionBit, show (1 : BitVec 3) <<< m = BitVec.twoPow 3 m from rfl, power, Bool.and_eq_true, decide_eq_true_eq,
    decide_eq_true_eq]
  omega

theorem agreeingSet_claim (own : VoteFrame) (s : State) :
    Claim.agreeing own s (agreeingSet s.position own (currents s)) := by
  have peer : ∀ (l : Link) (n : Nat), n < 3 →
      ((if peerAgrees own (currentFrame s l) then positionBit (peerPosition s.position l) else 0).getLsbD n = true ↔
        Claim.joins own s l ∧ peerPosition s.position l = n) := by
    intro l n hn
    rw [← peerAgrees_iff]
    split
    case isTrue h => rw [getLsbD_positionBit _ n hn, h]; simp [eq_comm]
    case isFalse h => simp [h]
  intro n hn
  unfold agreeingSet
  rw [BitVec.getLsbD_or, BitVec.getLsbD_or, Bool.or_eq_true, Bool.or_eq_true, getLsbD_positionBit _ n hn, currents,
    peer .one n hn, peer .two n hn, or_assoc]
  refine or_congr Iff.rfl ⟨fun h => h.elim (fun h => ⟨_, h⟩) fun h => ⟨_, h⟩, ?_⟩
  rintro ⟨_ | _, h⟩
  · exact .inl h
  · exact .inr h

/-- The view that a decision leaves of a peer. -/
theorem viewAt_claim (own : VoteFrame) (s : State) (l : Link) :
    (Claim.joins own s l → viewAt own (currentFrame s l) = .member) ∧
      (∀ g, Claim.present s l g → ¬Claim.agree own g →
        viewAt own (currentFrame s l) = match g.kind with | .abandoned => .abandoned | .closed => .dissent) ∧
      ((∀ g, ¬Claim.present s l g) → viewAt own (currentFrame s l) = .absent) := by
  refine ⟨fun ⟨g, hg, ha⟩ => ?_, fun g hg ha => ?_, fun hn => ?_⟩
  · have current : currentFrame s l = some g := hg
    rw [current]
    exact if_pos ((framesAgree_iff own g).2 ha)
  · have current : currentFrame s l = some g := hg
    rw [current]
    exact (if_neg (mt (framesAgree_iff own g).1 ha)).trans (by cases g.kind <;> rfl)
  · have current : currentFrame s l = none := Option.eq_none_iff_forall_ne_some.2 hn
    rw [current]
    rfl

theorem get_currents (s : State) (l : Link) : (currents s).get l = currentFrame s l := by cases l <;> rfl

/-- A completed decision leaves the views that its frames give. -/
theorem viewed_of_views (own : VoteFrame) (s t : State)
    (h : ∀ l, t.lkc.peers.get l = { s.lkc.peers.get l with view := viewAt own (currentFrame s l) }) :
    Claim.viewed own s t := by
  intro l
  rw [h l]
  exact ⟨rfl, viewAt_claim own s l⟩

end Sys2Proof.Machine
end

section
/-! PROOFS. The effects of the outcomes (R128 to R133), field by field. -/

namespace Sys2Proof.Machine

open Sys2Proof

/-! ### The parts of an effect -/

@[simp] theorem Cmu.withEvents_withEvents (c d e : Cmu) : c.withEvents (d.withEvents e) = c.withEvents e := rfl

@[simp] theorem Cmu.withEvents_left (c d e : Cmu) : (c.withEvents d).withEvents e = c.withEvents e := rfl

theorem markResend_frame (s : State) :
    markResend s = { s with cju := { s.cju with resend := (markResend s).cju.resend } } := by
  unfold markResend
  split <;> rfl

theorem staleDelta_frame (s : State) :
    staleDelta s =
      { s with
        cju := { s.cju with resend := (staleDelta s).cju.resend }
        lkc.tx := (staleDelta s).lkc.tx
        rse.service := (staleDelta s).rse.service
        cmu := s.cmu.withEvents (staleDelta s).cmu } := by
  unfold staleDelta
  split
  · exact endService_frame .stale none s
  · rfl

theorem endIfLost_frame (s : State) :
    endIfLost s =
      { s with
        cju := { s.cju with resend := (endIfLost s).cju.resend }
        lkc.tx := (endIfLost s).lkc.tx
        rse.service := (endIfLost s).rse.service
        cmu := s.cmu.withEvents (endIfLost s).cmu } := by
  unfold endIfLost
  split
  · rfl
  · exact endService_frame .serverLost none s

theorem raisePermit_frame (s : State) :
    raisePermit s = { s with vtu := { s.vtu with permitted := true, level := (raisePermit s).vtu.level } } := by
  unfold raisePermit
  split
  case isTrue h => rw [← h]
  case isFalse => rfl

/-- With PERMIT off a move of the channel leaves the vote unit as it is. -/
theorem Vtu.toChan_off (v : Vtu) (a b : Option ChannelState) (h : v.permitted = false) : v.toChan a b = v := by
  unfold Vtu.toChan
  split
  · rfl
  · cases v
    simp_all [Vtu.dropped]

/-! ### The cycle journal unit after an outcome -/

/-- The cycle has closed: c has advanced, and W_CUR is W_PREV (R128, R133). -/
def Cju.closed (c : Cju) : Cju :=
  { c with
    chan := some .ready, cycle := c.cycle + 1, wPrev := c.wCur, wPrevValid := true, wCur := [], journal := [],
    unrevertible := false }

/-- The cycle is repeated: READY on the same c (R129, R133). -/
def Cju.repeated (c : Cju) : Cju := { c with chan := some .ready, wCur := [], journal := [], unrevertible := false }

/-- The part is excluded (R132). -/
def Cju.shut (c : Cju) : Cju :=
  { c with chan := some .excluded, wPrev := [], wPrevValid := false, wCur := [], journal := [], unrevertible := false }

/-- The cycle journal unit that an outcome leaves, but for the RESEND marks. -/
def Cju.outcome (c : Cju) (o : VoteOutcome) (kind : VoteKind) : Cju :=
  match o, kind with
  | .member3, _ => c.closed
  | .member2, _ => c.closed
  | .collectiveAbandon, _ => c.repeated
  | .noQuorum, .closed => c.closed
  | .noQuorum, .abandoned => c.repeated
  | .outvoted, _ => { c with chan := some .catchup }
  | .excluded, _ => c.shut

/-- The vote unit that a membership leaves: PERMIT goes on unless a signed region is SUSPECT (R128, R136). -/
theorem memberOutcome_frame (own : VoteFrame) (s : State) :
    memberOutcome own s =
      { s with
        cju := { s.cju.closed with resend := (memberOutcome own s).cju.resend }
        vtu := { s.vtu with
          closedSet := own.entries, agreedBase := true, permitted := s.vtu.permitted || !anySuspect s,
          level := (memberOutcome own s).vtu.level }
        rse.service := (memberOutcome own s).rse.service
        lkc.tx := (memberOutcome own s).lkc.tx
        cmu := s.cmu.withEvents (memberOutcome own s).cmu } := by
  have closed : ∀ u : State, u = enterReady (setAgreed true (staleDelta (advance own (markResend s)))) →
      u = { s with
        cju := { s.cju.closed with resend := u.cju.resend }
        vtu := { s.vtu with closedSet := own.entries, agreedBase := true }
        rse.service := u.rse.service
        lkc.tx := u.lkc.tx
        cmu := s.cmu.withEvents u.cmu } := by
    rintro u rfl
    rw [enterReady_frame, setAgreed_frame, staleDelta_frame, markResend_frame]
    rfl
  have frame := closed _ rfl
  have suspects : anySuspect (enterReady (setAgreed true (staleDelta (advance own (markResend s))))) = anySuspect s := by
    rw [frame]
    rfl
  unfold memberOutcome
  dsimp only
  rw [suspects]
  cases anySuspect s with
  | true =>
    refine frame.trans ?_
    simp
  | false =>
    refine (raisePermit_frame _).trans ?_
    rw [frame]
    simp

/-- The vote unit with the frames of a cycle dropped. -/
def Vtu.without (v : Vtu) (cycle : BitVec 32) : Vtu :=
  { v with table := ⟨v.table.one.filter (fun f => f.cycle != cycle), v.table.two.filter (fun f => f.cycle != cycle)⟩ }

/-- The vote unit that an outcome other than a membership leaves with PERMIT off. -/
def Vtu.outcome (v : Vtu) (o : VoteOutcome) (own : VoteFrame) (next : BitVec 32) : Vtu :=
  match o, own.kind with
  | .collectiveAbandon, _ => v.without next
  | .noQuorum, .closed => { v with closedSet := own.entries, agreedBase := false }
  | .noQuorum, .abandoned => { v.without next with agreedBase := false }
  | .excluded, _ => { v with agreedBase := false }
  | _, _ => v

theorem noQuorumOutcome_closed (own : VoteFrame) (s : State) (h : own.kind = .closed) :
    noQuorumOutcome own s = enterReady (endIfLost (setAgreed false (staleDelta (advance own s)))) := by
  unfold noQuorumOutcome
  rw [h]

theorem noQuorumOutcome_abandoned (own : VoteFrame) (s : State) (h : own.kind = .abandoned) :
    noQuorumOutcome own s = enterReady (endIfLost (setAgreed false (emptyNext s))) := by
  unfold noQuorumOutcome
  rw [h]

/-- What an outcome other than a membership leaves of a part with PERMIT off. -/
theorem applyOutcome_frame (o : VoteOutcome) (own : VoteFrame) (s : State) (hm : memberRank o = false)
    (hp : s.vtu.permitted = false) :
    applyOutcome o own s =
      { s with
        cju := { s.cju.outcome o own.kind with resend := (applyOutcome o own s).cju.resend }
        vtu := s.vtu.outcome o own (voteCycle s + 1)
        rse.service := (applyOutcome o own s).rse.service
        lkc.tx := (applyOutcome o own s).lkc.tx
        cmu := s.cmu.withEvents (applyOutcome o own s).cmu } := by
  have frame : ∀ (u v : State) (c : Cju) (w : Vtu), u = v →
      v = { s with
        cju := { c with resend := v.cju.resend }, vtu := w, rse.service := v.rse.service, lkc.tx := v.lkc.tx,
        cmu := s.cmu.withEvents v.cmu } →
      u = { s with
        cju := { c with resend := u.cju.resend }, vtu := w, rse.service := u.rse.service, lkc.tx := u.lkc.tx,
        cmu := s.cmu.withEvents u.cmu } := by
    rintro u v c w rfl h
    exact h
  cases o with
  | member3 => cases hm
  | member2 => cases hm
  | collectiveAbandon =>
    refine frame _ (enterReady (emptyNext s)) _ _ rfl ?_
    rw [enterReady_frame]
    rfl
  | outvoted =>
    refine frame _ (setChan (some .catchup) (endService .serverLost none s)) _ _ rfl ?_
    rw [setChan_frame, endService_frame]
    simp [Vtu.toChan_off _ _ _ hp, Cju.outcome, Vtu.outcome]
  | excluded =>
    refine frame _ (setChan (some .excluded) (endIfLost (setAgreed false (clearPrev (emptyJournal s))))) _ _ rfl ?_
    rw [setChan_frame, endIfLost_frame, setAgreed_frame]
    simpa [Cju.outcome, Cju.shut, Vtu.outcome, clearPrev, emptyJournal] using
      Vtu.toChan_off { s.vtu with agreedBase := false } s.cju.chan (some .excluded) hp
  | noQuorum =>
    cases hk : own.kind with
    | closed =>
      refine frame _ _ _ _ (noQuorumOutcome_closed own s hk) ?_
      rw [enterReady_frame, endIfLost_frame, setAgreed_frame, staleDelta_frame]
      simp [Cju.outcome, Cju.closed, Vtu.outcome, hk, advance]
    | abandoned =>
      refine frame _ _ _ _ (noQuorumOutcome_abandoned own s hk) ?_
      rw [enterReady_frame, endIfLost_frame, setAgreed_frame]
      simp [Cju.outcome, Cju.repeated, Vtu.outcome, Vtu.without, hk, emptyNext]

/-! ### The completion of a decision (R134) -/

/-- The decision that is kept as the last. -/
def decisionOf (o : VoteOutcome) (own : VoteFrame) (frames : PerLink (Option VoteFrame)) (s : State) : Decision :=
  ⟨o, voteCycle s, agreeingSet s.position own frames, s.cmu.ms⟩

/-- What the completion leaves of the part that the outcome's effect has left, before what follows it. -/
theorem decided_frame (o : VoteOutcome) (own : VoteFrame) (frames : PerLink (Option VoteFrame)) (s : State) :
    decided o own frames s =
      { setViews own frames (reconsiderMarks (applyOutcome o own s)) with
        vtu := { (applyOutcome o own s).vtu with last := some (decisionOf o own frames s) }
        cmu := (applyOutcome o own s).cmu.withEvents (decided o own frames s).cmu } := by
  rw [decided, recordDecision_frame]
  rfl

theorem completeDecision_last (o : VoteOutcome) (server : Option Link) (own : VoteFrame)
    (frames : PerLink (Option VoteFrame)) (s : State) :
    (completeDecision o server own frames s).vtu.last = some (decisionOf o own frames s) := by
  rw [completeDecision_eq]
  simp only [afterDecision_keeps]
  rw [decided_frame]

/-- After a decision the marked blocks are considered again (R156). -/
theorem completeDecision_service (o : VoteOutcome) (server : Option Link) (own : VoteFrame)
    (frames : PerLink (Option VoteFrame)) (s : State) :
    (completeDecision o server own frames s).rse.service =
      { (applyOutcome o own s).rse.service with tried := [], waiting := false } := by
  rw [completeDecision_eq]
  simp only [afterDecision_keeps]
  rw [decided_frame]
  rfl

theorem completeDecision_resend (o : VoteOutcome) (server : Option Link) (own : VoteFrame)
    (frames : PerLink (Option VoteFrame)) (s : State) :
    (completeDecision o server own frames s).cju.resend = (applyOutcome o own s).cju.resend := by
  rw [completeDecision_eq]
  simp only [afterDecision_keeps]
  rw [decided_cju]

theorem completeDecision_cycle (o : VoteOutcome) (server : Option Link) (own : VoteFrame)
    (frames : PerLink (Option VoteFrame)) (s : State) :
    (completeDecision o server own frames s).cju.cycle = (applyOutcome o own s).cju.cycle := by
  rw [completeDecision_eq]
  simp only [afterDecision_keeps]
  rw [decided_cju]

/-- The frames that follow an outcome's effect are HELLOs and PULLs. -/
theorem Waits.completeDecision (o : VoteOutcome) (server : Option Link) (own : VoteFrame)
    (frames : PerLink (Option VoteFrame)) (s : State) :
    Waits 6 (applyOutcome o own s) (completeDecision o server own frames s) := by
  have completed : Waits 6 (applyOutcome o own s) (decided o own frames s) := by
    rw [decided_frame]
    exact .of_tx rfl rfl
  rw [completeDecision_eq]
  refine completed.trans ?_
  unfold afterDecision
  split
  · exact (of_tx (t := clearPrev _) rfl rfl).trans (.beginPull .delta _ _ _ (by decide))
  · exact .testFull _ (by decide) (by decide)
  · exact .of_tx rfl rfl

theorem Records.completed (o : VoteOutcome) (server : Option Link) (own : VoteFrame)
    (frames : PerLink (Option VoteFrame)) (s : State) :
    Records Machine.ofDecision 3 (Machine.applyOutcome o own s) (Machine.completeDecision o server own frames s) := by
  have viewed : ∀ u, Records Machine.ofDecision 0 u (setViews own frames (reconsiderMarks u)) := fun u => of_eq rfl
  rw [completeDecision_eq]
  exact ((viewed _).trans (recordDecision _ _)).trans (afterDecision o server _).ofDecision

/-- An event that is no DECISION. -/
def notDecision (b : EventBody) : Prop := ∀ o g c, b ≠ .decision o g c

theorem notDecision_of_beside {b : EventBody} (h : besideDecision b) : notDecision b := by
  rintro o g c rfl
  exact h

/-- A DECISION in the queue was there: the events of a step's end are of other kinds. -/
theorem undecided_rule (old : List Record) :
    EventRule notDecision (fun es => ∀ r ∈ es, r ∈ old ∨ notDecision r.body) where
  refused _ _ _ _ _ := fun _ _ _ hc => by cases hc
  ended _ _ := fun _ _ _ hc => by cases hc
  append es r hb h := fun x hx => by
    rcases List.mem_append.1 hx with hx | hx
    · exact h x hx
    · rw [List.mem_singleton.1 hx]
      exact .inr hb
  extend es r reason ini a region n _ h := fun x hx => by
    rcases List.mem_append.1 hx with hx | hx
    · exact h x (List.mem_append_left _ hx)
    · rw [List.mem_singleton.1 hx]
      exact .inr fun _ _ _ hc => by cases hc

/-- A decision completed in a step is recorded where its outcome or its agreeing set is new. -/
theorem decisionRecorded_settle (room n : Nat) (o : VoteOutcome) (server : Option Link) (own : VoteFrame)
    (frames : PerLink (Option VoteFrame)) (s b : State) (last : b.vtu.last = s.vtu.last)
    (events : Records notDecision n s (applyOutcome o own b)) (hroom : n + 1 ≤ room) :
    Claim.decisionRecorded room s (settle (completeDecision o server own frames b)) := by
  have before : (setViews own frames (reconsiderMarks (applyOutcome o own b))).vtu.last = s.vtu.last := by
    have kept : (applyOutcome o own b).vtu.last = b.vtu.last := by simp
    exact kept.trans last
  have repeats : repeatsLast (decisionOf o own frames b) (setViews own frames (reconsiderMarks (applyOutcome o own b))) = true ↔
      ∃ old, s.vtu.last = some old ∧ old.outcome = (decisionOf o own frames b).outcome ∧
        old.agreeing = (decisionOf o own frames b).agreeing := by
    unfold repeatsLast
    rw [before]
    cases s.vtu.last <;> simp
  have completed : decided o own frames b = recordDecision (decisionOf o own frames b)
    (setViews own frames (reconsiderMarks (applyOutcome o own b))) := rfl
  have after := (Records.afterDecision o server (decided o own frames b)).weaken fun _ => notDecision_of_beside
  rw [← completeDecision_eq] at after
  intro d hd
  simp only [settle_keeps, completeDecision_last, Option.some.injEq] at hd
  subst hd
  refine ⟨fun new fits => ?_, fun old hold houtcome hagree => ?_⟩
  · have records : repeatsLast (decisionOf o own frames b) (setViews own frames (reconsiderMarks (applyOutcome o own b))) ≠ true := by
      rw [Ne, repeats]
      rintro ⟨old, hold, h1, h2⟩
      exact (new old hold).elim (absurd h1) (absurd h2)
    have grown := events.length_le
    have free : (applyOutcome o own b).cmu.events.length < 64 := by omega
    rw [recordDecision_eq, if_neg records] at completed
    have recorded := (recordEvent_of_room (.decision o (agreeingSet b.position own frames) (voteCycle b))
      { setViews own frames (reconsiderMarks (applyOutcome o own b)) with
        vtu := { (setViews own frames (reconsiderMarks (applyOutcome o own b))).vtu with
          last := some (decisionOf o own frames b) } } free).1
    refine ⟨⟨(applyOutcome o own b).cmu.nextSeq, (applyOutcome o own b).cmu.ms, voteCycle (applyOutcome o own b),
      .decision o (agreeingSet b.position own frames) (voteCycle b)⟩, mem_events_settle _ _ (by simp [eventKind])
      (after.mem ?_), rfl, ?_⟩
    · rw [completed]
      exact recorded ▸ List.mem_append_right _ (List.mem_singleton.2 rfl)
    · simp only [settle_keeps, completeDecision_cycle]
      rfl
  · have same := repeats.2 ⟨old, hold, houtcome, hagree⟩
    rw [recordDecision_eq, if_pos same] at completed
    have quiet : Records notDecision 0 (applyOutcome o own b) (decided o own frames b) := .of_eq (by rw [completed]; rfl)
    have all := (events.trans quiet).trans after
    exact (undecided_rule s.cmu.events).settle _ fun r hr => all.fresh hr

end Sys2Proof.Machine
end

section
/-! PROOFS. The memberships (R128): the service and its marks at a decision (R154, R156), and MEMBER_3 and MEMBER_2. -/

namespace Sys2Proof.Machine

open Sys2Proof

/-! ### The service at a decision -/

/-- From `s` to `t` the service record, its marks and its waiting frames stay. -/
def Rests (s t : State) : Prop :=
  t.rse.service = s.rse.service ∧ t.cju.resend = s.cju.resend ∧ Waits 6 s t ∧ ∃ n, Records besideDecision n s t

namespace Rests

variable {s t u : State}

theorem refl (s : State) : Rests s s := ⟨rfl, rfl, .of_tx rfl rfl, 0, .of_eq rfl⟩

theorem trans (h : Rests s t) (k : Rests t u) : Rests s u := by
  obtain ⟨hs, hr, hw, n, hn⟩ := h
  obtain ⟨ks, kr, kw, m, km⟩ := k
  exact ⟨ks.trans hs, kr.trans hr, hw.trans kw, _, hn.trans km⟩

theorem setChan (c : Option ChannelState) (s : State) : Rests s (setChan c s) :=
  ⟨by simp, by simp, .setChan c s (by decide), _, .setChan c s trivial⟩

theorem setAgreed (b : Bool) (s : State) : Rests s (setAgreed b s) :=
  ⟨by simp, by simp, .setAgreed b s (by decide), _, .setAgreed b s⟩

theorem enterReady (s : State) : Rests s (enterReady s) :=
  ⟨by simp, by simp, .enterReady s (by decide), _, .enterReady s⟩

theorem raisePermit (s : State) : Rests s (raisePermit s) :=
  ⟨by simp, by simp, .of_tx (by simp) (by simp), _, .raisePermit s⟩

/-- Without an active service there is none to lose. -/
theorem endIfLost (s : State) (h : s.rse.service.phase = .idle) : Rests s (endIfLost s) := by
  have same : Machine.endIfLost s = s := by
    unfold Machine.endIfLost
    split
    · rfl
    · exact endService_of_idle _ _ s h
  rw [same]
  exact refl s

end Rests

/-- A service that an outcome leaves goes on, and considers its marked blocks again (R156). -/
theorem serviceStays_settle (marked : Nat → Prop) (o : VoteOutcome) (server : Option Link) (own : VoteFrame)
    (frames : PerLink (Option VoteFrame)) (s b : State) (service : (applyOutcome o own b).rse.service = s.rse.service)
    (marks : ∀ k, k ∈ (applyOutcome o own b).cju.resend ↔ marked k) :
    Claim.serviceStays marked s (settle (completeDecision o server own frames b)) := by
  refine ⟨fun k => ?_, completeDecision o server own frames b, settle_end _, ?_⟩
  · rw [settle_resend, completeDecision_resend]
    exact marks k
  · rw [completeDecision_service, service]

/-- A service that an outcome ends has ended when the decision is complete. -/
theorem serviceEnds_outcome (room n : Nat) (a : EventBody → Prop) (result : PullResult) (tag : BitVec 32)
    (o : VoteOutcome) (server : Option Link) (own : VoteFrame) (frames : PerLink (Option VoteFrame)) (s b v : State)
    (hs : serving s = true) (service : v.rse.service = s.rse.service) (position : v.position = s.position)
    (cycle : v.cju.cycle = tag) (before : Records a n s v) (hroom : n + 1 ≤ room)
    (rests : ∀ l, s.rse.service.requester = some l → Rests (endService result none v) (applyOutcome o own b)) :
    Claim.serviceEnds room result tag s (settle (completeDecision o server own frames b)) := by
  intro l hl
  have hv : serving v = true := by simpa [serving, service] using hs
  have ended := endService_of_serving result none l v hv (service ▸ hl)
  obtain ⟨record, marks, waits, m, after⟩ := rests l hl
  refine serviceEnds_settle room n (m + 3) a ofDecision result tag s v _ hs service position cycle before hroom
    (after.ofDecision.trans (.completed o server own frames b)) (waits.trans (.completeDecision o server own frames b))
    (fun _ _ => ?_) (fun _ _ => ?_) l hl
  · rw [completeDecision_service, record, ended, service]
    rfl
  · rw [completeDecision_resend, marks, ended]

/-! ### The RESEND marks of a FULL service (R156) -/

theorem mem_setUnion (l add : List Nat) (b : Nat) : b ∈ setUnion l add ↔ b ∈ l ∨ b ∈ add := by
  unfold setUnion
  induction add generalizing l with
  | nil => simp
  | cons a add ih =>
    rw [List.foldl_cons, ih, mem_setInsert, List.mem_cons]
    tauto

theorem covers_iff (d : Descriptor) (b : Nat) : d.covers b = true ↔ d.first ≤ b ∧ b < d.first + d.count := by
  simp [Descriptor.covers]

/-- A block lies in the region set of the service. -/
theorem inSet_iff (s : State) (k : Nat) :
    (setRegions s s.rse.service.regionSet).any (fun d => d.covers k) = true ↔ Claim.inSet s k := by
  simp only [List.any_eq_true, setRegions, List.mem_filter, List.mem_map, covers_iff, Claim.inSet, Bool.and_eq_true]
  constructor
  · rintro ⟨d, ⟨⟨e, he, rfl⟩, hs, hb⟩, hl, hu⟩
    exact ⟨e, he, hs, hb, hl, hu⟩
  · rintro ⟨e, he, hs, hb, hl, hu⟩
    exact ⟨e.2.desc, ⟨⟨e, he, rfl⟩, hs, hb⟩, hl, hu⟩

theorem mem_markResend (s : State) (k : Nat) : k ∈ (markResend s).cju.resend ↔
    k ∈ s.cju.resend ∨ serving s = true ∧ s.rse.service.kind = some .full ∧ k ∈ s.cju.wCur ∧ Claim.inSet s k ∧
      (s.rse.service.walkPos = some .finished ∨ ∃ w, s.rse.service.walkPos = some (.block w) ∧ k < w) := by
  have behind : (match s.rse.service.walkPos with
      | some (.block w) => decide (k < w)
      | some .finished => true
      | none => false) = true ↔
      (s.rse.service.walkPos = some .finished ∨ ∃ w, s.rse.service.walkPos = some (.block w) ∧ k < w) := by
    cases s.rse.service.walkPos with
    | none => simp
    | some w => cases w <;> simp
  unfold markResend
  split
  case isTrue h =>
    simp only [mem_setUnion, List.mem_filter, Bool.and_eq_true, inSet_iff, h, true_and]
    refine or_congr Iff.rfl (and_congr Iff.rfl (and_congr Iff.rfl ((Iff.trans ?_) behind)))
    exact Iff.rfl
  case isFalse h =>
    refine ⟨.inl, fun hk => hk.resolve_right fun ⟨hs, hf, _⟩ => h ⟨hs, hf⟩⟩

/-! ### The service at a membership -/

theorem markResend_service (s : State) : (markResend s).rse.service = s.rse.service := by
  rw [markResend_frame]

/-- A membership ends no service but a DELTA one: of the others only the marks grow (R128, R156). -/
theorem memberOutcome_stays (own : VoteFrame) (s : State) (h : serving s = false ∨ s.rse.service.kind ≠ some .delta) :
    (memberOutcome own s).rse.service = s.rse.service ∧ (memberOutcome own s).cju.resend = (markResend s).cju.resend := by
  have unended : staleDelta (advance own (markResend s)) = advance own (markResend s) := by
    have service : (advance own (markResend s)).rse.service = s.rse.service := markResend_service s
    unfold staleDelta
    split
    case isTrue hk =>
      refine endService_of_idle _ _ _ ?_
      rw [service] at hk ⊢
      simpa [serving, hk] using h
    case isFalse => rfl
  have closed : Rests (advance own (markResend s)) (enterReady (setAgreed true (advance own (markResend s)))) :=
    (Rests.setAgreed true _).trans (.enterReady _)
  have done : Rests (advance own (markResend s)) (memberOutcome own s) := by
    unfold memberOutcome
    rw [unended]
    dsimp only
    split
    · exact closed
    · exact closed.trans (.raisePermit _)
  exact ⟨done.1.trans (markResend_service s), done.2.1⟩

/-- The change of c at a membership ends a DELTA service with STALE (R154). -/
theorem memberOutcome_ends (own : VoteFrame) (s : State) (hk : s.rse.service.kind = some .delta) :
    Rests (endService .stale none (advance own (markResend s))) (memberOutcome own s) := by
  have ended : staleDelta (advance own (markResend s)) = endService .stale none (advance own (markResend s)) := by
    refine if_pos ?_
    have service : (advance own (markResend s)).rse.service = s.rse.service := markResend_service s
    rw [service, hk]
  have closed : Rests (endService .stale none (advance own (markResend s)))
      (enterReady (setAgreed true (endService .stale none (advance own (markResend s))))) :=
    (Rests.setAgreed true _).trans (.enterReady _)
  unfold memberOutcome
  rw [ended]
  dsimp only
  split
  · exact closed
  · exact closed.trans (.raisePermit _)

/-! ### MEMBER_3 and MEMBER_2 -/

/-- A CLOSED frame with a peer in its class is a membership. -/
theorem member_of_joins (own : VoteFrame) (s : State) (hk : own.kind = .closed) (hj : ∃ l, Claim.joins own s l) :
    ∃ o, rule s own (currents s) = .outcome o none ∧ memberRank o = true ∧
      ((∀ l, Claim.joins own s l) → o = .member3) ∧ ((∃ l, ¬Claim.joins own s l) → o = .member2) := by
  have ruled := rule_of_joins own s hj
  rw [hk] at ruled
  refine ⟨_, ruled, by split <;> rfl, fun h => if_pos ((forall_joins_iff own s).1 h), fun ⟨l, hl⟩ => if_neg fun h => ?_⟩
  exact hl ((forall_joins_iff own s).2 h l)

theorem applyOutcome_of_member (o : VoteOutcome) (own : VoteFrame) (s : State) (h : memberRank o = true) :
    applyOutcome o own s = memberOutcome own s := by
  cases o with
  | member3 => rfl
  | member2 => rfl
  | collectiveAbandon => cases h
  | outvoted => cases h
  | excluded => cases h
  | noQuorum => cases h

/-- Nothing follows a membership. -/
theorem afterDecision_of_member (o : VoteOutcome) (server : Option Link) (s : State) (h : memberRank o = true) :
    afterDecision o server s = s := by
  cases o with
  | member3 => rfl
  | member2 => rfl
  | collectiveAbandon => cases h
  | outvoted => cases h
  | excluded => cases h
  | noQuorum => cases h

/-- The decision of a membership. -/
theorem completeDecision_member (o : VoteOutcome) (server : Option Link) (own : VoteFrame)
    (frames : PerLink (Option VoteFrame)) (s : State) (h : memberRank o = true) :
    completeDecision o server own frames s =
      { setViews own frames (reconsiderMarks (memberOutcome own s)) with
        vtu := { (memberOutcome own s).vtu with last := some (decisionOf o own frames s) }
        cmu := (memberOutcome own s).cmu.withEvents (decided o own frames s).cmu } := by
  rw [completeDecision_eq, afterDecision_of_member o server _ h, ← applyOutcome_of_member o own s h]
  exact decided_frame o own frames s

theorem get_table_takeFrames (s : State) (l : Link) :
    (takeFrames s).vtu.table.get l = (s.vtu.table.get l).filter (fun g => g.cycle != s.cju.cycle + 1) := by
  cases l <;> rfl

/-- Settles O41: the membership's effect field by field, what it makes of the service, and the views it leaves. -/
theorem membersCloseTheCycle : Obligations.MembersCloseTheCycle := by
  unfold Obligations.MembersCloseTheCycle
  intro own s hr hc ht hown hk hj
  obtain ⟨o, ruled, member, all, some⟩ := member_of_joins own s hk hj
  have ran : exec .voteTimerExpiry s = .next (settle (completeDecision o none own (currents s) (takeFrames s))) := by
    rw [exec_voteTimerExpiry s hr hc ht, takeDecision_of_outcome own o none s hown ruled, toDecide, if_pos member]
  have applied := applyOutcome_of_member o own (takeFrames s) member
  have effect := completeDecision_member o none own (currents s) (takeFrames s) member
  rw [memberOutcome_frame] at effect
  have cju : (settle (completeDecision o none own (currents s) (takeFrames s))).cju =
      { s.cju.closed with resend := (memberOutcome own (takeFrames s)).cju.resend } := by
    rw [settle_cju]
    exact congrArg (fun t => t.cju) effect
  have vtu : (settle (completeDecision o none own (currents s) (takeFrames s))).vtu =
      { (takeFrames s).vtu with
        closedSet := own.entries, agreedBase := true, permitted := s.vtu.permitted || !anySuspect s,
        level := (memberOutcome own (takeFrames s)).vtu.level,
        last := Option.some (decisionOf o own (currents s) (takeFrames s)) } := by
    simp only [settle_keeps]
    exact congrArg (fun t => t.vtu) effect
  refine ⟨_, ran, by rw [cju]; rfl, by rw [cju]; rfl, by rw [cju]; rfl, by rw [cju]; rfl, by rw [cju]; rfl, by rw [cju]; rfl,
    by rw [cju]; rfl, by rw [vtu], by rw [vtu], by rw [vtu]; rfl, ⟨_, by rw [vtu], rfl, rfl, agreeingSet_claim own s, all, some⟩,
    ?recorded, by rw [vtu], ?viewed, fun hs hd => ?ends, fun h => ?stays, fun l => ?table, by simp, by simp, by simp, by simp,
    by rw [cju]; rfl, by rw [cju]; rfl, ?pull⟩
  case recorded =>
    refine decisionRecorded_settle 2 1 o none own (currents s) s (takeFrames s) rfl ?_ (by decide)
    rw [applied]
    exact ((Records.takeFrames s).trans (.memberOutcome own _)).weaken fun _ => notDecision_of_beside
  case viewed =>
    refine viewed_of_views own s _ fun l => ?_
    rw [← get_currents s l]
    simp only [settle_keeps]
    exact completeDecision_peers o none own (currents s) (takeFrames s) l
  case ends =>
    refine serviceEnds_outcome 1 0 besideDecision .stale _ o none own (currents s) s (takeFrames s)
      (advance own (markResend (takeFrames s))) hs (markResend_service _) (by simp) ?_ (.of_eq (by simp)) (by decide)
      fun l _ => ?_
    · have frame := congrArg (fun t => t.cju.cycle) (markResend_frame (takeFrames s))
      exact congrArg (· + 1) frame
    · rw [applied]
      exact memberOutcome_ends own (takeFrames s) hd
  case stays =>
    obtain ⟨service, marks⟩ := memberOutcome_stays own (takeFrames s) h
    refine serviceStays_settle _ o none own (currents s) s (takeFrames s) (by rw [applied, service]; rfl) fun k => ?_
    rw [applied, marks]
    exact mem_markResend (takeFrames s) k
  case table =>
    rw [vtu]
    exact get_table_takeFrames s l
  case pull =>
    simp only [settle_keeps]
    exact congrArg (fun t => t.rse.pull) effect

end Sys2Proof.Machine
end

section
/-! PROOFS. The outcomes that turn PERMIT off (R129, R131 to R133): what the decision leaves of the part and of its service. -/

namespace Sys2Proof.Machine

open Sys2Proof

/-! ### The service at an outcome without PERMIT -/

namespace Rests

variable {s t : State}

theorem of_eq (service : t.rse.service = s.rse.service) (resend : t.cju.resend = s.cju.resend)
    (position : t.position = s.position) (tx : t.lkc.tx = s.lkc.tx) (cmu : t.cmu = s.cmu) : Rests s t :=
  ⟨service, resend, .of_tx position tx, 0, .of_cmu cmu⟩

theorem idle (h : Rests s t) (hi : s.rse.service.phase = .idle) : t.rse.service.phase = .idle := by
  obtain ⟨service, -⟩ := h
  rw [service, hi]

theorem emptyNext (s : State) : Rests s (emptyNext s) := of_eq rfl rfl rfl rfl rfl

theorem advance (own : VoteFrame) (s : State) : Rests s (advance own s) := of_eq rfl rfl rfl rfl rfl

theorem clearPrev (s : State) : Rests s (clearPrev s) := of_eq rfl rfl rfl rfl rfl

theorem emptyJournal (s : State) : Rests s (emptyJournal s) := of_eq rfl rfl rfl rfl rfl

/-- What follows the loss of the agreed base at an entry into READY, where no service is active. -/
theorem readyLost (s : State) (hi : s.rse.service.phase = .idle) :
    Rests s (Machine.enterReady (Machine.endIfLost (Machine.setAgreed false s))) :=
  ((setAgreed false s).trans (.endIfLost _ ((setAgreed false s).idle hi))).trans (.enterReady _)

end Rests

/-- Without an agreed base no service goes on. -/
theorem endIfLost_of_no_base (s : State) (h : s.vtu.agreedBase = false) : endIfLost s = endService .serverLost none s := by
  refine if_neg ?_
  simp [servingCondition, h]

theorem staleDelta_of_idle (s : State) (h : s.rse.service.phase = .idle) : staleDelta s = s := by
  unfold staleDelta
  split
  · exact endService_of_idle _ _ s h
  · rfl

/-- Without an active service an outcome that turns PERMIT off leaves the service record as it is. -/
theorem applyOutcome_rests (o : VoteOutcome) (own : VoteFrame) (b : State) (hm : memberRank o = false)
    (hi : b.rse.service.phase = .idle) : Rests b (applyOutcome o own b) := by
  cases o with
  | member3 => cases hm
  | member2 => cases hm
  | collectiveAbandon => exact (Rests.emptyNext b).trans (.enterReady _)
  | outvoted =>
    have same : endService .serverLost none b = b := endService_of_idle _ _ b hi
    unfold applyOutcome outvotedOutcome
    rw [same]
    exact .setChan _ b
  | excluded =>
    have left : Rests b (setAgreed false (clearPrev (emptyJournal b))) :=
      ((Rests.emptyJournal b).trans (.clearPrev _)).trans (.setAgreed false _)
    exact (left.trans (.endIfLost _ (left.idle hi))).trans (.setChan _ _)
  | noQuorum =>
    cases hk : own.kind with
    | closed =>
      have advanced := Rests.advance own b
      have ended : applyOutcome .noQuorum own b = enterReady (endIfLost (setAgreed false (advance own b))) := by
        refine (noQuorumOutcome_closed own b hk).trans ?_
        rw [staleDelta_of_idle _ (advanced.idle hi)]
      rw [ended]
      exact advanced.trans (.readyLost _ (advanced.idle hi))
    | abandoned =>
      have ended : applyOutcome .noQuorum own b = enterReady (endIfLost (setAgreed false (emptyNext b))) :=
        noQuorumOutcome_abandoned own b hk
      rw [ended]
      exact (Rests.emptyNext b).trans (.readyLost _ ((Rests.emptyNext b).idle hi))

/-- An ended service is not ended again. -/
theorem endService_ended (result : PullResult) (es : Option (List SigEntry)) (s : State) :
    serving (endService result es s) = false ∨ (endService result es s).rse.service.requester = none := by
  by_cases h : serving s = false ∨ s.rse.service.requester = none
  · rwa [endService_of_not_serving result es s h]
  · refine .inl ?_
    obtain ⟨hs, hl⟩ := not_or.1 h
    obtain ⟨l, hl⟩ := Option.ne_none_iff_exists'.1 hl
    rw [endService_of_serving result es l s (by simpa using hs) hl]
    rfl

theorem endIfLost_of_not_serving (s : State) (h : serving s = false ∨ s.rse.service.requester = none) :
    endIfLost s = s := by
  unfold endIfLost
  split
  · rfl
  · exact endService_of_not_serving _ _ s h

/-- The change of c and the loss of the agreed base end one service (R133). -/
theorem Records.staleThenLost (s : State) :
    Records besideDecision 1 s (Machine.endIfLost (Machine.setAgreed false (Machine.staleDelta s))) := by
  unfold Machine.staleDelta
  split
  · have ended : serving (Machine.setAgreed false (Machine.endService .stale none s)) = false ∨
        (Machine.setAgreed false (Machine.endService .stale none s)).rse.service.requester = none := by
      simpa [serving] using endService_ended .stale none s
    rw [endIfLost_of_not_serving _ ended]
    exact (Records.endService .stale none s fun _ => trivial).trans (.setAgreed false _)
  · exact (Records.setAgreed false s).trans (.endIfLost _ fun _ _ => trivial)

/-- An outcome that turns PERMIT off ends at most the service. -/
theorem Records.lostOutcome (o : VoteOutcome) (own : VoteFrame) (b : State) (hm : memberRank o = false)
    (hp : b.vtu.permitted = false) : Records besideDecision 1 b (Machine.applyOutcome o own b) := by
  cases o with
  | member3 => cases hm
  | member2 => cases hm
  | collectiveAbandon => exact ((Records.emptyNext b).trans (.enterReady _)).mono (by decide)
  | outvoted =>
    have ended : Records besideDecision 1 b (Machine.endService .serverLost none b) := .endService _ _ _ fun _ => trivial
    refine ended.trans (.setChan_quiet (some .catchup) _ (.inl ?_))
    rw [endService_frame]
    exact hp
  | excluded =>
    have left : Records besideDecision 0 b (Machine.setAgreed false (Machine.clearPrev (Machine.emptyJournal b))) :=
      (Records.of_cmu (n := 0) (t := Machine.clearPrev (Machine.emptyJournal b)) rfl).trans (.setAgreed false _)
    refine (left.trans (.endIfLost _ fun _ _ => trivial)).trans (.setChan_quiet (some .excluded) _ (.inl ?_))
    rw [endIfLost_frame, setAgreed_frame]
    exact hp
  | noQuorum =>
    cases hk : own.kind with
    | closed =>
      have ended : Machine.applyOutcome .noQuorum own b = _ := noQuorumOutcome_closed own b hk
      rw [ended]
      exact ((Records.advance own b).trans (.staleThenLost _)).trans (.enterReady _)
    | abandoned =>
      have ended : Machine.applyOutcome .noQuorum own b = _ := noQuorumOutcome_abandoned own b hk
      rw [ended]
      exact (((Records.emptyNext b).trans (.setAgreed false _)).trans (.endIfLost _ fun _ _ => trivial)).trans (.enterReady _)

/-! ### The part that a completed decision leaves without PERMIT -/

/-- From `s`, the part `b` in which an outcome takes effect, after at most `k` events. -/
structure Takes (k : Nat) (s b : State) : Prop where
  service : b.rse.service = s.rse.service
  resend : b.cju.resend = s.cju.resend
  cycle : b.cju.cycle = s.cju.cycle
  position : b.position = s.position
  ms : b.cmu.ms = s.cmu.ms
  last : b.vtu.last = s.vtu.last
  peers : b.lkc.peers = s.lkc.peers
  events : Records notDecision k s b

/-- The part in which an outcome takes effect with PERMIT off. -/
structure Decides (k : Nat) (s b : State) : Prop extends Takes k s b where
  permitted : b.vtu.permitted = false

theorem afterDecision_vtu (o : VoteOutcome) (server : Option Link) (s : State) (h : s.vtu.permitted = false) :
    (afterDecision o server s).vtu = s.vtu := by
  unfold afterDecision
  split
  · exact congrArg (fun t => t.vtu) (beginPull_frame _ _ _ (clearPrev s))
  · by_cases due : Claim.pullDue s
    · obtain ⟨l, -, -, he⟩ := testFull_of_due s due
      rw [he, startFull_frame]
      exact Vtu.toChan_off _ _ _ h
    · rw [testFull_of_not_due s due]
  · rfl

/-- The test of R143 after an EXCLUDED leaves the part in EXCLUDED or in RESTORING. -/
theorem testFull_cju (s : State) : (testFull s).cju = s.cju ∨
    (testFull s).cju = { s.cju with chan := some .restoring, wPrev := [], wPrevValid := false } := by
  by_cases due : Claim.pullDue s
  · obtain ⟨l, -, -, he⟩ := testFull_of_due s due
    rw [he, startFull_frame]
    exact .inr rfl
  · exact .inl (by rw [testFull_of_not_due s due])

theorem Vtu.outcome_permitted (v : Vtu) (o : VoteOutcome) (own : VoteFrame) (n : BitVec 32) :
    (v.outcome o own n).permitted = v.permitted := by
  unfold Vtu.outcome
  split <;> rfl

namespace Takes

variable {k : Nat} {s b : State} {o : VoteOutcome} {own : VoteFrame} {frames : PerLink (Option VoteFrame)}

theorem viewed (h : Takes k s b) (server : Option Link) :
    Claim.viewed own s (settle (completeDecision o server own (currents s) b)) := by
  refine viewed_of_views own s _ fun l => ?_
  rw [← get_currents s l, ← h.peers]
  simp only [settle_keeps]
  exact completeDecision_peers o server own (currents s) b l

theorem agreeing (h : Takes k s b) : Claim.agreeing own s (decisionOf o own (currents s) b).agreeing := by
  have set : (decisionOf o own (currents s) b).agreeing = agreeingSet s.position own (currents s) := by
    rw [← h.position]
    rfl
  rw [set]
  exact agreeingSet_claim own s

/-- A service goes on through COLLECTIVE_ABANDON. -/
theorem stays (h : Takes k s b) (server : Option Link) :
    Claim.serviceStays (fun n => n ∈ s.cju.resend) s
      (settle (completeDecision .collectiveAbandon server own frames b)) := by
  obtain ⟨record, marks, -⟩ : Rests b (applyOutcome .collectiveAbandon own b) := (Rests.emptyNext b).trans (.enterReady _)
  refine serviceStays_settle _ .collectiveAbandon server own frames s b (record.trans h.service) fun n => ?_
  rw [marks, h.resend]

/-- A service that an outcome ends in a part `v` on the way. -/
theorem ends (h : Takes k s b) (room : Nat) (hroom : k + 1 ≤ room) (hs : serving s = true) (result : PullResult)
    (tag : BitVec 32) (server : Option Link) (v : State) (onTheWay : Rests b v) (quiet : v.cmu = b.cmu)
    (cycle : v.cju.cycle = tag) 
    (rests : ∀ l, s.rse.service.requester = some l → Rests (endService result none v) (applyOutcome o own b)) :
    Claim.serviceEnds room result tag s (settle (completeDecision o server own frames b)) := by
  obtain ⟨service, -, waits, -⟩ := onTheWay
  exact serviceEnds_outcome room k notDecision result tag o server own frames s b v hs (service.trans h.service)
    (waits.1.trans h.position) cycle (h.events.trans (n := 0) (.of_eq (congrArg Cmu.events quiet))) hroom rests

theorem outvoted_ends (h : Takes k s b) (room : Nat) (hroom : k + 1 ≤ room) (hs : serving s = true)
    (server : Option Link) :
    Claim.serviceEnds room .serverLost s.cju.cycle s (settle (completeDecision .outvoted server own frames b)) :=
  h.ends room hroom hs _ _ server b (.refl b) rfl h.cycle fun _ _ => .setChan _ _

theorem excluded_ends (h : Takes k s b) (room : Nat) (hroom : k + 1 ≤ room) (hs : serving s = true)
    (server : Option Link) :
    Claim.serviceEnds room .serverLost s.cju.cycle s (settle (completeDecision .excluded server own frames b)) := by
  refine h.ends room hroom hs _ _ server (setAgreed false (clearPrev (emptyJournal b)))
    (((Rests.emptyJournal b).trans (.clearPrev _)).trans (.setAgreed false _)) (by simp [clearPrev, emptyJournal]) ?_ fun _ _ => ?_
  · exact Eq.trans (by simp [clearPrev, emptyJournal]) h.cycle
  · have lost := endIfLost_of_no_base (setAgreed false (clearPrev (emptyJournal b))) (by simp)
    rw [← lost]
    exact .setChan _ _

theorem closed_ends_delta (h : Takes k s b) (room : Nat) (hroom : k + 1 ≤ room) (hs : serving s = true)
    (server : Option Link) (hk : own.kind = .closed) (hd : s.rse.service.kind = some .delta) :
    Claim.serviceEnds room .stale (s.cju.cycle + 1) s (settle (completeDecision .noQuorum server own frames b)) := by
  refine h.ends room hroom hs _ _ server (advance own b) (.advance own b) rfl (congrArg (· + 1) h.cycle) fun l hl => ?_
  have ended : staleDelta (advance own b) = endService .stale none (advance own b) :=
    if_pos ((congrArg Service.kind h.service).trans hd)
  have effect : applyOutcome .noQuorum own b = _ := noQuorumOutcome_closed own b hk
  rw [effect, ended]
  refine Rests.readyLost _ (endService_phase _ _ _ fun _ => ?_)
  have requester : (advance own b).rse.service.requester = some l := (congrArg Service.requester h.service).trans hl
  rw [requester]
  rfl

/-- The loss of the agreed base at an entry into READY ends the service. -/
theorem ends_without_base (h : Takes k s b) (room : Nat) (hroom : k + 1 ≤ room) (hs : serving s = true)
    (tag : BitVec 32) (server : Option Link) (v : State) (onTheWay : Rests b v) (quiet : v.cmu = b.cmu)
    (cycle : v.cju.cycle = tag)
    (effect : applyOutcome .noQuorum own b = enterReady (endIfLost (setAgreed false v))) :
    Claim.serviceEnds room .serverLost tag s (settle (completeDecision .noQuorum server own frames b)) := by
  refine h.ends room hroom hs _ _ server (setAgreed false v) (onTheWay.trans (.setAgreed false v)) (Eq.trans (by simp) quiet)
    (Eq.trans (by simp) cycle) fun _ _ => ?_
  have lost := endIfLost_of_no_base (setAgreed false v) (by simp)
  rw [effect, lost]
  exact .enterReady _

theorem closed_ends_other (h : Takes k s b) (room : Nat) (hroom : k + 1 ≤ room) (hs : serving s = true)
    (server : Option Link) (hk : own.kind = .closed) (hd : s.rse.service.kind ≠ some .delta) :
    Claim.serviceEnds room .serverLost (s.cju.cycle + 1) s (settle (completeDecision .noQuorum server own frames b)) := by
  refine h.ends_without_base room hroom hs _ server (advance own b) (.advance own b) rfl (congrArg (· + 1) h.cycle) ?_
  have kept : staleDelta (advance own b) = advance own b :=
    if_neg fun hk => hd ((congrArg Service.kind h.service).symm.trans hk)
  exact (noQuorumOutcome_closed own b hk).trans (by rw [kept])

theorem abandoned_ends (h : Takes k s b) (room : Nat) (hroom : k + 1 ≤ room) (hs : serving s = true)
    (server : Option Link) (hk : own.kind = .abandoned) :
    Claim.serviceEnds room .serverLost s.cju.cycle s (settle (completeDecision .noQuorum server own frames b)) :=
  h.ends_without_base room hroom hs _ server (emptyNext b) (.emptyNext b) rfl h.cycle (noQuorumOutcome_abandoned own b hk)

end Takes

namespace Decides

variable {k : Nat} {s b : State} {o : VoteOutcome} {own : VoteFrame} {frames : PerLink (Option VoteFrame)}

theorem decided_vtu (h : Decides k s b) (hm : memberRank o = false) :
    (decided o own frames b).vtu =
      { b.vtu.outcome o own (voteCycle b + 1) with last := some (decisionOf o own frames b) } := by
  rw [decided_frame, applyOutcome_frame o own b hm h.permitted]

theorem vtu (h : Decides k s b) (hm : memberRank o = false) (server : Option Link) :
    (settle (completeDecision o server own frames b)).vtu =
      { b.vtu.outcome o own (voteCycle b + 1) with last := some (decisionOf o own frames b) } := by
  rw [completeDecision_eq]
  simp only [settle_keeps]
  rw [afterDecision_vtu, h.decided_vtu hm]
  rw [h.decided_vtu hm]
  exact (Vtu.outcome_permitted _ _ _ _).trans h.permitted

theorem decided_cju (h : Decides k s b) (hm : memberRank o = false) :
    (decided o own frames b).cju = { b.cju.outcome o own.kind with resend := (applyOutcome o own b).cju.resend } := by
  rw [Machine.decided_cju]
  exact congrArg (fun t => t.cju) (applyOutcome_frame o own b hm h.permitted)

theorem recorded (h : Decides k s b) (hm : memberRank o = false) (room : Nat) (hroom : k + 2 ≤ room) (server : Option Link) :
    Claim.decisionRecorded room s (settle (completeDecision o server own frames b)) :=
  decisionRecorded_settle room (k + 1) o server own frames s b h.last (h.events.trans
    ((Records.lostOutcome o own b hm h.permitted).weaken fun _ => notDecision_of_beside))
    hroom

theorem idle (h : Decides k s b) (hm : memberRank o = false) (hs : serving s = false) (server : Option Link) :
    (settle (completeDecision o server own frames b)).rse.service =
        { s.rse.service with timer := none, tried := [], waiting := false } ∧
      (settle (completeDecision o server own frames b)).cju.resend = s.cju.resend := by
  have phase : b.rse.service.phase = .idle := by rw [h.service]; simpa [serving] using hs
  obtain ⟨record, marks, -⟩ := applyOutcome_rests o own b hm phase
  have after := completeDecision_service o server own frames b
  rw [record, h.service] at after
  refine ⟨?_, ?_⟩
  · rw [service_settle_idle _ (by rw [after, ← h.service]; exact phase), after]
  · rw [settle_resend, completeDecision_resend, marks, h.resend]

/-! ### The channel after the decision -/

/-- The outcomes that leave the part in READY. -/
theorem cju_of_ready (h : Decides k s b) (server : Option Link) (ho : o = .collectiveAbandon ∨ o = .noQuorum) :
    (settle (completeDecision o server own frames b)).cju =
      { b.cju.outcome o own.kind with resend := (applyOutcome o own b).cju.resend } := by
  rw [settle_cju, completeDecision_eq]
  rcases ho with rfl | rfl
  · exact h.decided_cju rfl
  · exact h.decided_cju rfl

theorem cju_of_outvoted (h : Decides k s b) (l : Link) :
    (settle (completeDecision .outvoted (some l) own frames b)).cju =
      { b.cju with
        chan := some .catchup, wPrev := [], wPrevValid := false
        resend := (applyOutcome .outvoted own b).cju.resend } := by
  have moved : (decided .outvoted own frames b).cju = _ := h.decided_cju rfl
  have effect : ∀ u, (startDelta l u).cju = { u.cju with wPrev := [], wPrevValid := false } := fun u =>
    congrArg (fun t => t.cju) (beginPull_frame _ _ _ (clearPrev u))
  rw [settle_cju, completeDecision_eq]
  refine (effect _).trans ?_
  rw [moved]
  rfl

theorem cju_of_excluded (h : Decides k s b) (server : Option Link) :
    ∃ c, (c = some .excluded ∨ c = some .restoring) ∧
      (settle (completeDecision .excluded server own frames b)).cju =
        { b.cju.shut with chan := c, resend := (applyOutcome .excluded own b).cju.resend } := by
  have moved : (decided .excluded own frames b).cju = _ := h.decided_cju rfl
  rw [settle_cju, completeDecision_eq]
  have tested : afterDecision .excluded server (decided .excluded own frames b) = testFull (decided .excluded own frames b) := by
    cases server <;> rfl
  rw [tested]
  rcases testFull_cju (decided .excluded own frames b) with same | pulled
  · exact ⟨_, .inl rfl, by rw [same, moved]; rfl⟩
  · exact ⟨_, .inr rfl, by rw [pulled, moved]; rfl⟩

/-- OUTVOTED starts its DELTA pull (R131, R142). -/
theorem pull_of_outvoted (h : Decides k s b) (l : Link) (hp : s.position ≠ 3) :
    let t := settle (completeDecision .outvoted (some l) own frames b)
    t.rse.pull.phase = .receiving ∧ t.rse.pull.kind = some .delta ∧ t.rse.pull.server = some l ∧
      t.rse.pull.target = s.cju.cycle + 1 ∧
      Claim.queued l (.pull ⟨.delta, 8, s.cju.cycle + 1, 0, b.cju.repair.map (BitVec.ofNat 16)⟩) s t := by
  have moved : (decided .outvoted own frames b).cju = _ := h.decided_cju rfl
  have cycle : (decided .outvoted own frames b).cju.cycle = s.cju.cycle := by rw [moved]; exact h.cycle
  have repair : (decided .outvoted own frames b).cju.repair = b.cju.repair := by rw [moved]; rfl
  have target : voteCycle (decided .outvoted own frames b) = s.cju.cycle + 1 := by rw [voteCycle, cycle]
  have begun : (completeDecision .outvoted (some l) own frames b).rse.pull = _ :=
    congrArg (fun t => t.rse.pull) (beginPull_frame _ _ _ (clearPrev (decided .outvoted own frames b)))
  dsimp only
  simp only [settle_keeps, begun]
  refine ⟨rfl, rfl, rfl, target, ?_⟩
  have position : (clearPrev (decided .outvoted own frames b)).position ≠ 3 := by
    have kept : (decided .outvoted own frames b).position = b.position := by
      rw [decided_frame]
      exact (by simp : (applyOutcome .outvoted own b).position = b.position)
    rw [← h.position] at hp
    exact fun h3 => hp (kept.symm.trans h3)
  refine queued_settle l (.pull ⟨.delta, 8, s.cju.cycle + 1, 0, b.cju.repair.map (BitVec.ofNat 16)⟩) s _ ?_ (by simp [ctrlKind])
    (.inl (by simp [ctrlKind]))
  rw [← target, ← repair]
  exact (Waits.recordEvent _ _).ctrl (mem_sendCtrl _ l _ position (by simp)) rfl

end Decides

/-! ### The part in which a decision is taken -/

theorem decides_toDecide (o : VoteOutcome) (s : State) (hm : memberRank o = false) : Decides 1 s (toDecide o s) := by
  have base : toDecide o s = dropPermit (.outcome (some o)) (takeFrames s) := by simp [toDecide, hm]
  have frame := dropPermit_frame (.outcome (some o)) (takeFrames s)
  rw [← base] at frame
  have events := Records.toDecide o s
  rw [frame] at events ⊢
  exact ⟨⟨rfl, rfl, rfl, rfl, rfl, rfl, rfl, events.weaken fun _ => notDecision_of_beside⟩, rfl⟩

end Sys2Proof.Machine
end

section
/-! PROOFS. A rollback at the decision (R130), begun with PERMIT off and ended by the rollback check (R86). -/

namespace Sys2Proof.Machine

open Sys2Proof

/-! ### The rollback check with PERMIT off -/

theorem suspectPermit_off (i : Nat) (s : State) (h : s.vtu.permitted = false) : suspectPermit i s = s := by
  have off : ∀ c, dropPermit c s = s := fun c => if_neg (by simp [h])
  unfold suspectPermit
  split
  · split
    · exact off _
    · rfl
  · rfl

/-- The check of a region with PERMIT off. -/
theorem checkRegion_off (s : State) (e : Nat × Region) (h : s.vtu.permitted = false) :
    (checkRegion s e).vtu = s.vtu ∧
      Records besideDecision (if e.2.desc.signed then 1 else 0) s (checkRegion s e) := by
  unfold checkRegion
  dsimp only
  split
  case isFalse => exact ⟨rfl, .of_eq rfl⟩
  case isTrue hs =>
    have signed : e.2.desc.signed = true := (Bool.and_eq_true_iff.1 hs).1
    rw [if_pos signed]
    split
    · rw [suspectPermit_off _ _ (by simpa [recordEvent] using h)]
      have marked : Records besideDecision 0 s (markSuspect e.1 false s) := .of_eq (by simp)
      exact ⟨by simp [recordEvent], marked.trans (.event (.rollbackCheckFault _ _ _) _ trivial)⟩
    · exact ⟨rfl, .of_eq rfl⟩

/-- With PERMIT off the checks of regions record at most one event for a signed one. -/
theorem foldl_checkRegion_off (es : List (Nat × Region)) (s : State) (h : s.vtu.permitted = false) :
    (es.foldl checkRegion s).vtu = s.vtu ∧
      Records besideDecision (es.countP (fun e => e.2.desc.signed)) s (es.foldl checkRegion s) := by
  induction es generalizing s with
  | nil => exact ⟨rfl, .of_eq rfl⟩
  | cons e es ih =>
    obtain ⟨vtu, events⟩ := checkRegion_off s e h
    obtain ⟨vtu', events'⟩ := ih (checkRegion s e) (by rw [vtu, h])
    refine ⟨vtu'.trans vtu, ?_⟩
    rw [List.countP_cons, Nat.add_comm]
    exact events.trans events'

theorem rollbackCheck_off (s : State) (h : s.vtu.permitted = false) :
    (rollbackCheck s).vtu = s.vtu ∧
      Records besideDecision (s.rgt.entries.countP (fun e => e.2.desc.signed)) s (rollbackCheck s) :=
  foldl_checkRegion_off s.rgt.entries s h

/-- A lawful table has at most 16 signed regions: no two share a slot (R6). -/
theorem countP_signed_le (s : State) (h : tableLaw s = true) : s.rgt.entries.countP (fun e => e.2.desc.signed) ≤ 16 := by
  obtain ⟨-, fits, apart⟩ := (tableLaw_iff s).1 h
  rw [List.countP_eq_length_filter, ← List.length_map (fun e : Nat × Region => e.2.desc.slot)]
  have unique : ((s.rgt.entries.filter (fun e => e.2.desc.signed)).map (fun e => e.2.desc.slot)).Nodup := by
    rw [List.Nodup, List.pairwise_map, List.pairwise_filter]
    refine apart.imp fun {a b} hab ha hb heq => ?_
    simp [descriptorsApart, ha, hb, heq] at hab
  have small : (s.rgt.entries.filter (fun e => e.2.desc.signed)).map (fun e => e.2.desc.slot) ⊆ List.range 16 := by
    intro k hk
    obtain ⟨e, he, rfl⟩ := List.mem_map.1 hk
    obtain ⟨he, hs⟩ := List.mem_filter.1 he
    have fit := (fits e he).2
    simp only [descriptorFits, hs, if_true, Bool.and_eq_true, decide_eq_true_eq] at fit
    exact List.mem_range.2 fit.2
  exact (unique.subperm small).length_le.trans (by simp)

/-! ### The part after the check -/

theorem ownEntries_congr {s t : State} (hr : t.rgt = s.rgt) (hs : t.sgu = s.sgu) : ownEntries t = ownEntries s := by
  unfold ownEntries slotEntry slotRegion sigOf
  rw [hr, hs]

theorem toRollBack_frame (m : VoteFrame) (s : State) :
    toRollBack m s =
      { s with
        cju := { s.cju with chan := some .rollingBack }
        vtu := { (takeFrames s).vtu.dropped with deciding := some ⟨currents s, m⟩ }
        lkc.tx := (toRollBack m s).lkc.tx
        cmu := s.cmu.withEvents (toRollBack m s).cmu } := by
  unfold toRollBack
  dsimp only
  rw [setChan_frame, dropPermit_frame]
  simp [Vtu.toChan_off, Vtu.dropped]

/-- A rollback at the decision begins with one event, the one of the lost PERMIT. -/
theorem Records.toRollBack_one (m : VoteFrame) (s : State) : Records besideDecision 1 s (Machine.toRollBack m s) := by
  refine ((Records.takeFrames s).trans (.dropPermit (.outcome none) _ trivial)).trans
    (.setChan_quiet (some .rollingBack)
      { Machine.dropPermit (.outcome none) (Machine.takeFrames s) with
        vtu := { (Machine.dropPermit (.outcome none) (Machine.takeFrames s)).vtu with deciding := some ⟨currents s, m⟩ } }
      (.inl ?_))
  rw [dropPermit_frame]
  rfl

/-- The part in which a rollback at the decision ends. -/
theorem Decides.rolledBack {k : Nat} {s b : State} (h : Decides k s b) (n : Nat)
    (hn : b.rgt.entries.countP (fun e => e.2.desc.signed) ≤ n) : Decides (k + n) s (rolledBack b) := by
  obtain ⟨vtu, events⟩ := rollbackCheck_off b h.permitted
  have fields : (Machine.rolledBack b).rse.service = b.rse.service ∧ (Machine.rolledBack b).cju = b.cju ∧
      (Machine.rolledBack b).position = b.position ∧ (Machine.rolledBack b).cmu.ms = b.cmu.ms ∧
      (Machine.rolledBack b).lkc = b.lkc ∧ (Machine.rolledBack b).vtu.permitted = b.vtu.permitted ∧
      (Machine.rolledBack b).vtu.last = b.vtu.last := by
    simp [Machine.rolledBack, vtu]
  obtain ⟨service, cju, position, ms, lkc, permitted, last⟩ := fields
  have checked := (events.mono hn).weaken fun _ => notDecision_of_beside
  exact ⟨⟨service.trans h.service, by rw [cju, h.resend], by rw [cju, h.cycle], position.trans h.position, ms.trans h.ms,
    last.trans h.last, by rw [lkc, h.peers], h.events.trans (checked.trans (n := 0) (.of_eq rfl))⟩, permitted.trans h.permitted⟩

theorem decides_toRollBack (m : VoteFrame) (s : State) : Decides 1 s (toRollBack m s) := by
  have events := Records.toRollBack_one m s
  rw [toRollBack_frame] at events ⊢
  exact ⟨⟨rfl, rfl, rfl, rfl, rfl, rfl, rfl, events.weaken fun _ => notDecision_of_beside⟩, rfl⟩

end Sys2Proof.Machine
end

section
/-! PROOFS. The decisions that turn PERMIT off: the outcomes, and the begin and the end of a rollback at the decision (R130). -/

namespace Sys2Proof.Machine

open Sys2Proof

/-! ### The NEXT slots (R124) -/

/-- The outcomes that repeat the vote's cycle. -/
def repeats (o : VoteOutcome) (own : VoteFrame) : Prop :=
  o = .collectiveAbandon ∨ o = .noQuorum ∧ own.kind = .abandoned

theorem table_outcome_of_repeats (v : Vtu) (o : VoteOutcome) (own : VoteFrame) (n : BitVec 32) (h : repeats o own) :
    (v.outcome o own n).table = (v.without n).table := by
  rcases h with rfl | ⟨rfl, hk⟩
  · rfl
  · unfold Vtu.outcome
    rw [hk]

theorem table_outcome_of_not_repeats (v : Vtu) (o : VoteOutcome) (own : VoteFrame) (n : BitVec 32) (h : ¬repeats o own) :
    (v.outcome o own n).table = v.table := by
  unfold Vtu.outcome
  split
  · exact absurd (.inl rfl) h
  · rfl
  case h_3 hk => exact absurd (.inr ⟨rfl, hk⟩) h
  · rfl
  · rfl

theorem get_table_without (v : Vtu) (n : BitVec 32) (l : Link) :
    (v.without n).table.get l = (v.table.get l).filter (fun g => g.cycle != n) := by
  cases l <;> rfl

theorem get_table_toDecide (o : VoteOutcome) (s : State) (l : Link) :
    (toDecide o s).vtu.table.get l = (s.vtu.table.get l).filter (fun g => g.cycle != s.cju.cycle + 1) := by
  have kept : (toDecide o s).vtu.table = (takeFrames s).vtu.table := by
    unfold toDecide
    split
    · rfl
    · rw [dropPermit_frame]; rfl
  rw [kept]
  exact get_table_takeFrames s l

theorem add_one_add_one (c : BitVec 32) : c + 1 + 1 = c + 2 := by
  rw [BitVec.add_assoc]
  rfl

/-! ### The outcomes at the vote timer's expiry -/

section
variable {o : VoteOutcome} {own : VoteFrame} {server : Option Link} {s : State}

@[simp] theorem toDecide_keeps (o : VoteOutcome) (s : State) :
    (toDecide o s).dev = s.dev ∧ (toDecide o s).times = s.times ∧ (toDecide o s).rgt = s.rgt ∧ (toDecide o s).mpu = s.mpu ∧
      (toDecide o s).sgu = s.sgu ∧ (toDecide o s).ptu = s.ptu ∧ (toDecide o s).cju = s.cju := by
  unfold toDecide
  split <;> simp

theorem cju_toDecide (o : VoteOutcome) (s : State) : (toDecide o s).cju = s.cju := by
  unfold toDecide
  split <;> simp

theorem timer_toDecide (o : VoteOutcome) (s : State) : (toDecide o s).vtu.timer = none := by
  unfold toDecide
  split
  · rfl
  · rw [dropPermit_frame]; rfl

theorem voteCycle_toDecide (o : VoteOutcome) (s : State) : voteCycle (toDecide o s) = s.cju.cycle + 1 := by
  rw [voteCycle, cju_toDecide]

/-- The frames that an outcome without PERMIT leaves in the table. -/
theorem get_table_decided (o : VoteOutcome) (own : VoteFrame) (s : State) (l : Link)
    [Decidable (o = .collectiveAbandon ∨ o = .noQuorum ∧ own.kind = .abandoned)] :
    ((toDecide o s).vtu.outcome o own (voteCycle (toDecide o s) + 1)).table.get l =
      (s.vtu.table.get l).filter (fun g => g.cycle != s.cju.cycle + 1 &&
        !((o = .collectiveAbandon ∨ o = .noQuorum ∧ own.kind = .abandoned) && g.cycle == s.cju.cycle + 2)) := by
  rw [voteCycle_toDecide, add_one_add_one]
  by_cases h : repeats o own
  · have again : o = .collectiveAbandon ∨ o = .noQuorum ∧ own.kind = .abandoned := h
    rw [table_outcome_of_repeats _ o own _ h, get_table_without, get_table_toDecide, List.filter_filter]
    refine List.filter_congr fun g _ => ?_
    rw [decide_eq_true again, Bool.true_and, Bool.and_comm]
    rfl
  · have once : ¬(o = .collectiveAbandon ∨ o = .noQuorum ∧ own.kind = .abandoned) := h
    rw [table_outcome_of_not_repeats _ o own _ h, get_table_toDecide]
    refine List.filter_congr fun g _ => ?_
    rw [decide_eq_false once, Bool.false_and]
    simp

theorem server_of_outvoted (h : Claim.rules own s (.outcome .outvoted server)) : ∃ l, server = some l := by
  rcases h with ⟨_, _, h⟩ | ⟨_, _, _, h⟩ | ⟨_, _, h⟩ | ⟨_, _, _, h⟩ | ⟨p, l, _, _, _, h⟩ | ⟨_, _, _, _, h⟩ | ⟨_, _, h⟩
  · cases h
  · cases h
  · cases h
  · cases h
  · cases h
    exact ⟨l, rfl⟩
  · cases h
  · split at h <;> cases h

/-- An outcome that is no membership, at the vote timer's expiry: what the step leaves. -/
theorem outcome_at_timer (hr : s.resetLow = false) (hc : s.cju.chan = some .voting) (ht : s.vtu.timer.isSome = true)
    (hown : s.vtu.own = some own) (ruled : Claim.rules own s (.outcome o server)) :
    exec .voteTimerExpiry s = .next (settle (completeDecision o server own (currents s) (toDecide o s))) := by
  rw [exec_voteTimerExpiry s hr hc ht, takeDecision_of_outcome own o server s hown ((rules_iff own _ s).1 ruled)]

end

theorem toDecide_vtu (o : VoteOutcome) (s : State) : (toDecide o s).vtu.agreedBase = s.vtu.agreedBase ∧
    (toDecide o s).vtu.closedSet = s.vtu.closedSet := by
  unfold toDecide
  split
  · exact ⟨rfl, rfl⟩
  · rw [dropPermit_frame]
    exact ⟨rfl, rfl⟩

theorem memberRank_of_ne {o : VoteOutcome} (h3 : o ≠ .member3) (h2 : o ≠ .member2) : memberRank o = false := by
  cases o with
  | member3 => exact absurd rfl h3
  | member2 => exact absurd rfl h2
  | collectiveAbandon => rfl
  | outvoted => rfl
  | excluded => rfl
  | noQuorum => rfl

/-! ### The rollback at the decision -/

section
variable {own m : VoteFrame} {s : State}

/-- The own frame of the part that has been rolled back at the decision. -/
def undoneFrame (m : VoteFrame) (s : State) : VoteFrame := postFrame (rollbackCheck (toRollBack m s))

/-- The outcome with which that frame completes the decision (R130). -/
def undoneOutcome (m : VoteFrame) (s : State) : VoteOutcome :=
  if framesAgree (undoneFrame m s) m then .collectiveAbandon else .excluded

/-- The part that a rollback at the decision leaves where the journal is empty. -/
def undone (m : VoteFrame) (s : State) : State :=
  settle (completeDecision (undoneOutcome m s) none (undoneFrame m s) (currents s) (rolledBack (toRollBack m s)))

/-- The vote timer's expiry begins a rollback where the majority abandons. -/
theorem rollback_at_timer (hr : s.resetLow = false) (hc : s.cju.chan = some .voting) (ht : s.vtu.timer.isSome = true)
    (hown : s.vtu.own = some own) (ruled : Claim.rules own s (.rollback m)) :
    exec .voteTimerExpiry s = .next (if s.cju.journal = [] then undone m s else settle (toRollBack m s)) := by
  rw [exec_voteTimerExpiry s hr hc ht, takeDecision_of_rollback own m s hown ((rules_iff own _ s).1 ruled)]
  split <;> rfl

theorem decides_undone (m : VoteFrame) (s : State) :
    ∃ k, Decides k s (rolledBack (toRollBack m s)) ∧ (tableLaw s = true → k ≤ 17) := by
  refine ⟨_, (decides_toRollBack m s).rolledBack _ le_rfl, fun h => ?_⟩
  have entries : (toRollBack m s).rgt.entries = s.rgt.entries := by simp [toRollBack]
  have few := countP_signed_le s h
  rw [entries]
  omega

theorem memberRank_undoneOutcome (m : VoteFrame) (s : State) : memberRank (undoneOutcome m s) = false := by
  unfold undoneOutcome
  split <;> rfl

theorem rolledBack_toRollBack_vtu (m : VoteFrame) (s : State) :
    (rolledBack (toRollBack m s)).vtu =
      { (takeFrames s).vtu.dropped with own := some (undoneFrame m s), deciding := none } := by
  have off := (rollbackCheck_off (toRollBack m s) (decides_toRollBack m s).permitted).1
  have begun : (toRollBack m s).vtu = _ := congrArg (fun t => t.vtu) (toRollBack_frame m s)
  have done : (rolledBack (toRollBack m s)).vtu =
      { (rollbackCheck (toRollBack m s)).vtu with own := some (undoneFrame m s), deciding := none } := rfl
  rw [done, off, begun]

theorem undone_vtu (m : VoteFrame) (s : State) :
    (undone m s).vtu =
      { (rolledBack (toRollBack m s)).vtu.outcome (undoneOutcome m s) (undoneFrame m s) (s.cju.cycle + 1 + 1) with
        last := some (decisionOf (undoneOutcome m s) (undoneFrame m s) (currents s) (rolledBack (toRollBack m s))) } := by
  obtain ⟨k, base, -⟩ := decides_undone m s
  have cycle : voteCycle (rolledBack (toRollBack m s)) = s.cju.cycle + 1 := congrArg (· + 1) base.cycle
  rw [← cycle]
  exact base.vtu (memberRank_undoneOutcome m s) none

/-- The own frame is that of the moment (R130). -/
theorem undoneFrame_eq (m : VoteFrame) (s : State) :
    undoneFrame m s = ⟨s.cju.cycle + 1, .abandoned, ownEntries (undone m s)⟩ := by
  have entries : ownEntries (undone m s) = ownEntries (rollbackCheck (toRollBack m s)) :=
    ownEntries_congr (by simp [undone, rolledBack]) (by simp [undone, rolledBack])
  have cycle : voteCycle (rollbackCheck (toRollBack m s)) = s.cju.cycle + 1 := by simp [voteCycle, toRollBack]
  rw [entries, ← cycle]
  rfl

/-- The loss of PERMIT at a rollback carries no outcome (R137; notes/assumptions/17). -/
theorem permitDropped_toRollBack (m : VoteFrame) (s : State) (hp : s.vtu.permitted = true)
    (room : s.cmu.events.length < 64) :
    ∃ v ∈ (toRollBack m s).cmu.events, v.body = .permitDropped (.outcome none) := by
  have dropped : dropPermit (.outcome none) (takeFrames s) =
      recordEvent (.permitDropped (.outcome none))
        { takeFrames s with vtu := { (takeFrames s).vtu with permitted := false, level := false } } := if_pos hp
  have recorded := (recordEvent_of_room (.permitDropped (.outcome none))
    { takeFrames s with vtu := { (takeFrames s).vtu with permitted := false, level := false } } room).1
  rw [← dropped] at recorded
  have moved : Records besideDecision 1
      { dropPermit (.outcome none) (takeFrames s) with
        vtu := { (dropPermit (.outcome none) (takeFrames s)).vtu with deciding := some ⟨currents s, m⟩ } }
      (toRollBack m s) := .setChan _ _ trivial
  exact ⟨_, moved.mem (recorded ▸ List.mem_append_right _ (List.mem_singleton.2 rfl)), rfl⟩

theorem permitDropped_undone (m : VoteFrame) (s : State) (hp : s.vtu.permitted = true)
    (room : s.cmu.events.length < 64) : ∃ v ∈ (undone m s).cmu.events, v.body = .permitDropped (.outcome none) := by
  obtain ⟨v, hv, hb⟩ := permitDropped_toRollBack m s hp room
  obtain ⟨n, checked⟩ := Records.rollbackCheck (toRollBack m s)
  have rolled : (rolledBack (toRollBack m s)).cmu.events = (rollbackCheck (toRollBack m s)).cmu.events := rfl
  have before : v ∈ (rolledBack (toRollBack m s)).cmu.events := rolled ▸ checked.mem hv
  have after := (Records.completeDecision (undoneOutcome m s) none (undoneFrame m s) (currents s) _).mem before
  have ended := mem_events_settle _ v (by simp [hb, eventKind]) after
  rw [← undone] at ended
  exact ⟨v, ended, hb⟩

theorem get_table_undoing (m : VoteFrame) (s : State) (l : Link) :
    (rolledBack (toRollBack m s)).vtu.table.get l = (s.vtu.table.get l).filter (fun g => g.cycle != s.cju.cycle + 1) := by
  rw [rolledBack_toRollBack_vtu]
  exact get_table_takeFrames s l

theorem undoneOutcome_cases (m : VoteFrame) (s : State) :
    Claim.agree (undoneFrame m s) m ∧ undoneOutcome m s = .collectiveAbandon ∨
      ¬Claim.agree (undoneFrame m s) m ∧ undoneOutcome m s = .excluded := by
  rw [← framesAgree_iff]
  by_cases h : framesAgree (undoneFrame m s) m = true
  · exact .inl ⟨h, if_pos h⟩
  · exact .inr ⟨h, if_neg h⟩

/-- A rollback at the decision leaves c (R129, R132). -/
theorem undone_cycle (m : VoteFrame) (s : State) : (undone m s).cju.cycle = s.cju.cycle := by
  obtain ⟨k, base, -⟩ := decides_undone m s
  have effect := congrArg (fun t => t.cju.cycle)
    (applyOutcome_frame (undoneOutcome m s) (undoneFrame m s) _ (memberRank_undoneOutcome m s) base.permitted)
  rw [undone, settle_cju, completeDecision_cycle]
  refine effect.trans (Eq.trans ?_ base.cycle)
  rcases undoneOutcome_cases m s with ⟨-, ho⟩ | ⟨-, ho⟩
  · rw [ho]; rfl
  · rw [ho]; rfl

end

theorem Vtu.outcome_rest (v : Vtu) (o : VoteOutcome) (own : VoteFrame) (n : BitVec 32) :
    (v.outcome o own n).level = v.level ∧ (v.outcome o own n).timer = v.timer ∧
      (v.outcome o own n).deciding = v.deciding ∧ (v.outcome o own n).own = v.own := by
  unfold Vtu.outcome
  split <;> exact ⟨rfl, rfl, rfl, rfl⟩

/-- Settles O42: the table line by line, the outcomes without PERMIT, and the rollback at the decision. -/
theorem lostVotesTurnPermitOff : Obligations.LostVotesTurnPermitOff := by
  unfold Obligations.LostVotesTurnPermitOff
  refine ⟨rules_iff, rules_excluded_of_suspect, fun own o server s hr hc ht hown hp ruled h3 h2 => ?outcome,
    fun own m s hr hc ht hown ruled => ?rollback⟩
  case outcome =>
    have hm := memberRank_of_ne h3 h2
    have base := decides_toDecide o s hm
    have cju := cju_toDecide o s
    obtain ⟨agreed, closed⟩ := toDecide_vtu o s
    have vtu := base.vtu (own := own) (frames := currents s) hm server
    refine ⟨_, outcome_at_timer hr hc ht hown ruled, ?permit, base.recorded hm 3 (by decide) server,
      ⟨_, by rw [vtu], rfl, voteCycle_toDecide o s, base.ms, base.agreeing⟩, base.viewed server, by simp, by simp,
      by simp, by simp, by simp, fun hs => base.idle hm hs server, fun hs => ⟨?stays, ?stale, ?lost, ?undone, ?outvoted,
      ?excluded⟩, ?timer, by simp, by simp, by simp, fun l => ?table, ?abandon, ?quorum, ?catchup, ?shut⟩
    case permit =>
      rw [vtu]
      exact (Vtu.outcome_permitted _ _ _ _).trans base.permitted
    case timer =>
      obtain ⟨-, timer, -⟩ := Vtu.outcome_rest (toDecide o s).vtu o own (voteCycle (toDecide o s) + 1)
      rw [vtu]
      exact timer.trans (timer_toDecide o s)
    case table =>
      rw [vtu]
      exact get_table_decided o own s l
    case stays =>
      rintro rfl
      exact base.stays server
    case stale =>
      rintro rfl hk hd
      exact base.closed_ends_delta 2 (by decide) hs server hk hd
    case lost =>
      rintro rfl hk hd
      exact base.closed_ends_other 2 (by decide) hs server hk hd
    case undone =>
      rintro rfl hk
      exact base.abandoned_ends 2 (by decide) hs server hk
    case outvoted =>
      rintro rfl
      exact base.outvoted_ends 2 (by decide) hs server
    case excluded =>
      rintro rfl
      exact base.excluded_ends 2 (by decide) hs server
    case abandon =>
      rintro rfl
      have journal := base.cju_of_ready (own := own) (frames := currents s) server (.inl rfl)
      rw [cju] at journal
      rw [vtu, journal]
      exact ⟨rfl, rfl, rfl, agreed, closed, rfl, rfl, rfl, rfl⟩
    case quorum =>
      rintro rfl
      have journal := base.cju_of_ready (own := own) (frames := currents s) server (.inr rfl)
      rw [cju] at journal
      rw [vtu, journal]
      cases hk : own.kind with
      | closed => simp [Cju.outcome, Vtu.outcome, Cju.closed, hk]
      | abandoned => simp [Cju.outcome, Vtu.outcome, Vtu.without, Cju.repeated, hk, closed]
    case catchup =>
      rintro rfl
      obtain ⟨l, rfl⟩ := server_of_outvoted ruled
      have journal := base.cju_of_outvoted (own := own) (frames := currents s) l
      obtain ⟨phase, kind, from', target, queued⟩ := base.pull_of_outvoted (own := own) (frames := currents s) l hp
      rw [cju] at journal queued
      rw [vtu, journal]
      exact ⟨rfl, rfl, agreed, closed, rfl, rfl, l, rfl, phase, kind, from', target, queued⟩
    case shut =>
      rintro rfl
      obtain ⟨c, hc, journal⟩ := base.cju_of_excluded (own := own) (frames := currents s) server
      rw [cju] at journal
      rw [vtu, journal]
      exact ⟨hc, rfl, rfl, rfl, rfl, rfl, rfl, rfl, closed⟩
  case rollback =>
    refine ⟨_, rollback_at_timer hr hc ht hown ruled, ?_⟩
    by_cases hj : s.cju.journal = []
    · obtain ⟨k, base, hk⟩ := decides_undone m s
      have vtu := undone_vtu m s
      have off : (undone m s).vtu.permitted = false := by
        rw [vtu]
        exact (Vtu.outcome_permitted _ _ _ _).trans base.permitted
      have begun := rolledBack_toRollBack_vtu m s
      have kept : (undone m s).vtu.level = (rolledBack (toRollBack m s)).vtu.level ∧
          (undone m s).vtu.timer = (rolledBack (toRollBack m s)).vtu.timer ∧
          (undone m s).vtu.deciding = (rolledBack (toRollBack m s)).vtu.deciding ∧
          (undone m s).vtu.own = (rolledBack (toRollBack m s)).vtu.own := by
        rw [vtu]
        exact Vtu.outcome_rest _ _ _ _
      obtain ⟨level, timer, deciding, own'⟩ := kept
      rw [begun] at level timer deciding own'
      rw [if_pos hj, ← undoneFrame_eq]
      refine ⟨off, fun hp => ?level, timer, permitDropped_undone m s, by simp [undone, rolledBack, toRollBack],
        by simp [undone, rolledBack, toRollBack], undone_cycle m s, fun h => absurd hj h, fun _ => ⟨deciding, own',
          fun hl => base.recorded (memberRank_undoneOutcome m s) 20 (Nat.add_le_add_right (hk hl) 2 |>.trans (by decide)) none,
          ⟨_, by rw [vtu], congrArg (· + 1) base.cycle, base.ms, base.agreeing⟩, base.viewed none, fun ha => ?agrees,
          fun ha => ?parts⟩⟩
      case level =>
        rw [level]
        exact (congrArg (fun p => s.vtu.level && !p) hp).trans (Bool.and_false _)
      case agrees =>
        have ho : undoneOutcome m s = .collectiveAbandon := if_pos ((framesAgree_iff _ m).2 ha)
        rw [ho] at vtu
        refine ⟨?_, by rw [vtu]; rfl, ?_, fun l => ?_⟩
        · rw [undone, ho]
          exact base.stays none
        · rw [undone, ho, base.cju_of_ready none (.inl rfl)]
          rfl
        · rw [vtu]
          refine (get_table_without _ _ l).trans ?_
          rw [get_table_undoing, List.filter_filter, add_one_add_one]
          exact List.filter_congr fun g _ => Bool.and_comm _ _
      case parts =>
        have ho : undoneOutcome m s = .excluded := if_neg (mt (framesAgree_iff _ m).1 ha)
        rw [ho] at vtu
        refine ⟨fun hl hs => ?_, fun l => ?_, by rw [vtu]; rfl, by rw [vtu]; rfl, ?_⟩
        · rw [undone, ho]
          exact base.excluded_ends 20 (Nat.add_le_add_right (hk hl) 1 |>.trans (by decide)) hs none
        · rw [vtu]
          exact get_table_undoing m s l
        · obtain ⟨c, hc, cju⟩ := base.cju_of_excluded (own := undoneFrame m s) (frames := currents s) none
          rw [undone, ho, cju]
          exact hc
    · rw [if_neg hj]
      have vtu : (settle (toRollBack m s)).vtu = { (takeFrames s).vtu.dropped with deciding := some ⟨currents s, m⟩ } := by
        simp only [settle_keeps]
        exact congrArg (fun t => t.vtu) (toRollBack_frame m s)
      have cju : (settle (toRollBack m s)).cju = { s.cju with chan := some .rollingBack } := by
        rw [settle_cju]
        exact congrArg (fun t => t.cju) (toRollBack_frame m s)
      have dropped : s.vtu.permitted = true → s.cmu.events.length < 64 →
          ∃ v ∈ (settle (toRollBack m s)).cmu.events, v.body = .permitDropped (.outcome none) := fun hp room =>
        let ⟨v, hv, hb⟩ := permitDropped_toRollBack m s hp room
        ⟨v, mem_events_settle _ _ (by simp [hb, eventKind]) hv, hb⟩
      refine ⟨by rw [vtu]; rfl, fun hp => ?_, by rw [vtu]; rfl, dropped, by simp [toRollBack], by simp [toRollBack], by rw [cju],
        fun _ => ⟨fun l => ?_, by rw [cju], by rw [vtu]; rfl, by rw [cju], by rw [cju], by rw [vtu]; rfl, by rw [vtu]; rfl,
          by rw [vtu]; rfl, by simp [toRollBack], by simp [toRollBack], by simp [toRollBack], by rw [cju], toRollBack m s,
          settle_end _, (decides_toRollBack m s).service⟩, fun h => absurd h hj⟩
      · rw [vtu]
        have level : (takeFrames s).vtu.dropped.level = (s.vtu.level && !s.vtu.permitted) := rfl
        rw [level, hp]
        simp
      · rw [vtu]
        exact get_table_takeFrames s l

end Sys2Proof.Machine
end

section
/-! PROOFS. An abandoned cycle up to its rollback or its vote (R77, R78), and the hand-over of the own frame (R74, R86, R125). -/

namespace Sys2Proof.Machine

open Sys2Proof

/-! ### The service at the end of a step does not see the port -/

/-- The part with another port, queue and command unit. -/
def withPort (s : State) (p : Ppt) (q : Pwq) (c : Cmu) : State := { s with ppt := p, pwq := q, cmu := c }

theorem releaseHeld_frame (s : State) :
    releaseHeld s = withPort s (releaseHeld s).ppt (releaseHeld s).pwq (releaseHeld s).cmu := by
  refine State.ext_fields _ _ ?_ ?_ ?_ ?_ ?_ ?_ ?_ rfl rfl ?_ ?_ ?_ ?_ ?_ ?_ ?_ rfl <;> simp [withPort]

theorem endService_withPort (r : PullResult) (es : Option (List SigEntry)) (s : State) (p : Ppt) (q : Pwq) (c : Cmu) :
    (endService r es (withPort s p q c)).rse.service = (endService r es s).rse.service := by
  by_cases h : serving s = false ∨ s.rse.service.requester = none
  · rw [endService_of_not_serving r es s h, endService_of_not_serving r es (withPort s p q c) h]
    rfl
  · obtain ⟨hs, hl⟩ := not_or.1 h
    obtain ⟨l, hl⟩ := Option.ne_none_iff_exists'.1 hl
    have hs : serving s = true := by simpa using hs
    rw [endService_of_serving r es l s hs hl, endService_of_serving r es l (withPort s p q c) hs hl]
    rfl

theorem finishService_withPort (s : State) (p : Ppt) (q : Pwq) (c : Cmu) :
    (finishService (withPort s p q c)).rse.service = (finishService s).rse.service := by
  unfold finishService
  have requester : (withPort s p q c).rse.service.requester = s.rse.service.requester := rfl
  rw [requester]
  cases s.rse.service.requester with
  | none => rfl
  | some l =>
    have ended := endService_withPort .done (some s.vtu.closedSet) s p q c
    refine (apply_ite (fun v : State => v.rse.service) _ _ _).trans ?_
    exact (ite_congr rfl (fun _ => ended) (fun _ => rfl)).trans (apply_ite (fun v : State => v.rse.service) _ _ s).symm

theorem walked_withPort (s : State) (p : Ppt) (q : Pwq) (c : Cmu) :
    nothingLeft (marksReturn (walkEnds (withPort s p q c))) = withPort (nothingLeft (marksReturn (walkEnds s))) p q c := by
  have walks : ∀ u, walkEnds (withPort u p q c) = withPort (walkEnds u) p q c := fun u => by
    unfold walkEnds
    rw [apply_ite (withPort · p q c)]
    rfl
  have returns : ∀ u, marksReturn (withPort u p q c) = withPort (marksReturn u) p q c := fun u => by
    unfold marksReturn
    rw [apply_ite (withPort · p q c)]
    rfl
  have left : ∀ u, nothingLeft (withPort u p q c) = withPort (nothingLeft u) p q c := fun u => by
    unfold nothingLeft
    rw [apply_ite (withPort · p q c)]
    rfl
  rw [walks, returns, left]

/-- What the service does at the end of a step depends neither on the port nor on the command unit. -/
theorem settle_service_withPort (s : State) (p : Ppt) (q : Pwq) (c : Cmu) :
    (settle (withPort s p q c)).rse.service = (settle s).rse.service := by
  have ticked : ∀ (u : State) (p : Ppt) (q : Pwq) (c : Cmu),
      (serviceTick (withPort u p q c)).rse.service = (serviceTick u).rse.service := by
    intro u p q c
    have finished := finishService_withPort (nothingLeft (marksReturn (walkEnds u))) p q c
    rw [← walked_withPort] at finished
    have target : serverTarget (serviceTick (withPort u p q c)) = serverTarget (serviceTick u) := by
      have marks : (serviceTick (withPort u p q c)).cju.resend = (serviceTick u).cju.resend := by
        rw [serviceTick_resend, serviceTick_resend]
        rfl
      refine serverTarget_congr _ _ ?_ ?_ ?_ ?_ ?_ (by simp [withPort]) marks <;>
        rw [serviceTick_service, serviceTick_service u, finished]
    rw [serviceTick_service, serviceTick_service u, finished, target]
    rfl
  have alone : ∀ u, (settle u).rse.service = (serviceTick u).rse.service := fun u => by
    unfold settle
    simp only [kick_keeps]
    rw [releaseHeld_frame, ticked]
  rw [alone, alone, ticked]

end Sys2Proof.Machine
end

section
/-! PROOFS. An abandoned cycle up to its rollback or its vote (R77, R78), and the hand-over of the own frame (R74, R86, R125). -/

namespace Sys2Proof.Machine

open Sys2Proof

/-! ### The hand-over -/

/-- The part that has handed its frame over, before the condition of R125 is tested. -/
def handed (f : VoteFrame) (s : State) : State :=
  setChan (some .voting)
    (sendBoth (.vote f) { s with vtu := { s.vtu with own := some f, timer := some s.times.voteTimeout } })

theorem handOver_eq (f : VoteFrame) (s : State) : handOver f s = testDecision (handed f s) := rfl

theorem handed_frame (f : VoteFrame) (s : State) :
    handed f s =
      { s with
        cju := { s.cju with chan := some .voting }
        vtu := { s.vtu with own := some f, timer := some s.times.voteTimeout }
        lkc.tx := (handed f s).lkc.tx } := by
  unfold handed
  rw [setChan_of_permitState _ _ rfl, sendBoth_frame]

theorem awaits_handed (f : VoteFrame) (s : State) (l : Link) : Claim.awaits (handed f s) l ↔ Claim.awaits s l := by
  rw [handed_frame]
  exact Iff.rfl

theorem handed_chan (f : VoteFrame) (s : State) : (handed f s).cju.chan = some .voting := by rw [handed_frame]

/-- While a HEARD peer's frame is missing the part waits for it. -/
theorem handOver_of_waits (f : VoteFrame) (s : State) (h : ∃ l, Claim.awaits s l) : handOver f s = handed f s :=
  testDecision_of_waits (handed f s) fun _ => h.imp fun l => (awaits_handed f s l).2

/-- With every frame there the decision is taken at once. -/
theorem handOver_of_decides (f : VoteFrame) (s : State) (h : ∀ l, ¬Claim.awaits s l) :
    handOver f s = takeDecision (handed f s) :=
  testDecision_of_decides (handed f s) (handed_chan f s) fun l => mt (awaits_handed f s l).1 (h l)

/-- The VOTE is queued on both links. -/
theorem Waits.setVoting (s : State) : Waits 2 s (Machine.setChan (some .voting) s) := .setChan _ _ (by decide)

theorem mem_handed (f : VoteFrame) (s : State) (hp : s.position ≠ 3) (l : Link) :
    .vote f ∈ ((handed f s).lkc.tx.get l).ctrl := by
  have sent : .vote f ∈ ((sendBoth (.vote f)
      { s with vtu := { s.vtu with own := some f, timer := some s.times.voteTimeout } }).lkc.tx.get l).ctrl :=
    
    mem_sendBoth (.vote f) { s with vtu := { s.vtu with own := some f, timer := some s.times.voteTimeout } } hp (by simp) l
  exact (Waits.setVoting _).ctrl sent rfl

theorem queued_handed (f : VoteFrame) (s x : State) (hp : s.position ≠ 3) (tx : x.lkc.tx = (handed f s).lkc.tx) (v : State) (l : Link) :
    Claim.queued l (.vote f) v (settle x) := by
  refine queued_settle l (.vote f) v x ?_ (by simp [ctrlKind]) (.inl (by simp [ctrlKind]))
  rw [tx]
  exact mem_handed f s hp l

/-! ### A decision over an ABANDONED frame -/

/-- The ruling on an ABANDONED frame is an outcome without PERMIT. -/
theorem outcome_of_abandoned (own : VoteFrame) (s : State) (hk : own.kind = .abandoned) :
    ∃ o server, rule s own (currents s) = .outcome o server ∧ memberRank o = false := by
  rcases (rules_iff own (rule s own (currents s)) s).2 rfl with ⟨h, -⟩ | ⟨h, -⟩ | ⟨-, -, h⟩ | ⟨p, -, ⟨-, h, -⟩, -⟩ |
    ⟨p, l, -, -, -, h⟩ | ⟨p, -, -, -, h⟩ | ⟨-, -, h⟩
  · rw [hk] at h; cases h
  · rw [hk] at h; cases h
  · exact ⟨_, _, h, rfl⟩
  · rw [hk] at h; cases h
  · exact ⟨_, _, h, rfl⟩
  · exact ⟨_, _, h, rfl⟩
  · exact ⟨_, _, h, by split <;> rfl⟩

/-- A decision over an ABANDONED frame turns PERMIT off, and leaves the own frame and the table of regions. -/
theorem takeDecision_abandoned (own : VoteFrame) (s : State) (hown : s.vtu.own = some own) (hk : own.kind = .abandoned) :
    (takeDecision s).vtu.own = some own ∧ (takeDecision s).vtu.permitted = false ∧
      (takeDecision s).vtu.level = s.vtu.dropped.level ∧ (takeDecision s).rgt = s.rgt := by
  obtain ⟨o, server, ruled, hm⟩ := outcome_of_abandoned own s hk
  have base := decides_toDecide o s hm
  have vtu := base.vtu (own := own) (frames := currents s) hm server
  obtain ⟨level, -, -, kept⟩ := Vtu.outcome_rest (toDecide o s).vtu o own (voteCycle (toDecide o s) + 1)
  have dropped : (toDecide o s).vtu = (takeFrames s).vtu.dropped := by
    unfold toDecide
    rw [hm]
    exact dropPermit_vtu _ _
  simp only [settle_keeps] at vtu
  rw [takeDecision_of_outcome own o server s hown ruled, vtu]
  refine ⟨kept.trans ?_, (Vtu.outcome_permitted _ _ _ _).trans base.permitted, level.trans ?_, by simp⟩
  · rw [dropped]
    exact hown
  · rw [dropped]
    rfl

/-! ### The abandon (R77, R78) -/

/-- The part at an abandon: PERMIT and the limit are off, the event is recorded, and the signed entries have left the queue. -/
def abandoning (c : AbandonCause) (s : State) : State :=
  dropSigned { recordEvent (.abandoned c) (dropPermit .abandon s) with cju.timer := none }

theorem leaveQueue_frame (gone stay : List PwqEntry) (s : State) :
    leaveQueue gone stay s =
      { s with
        pwq := { s.pwq with entries := stay, hold := (leaveQueue gone stay s).pwq.hold }
        ppt := { s.ppt with held := s.ppt.held.map (lessHazard gone) } } := by
  unfold leaveQueue lowerHold
  split <;> rfl

theorem abandoning_frame (c : AbandonCause) (s : State) :
    abandoning c s =
      { s with
        cju := { s.cju with timer := none }
        vtu := s.vtu.dropped
        pwq := (abandoning c s).pwq
        ppt := (abandoning c s).ppt
        cmu := s.cmu.withEvents (abandoning c s).cmu } := by
  unfold abandoning dropSigned
  rw [leaveQueue_frame, recordEvent_frame, dropPermit_frame]
  rfl

theorem abandoning_entries (c : AbandonCause) (s : State) :
    (abandoning c s).pwq.entries = s.pwq.entries.filter (fun e => !e.signed) := by
  unfold abandoning dropSigned
  rw [leaveQueue_frame]
  simp

/-- The cases of an abandon: the cycle cannot be rolled back, has a journal to put back, or has none. -/
theorem abandon_of_open (c : AbandonCause) (s : State) (h : cycleOpen s = true) :
    abandon c s =
      if s.cju.unrevertible then handOver (unrevertibleFrame (abandoning c s)) (abandoning c s)
      else if s.cju.journal = [] then finishRollback (setChan (some .rollingBack) (abandoning c s))
      else setChan (some .rollingBack) (abandoning c s) := by
  have unrevertible : (abandoning c s).cju.unrevertible = s.cju.unrevertible := by rw [abandoning_frame]
  have journal : (setChan (some .rollingBack) (abandoning c s)).cju.journal = s.cju.journal := by
    rw [setChan_frame, abandoning_frame]
  rw [← unrevertible, ← journal]
  exact if_pos h

/-- The kinds of the events of an abandon before its vote. -/
def ofAbandon (b : EventBody) : Prop := besideDecision b ∨ ∃ c, b = .abandoned c

theorem Records.abandoning (c : AbandonCause) (s : State) : Records ofAbandon 2 s (Machine.abandoning c s) := by
  have dropped : Records ofAbandon 1 s (Machine.dropPermit .abandon s) := .dropPermit _ _ (.inl trivial)
  have recorded : Records ofAbandon 1 (Machine.dropPermit .abandon s)
      (Machine.recordEvent (.abandoned c) (Machine.dropPermit .abandon s)) := .event _ _ (.inr ⟨c, rfl⟩)
  exact (dropped.trans recorded).trans (n := 0) (.of_eq (by simp [Machine.abandoning]))

/-- The abandon is recorded, where its queue has room (R77). -/
theorem abandoned_mem (c : AbandonCause) (s : State) (room : s.cmu.events.length + 2 ≤ 64) :
    ∃ r ∈ (abandoning c s).cmu.events, r.body = .abandoned c := by
  have dropped := (Records.dropPermit (admits := fun _ => True) .abandon s trivial).length_le
  have recorded := (recordEvent_of_room (.abandoned c) (dropPermit .abandon s) (by omega)).1
  have kept : (abandoning c s).cmu.events = (recordEvent (.abandoned c) (dropPermit .abandon s)).cmu.events := by
    simp [abandoning]
  rw [kept, recorded]
  exact ⟨_, List.mem_append_right _ (List.mem_singleton.2 rfl), rfl⟩

end Sys2Proof.Machine
end

section
/-! PROOFS. An abandon as `Claim.abandoned` says it, and what ends in it: the cycle limit, ABANDON_CYCLE and the drain of a
close (R72, R74, R75, R77). -/

namespace Sys2Proof.Machine

open Sys2Proof

/-! ### The hand-over of an ABANDONED frame -/

/-- From `s`, findings have led to `u`, with at most `k` events: regions, PERMIT and the repair list apart the part is the same,
and where the cycle cannot be rolled back another block may have its mark. -/
structure Follows (k : Nat) (s u : State) : Prop where
  vtu : u.vtu = { s.vtu with permitted := u.vtu.permitted, level := u.vtu.level }
  level : s.vtu.permitted = true → u.vtu.dropped.level = false
  cju : u.cju = { s.cju with wCur := u.cju.wCur, repair := u.cju.repair, repairOverflow := u.cju.repairOverflow }
  marks : s.cju.unrevertible = false → u.cju.wCur = s.cju.wCur
  entries : u.pwq.entries = s.pwq.entries
  peers : u.lkc.peers = s.lkc.peers
  service : u.rse.service = s.rse.service
  times : u.times = s.times
  position : u.position = s.position
  sgu : u.sgu = s.sgu
  table : tableOf u = tableOf s
  events : u.cmu.events.length ≤ s.cmu.events.length + k

theorem Follows.refl (s : State) : Follows 0 s s :=
  ⟨rfl, fun h => by simp [Vtu.dropped, h], rfl, fun _ => rfl, rfl, rfl, rfl, rfl, rfl, rfl, rfl, le_rfl⟩

/-- From `s`, the part that hands an ABANDONED frame over: PERMIT and the limit are off. -/
structure Hands (s c : State) : Prop where
  vtu : c.vtu = { s.vtu.dropped with level := c.vtu.level }
  level : s.vtu.permitted = true → c.vtu.level = false
  cju : c.cju = { s.cju with
    chan := c.cju.chan, timer := none, wCur := c.cju.wCur, repair := c.cju.repair, repairOverflow := c.cju.repairOverflow }
  marks : s.cju.unrevertible = false → c.cju.wCur = s.cju.wCur
  peers : c.lkc.peers = s.lkc.peers
  service : c.rse.service = s.rse.service
  times : c.times = s.times
  position : c.position = s.position

/-- With PERMIT off the line is where it was. -/
theorem Vtu.level_dropped_off (v : Vtu) (h : v.permitted = false) : v.dropped.level = v.level :=
  (congrArg (fun b => v.level && !b) h).trans (Bool.and_true _)

/-- What a hand-over of an ABANDONED frame leaves, whether the vote waits or has decided. -/
theorem handOver_own (f : VoteFrame) (c : State) (hk : f.kind = .abandoned) :
    (handOver f c).vtu.own = some f ∧ (handOver f c).rgt = c.rgt := by
  have frame := handed_frame f c
  by_cases h : ∃ l, Claim.awaits c l
  · rw [handOver_of_waits f c h, frame]
    exact ⟨rfl, rfl⟩
  · obtain ⟨own, -, -, rgt⟩ := takeDecision_abandoned f (handed f c) (by rw [frame]) hk
    rw [handOver_of_decides f c (not_exists.1 h)]
    exact ⟨own, rgt.trans (by rw [frame])⟩

/-- A hand-over of an ABANDONED frame leaves PERMIT off. -/
theorem handOver_off (f : VoteFrame) (c : State) (hk : f.kind = .abandoned) (hp : c.vtu.permitted = false) :
    (handOver f c).vtu.permitted = false ∧ (handOver f c).vtu.level = c.vtu.level := by
  have frame := handed_frame f c
  by_cases h : ∃ l, Claim.awaits c l
  · rw [handOver_of_waits f c h, frame]
    exact ⟨hp, rfl⟩
  · obtain ⟨-, permitted, level, -⟩ := takeDecision_abandoned f (handed f c) (by rw [frame]) hk
    rw [handOver_of_decides f c (not_exists.1 h)]
    refine ⟨permitted, level.trans ?_⟩
    rw [Vtu.level_dropped_off _ (by rw [frame]; exact hp), frame]

/-- The part with other W_CUR marks. -/
def withMarks (w : List Nat) (s : State) : State := { s with cju := { s.cju with wCur := w } }

theorem marks_dropPermit (w : List Nat) (c : PermitCause) (s : State) :
    dropPermit c (withMarks w s) = withMarks w (dropPermit c s) := by
  unfold dropPermit withMarks recordEvent
  split <;> rfl

/-- A decision over an ABANDONED frame of a cycle that cannot be rolled back does not look at the W_CUR marks: it clears them
(R129, R132). -/
theorem takeDecision_withMarks (w : List Nat) (own : VoteFrame) (s : State) (hown : s.vtu.own = some own)
    (hk : own.kind = .abandoned) (hu : s.cju.unrevertible = true) :
    takeDecision (withMarks w s) = takeDecision s := by
  obtain ⟨o, server, ruled, -⟩ := outcome_of_abandoned own s hk
  have clears : o = .collectiveAbandon ∨ o = .excluded := by
    rcases (rules_iff own (.outcome o server) s).2 ruled with ⟨h, -⟩ | ⟨h, -⟩ | ⟨-, -, h⟩ | ⟨p, -, ⟨-, h, -⟩, -⟩ |
      ⟨p, l, -, ⟨-, -, h, -⟩, -⟩ | ⟨p, -, -, -, h⟩ | ⟨-, -, h⟩
    · rw [hk] at h; cases h
    · rw [hk] at h; cases h
    · cases h; exact .inl rfl
    · rw [hk] at h; cases h
    · rw [hu] at h; cases h
    · cases h; exact .inr rfl
    · rw [if_pos ⟨hk, hu⟩] at h
      cases h
      exact .inr rfl
  have decided : toDecide o (withMarks w s) = withMarks w (toDecide o s) := by
    rcases clears with rfl | rfl
    · exact marks_dropPermit w _ (takeFrames s)
    · exact marks_dropPermit w _ (takeFrames s)
  have effect : ∀ u, applyOutcome o own (withMarks w u) = applyOutcome o own u := fun u => by
    rcases clears with rfl | rfl
    · rfl
    · rfl
  have same : ∀ u, completeDecision o server own (currents s) (withMarks w u) =
      completeDecision o server own (currents s) u := fun u => by
    unfold completeDecision
    rw [effect]
    rfl
  rw [takeDecision_of_outcome own o server s hown ruled,
    takeDecision_of_outcome own o server (withMarks w s) hown ruled, decided]
  exact same _

namespace Hands

variable {s u c x : State} {f : VoteFrame}

theorem of_follows {k : Nat} (h : Follows k s u) (hv : c.vtu = u.vtu.dropped)
    (hc : c.cju = { u.cju with chan := c.cju.chan, timer := none }) (hp : c.lkc.peers = u.lkc.peers)
    (hs : c.rse.service = u.rse.service) (ht : c.times = u.times) (ho : c.position = u.position) : Hands s c where
  vtu := by
    rw [hv, h.vtu]
    rfl
  level hp := by rw [hv]; exact h.level hp
  cju := by
    have marks : c.cju.wCur = u.cju.wCur ∧ c.cju.repair = u.cju.repair ∧ c.cju.repairOverflow = u.cju.repairOverflow := by
      rw [hc]
      exact ⟨rfl, rfl, rfl⟩
    obtain ⟨cur, repair, full⟩ := marks
    rw [cur, repair, full, hc, h.cju]
  marks hu := by rw [hc]; exact h.marks hu
  peers := hp.trans h.peers
  service := hs.trans h.service
  times := ht.trans h.times
  position := ho.trans h.position

theorem rest (h : Hands s c) : c.cju.cycle = s.cju.cycle ∧ c.cju.unrevertible = s.cju.unrevertible := by
  rw [h.cju]
  exact ⟨rfl, rfl⟩

theorem awaits (h : Hands s c) (l : Link) : Claim.awaits c l ↔ Claim.awaits s l := by
  obtain ⟨cycle, -⟩ := h.rest
  unfold Claim.awaits
  rw [h.peers, h.vtu, cycle]
  exact Iff.rfl

theorem permitted (h : Hands s c) : c.vtu.permitted = false := by
  rw [h.vtu]
  rfl

/-- While a HEARD peer's frame is missing the vote waits (R125). -/
theorem waits (h : Hands s c) (hx : x = { handOver f c with cmu := x.cmu }) (ha : ∃ l, Claim.awaits s l) :
    (settle x).cju.chan = some .voting ∧ (settle x).vtu.timer = some s.times.voteTimeout ∧
      (s.position ≠ 3 → ∀ l, Claim.queued l (.vote f) s (settle x)) := by
  have waiting := handOver_of_waits f c (ha.imp fun l => (h.awaits l).2)
  rw [waiting] at hx
  refine ⟨?_, ?_, fun hp l => queued_handed f c x (by rwa [h.position]) (by rw [hx]) s l⟩
  · simp only [settle_keeps]
    rw [hx]
    exact handed_chan f c
  · simp only [settle_keeps]
    rw [hx, handed_frame, h.times]

/-- The decision does not look at the marks that findings left. -/
theorem decision (h : Hands s c) (hk : f.kind = .abandoned) :
    takeDecision (withMarks s.cju.wCur (handed f c)) = takeDecision (handed f c) := by
  obtain ⟨-, same⟩ := h.rest
  have frame := handed_frame f c
  cases hu : s.cju.unrevertible with
  | true => exact takeDecision_withMarks _ f _ (by rw [frame]) hk (by rw [frame]; exact same.trans hu)
  | false =>
    have marks : (handed f c).cju.wCur = s.cju.wCur := by rw [frame]; exact h.marks hu
    rw [← marks]
    rfl

/-- With every frame there the decision is that of the vote timer's expiry (R125). -/
theorem decides (h : Hands s c) (hk : f.kind = .abandoned) (hr : c.resetLow = false)
    (hx : x = { handOver f c with cmu := x.cmu }) (ha : ∀ l, ¬Claim.awaits s l) : ∃ u v,
      exec .voteTimerExpiry u = .next v ∧
      u.cju = { s.cju with
        chan := some .voting, timer := none, repair := (settle x).cju.repair,
        repairOverflow := (settle x).cju.repairOverflow } ∧
      u.vtu = { s.vtu with
        own := (settle x).vtu.own, timer := some s.times.voteTimeout, permitted := false, level := (settle x).vtu.level } ∧
      u.lkc.peers = s.lkc.peers ∧ u.rgt = (settle x).rgt ∧ u.rse.service = s.rse.service ∧
      v.cju = (settle x).cju ∧ v.vtu = (settle x).vtu ∧ v.lkc.peers = (settle x).lkc.peers ∧
      v.rse.service = (settle x).rse.service := by
  have deciding := handOver_of_decides f c fun l => mt (h.awaits l).1 (ha l)
  obtain ⟨own, rgt⟩ := handOver_own f c hk
  obtain ⟨-, level⟩ := handOver_off f c hk h.permitted
  have frame := handed_frame f c
  have decision := h.decision hk
  have port : settle x = settle (withPort (takeDecision (handed f c)) x.ppt x.pwq x.cmu) := by
    rw [deciding] at hx
    rw [hx]
    rfl
  have same : x.cju = (takeDecision (handed f c)).cju ∧ x.vtu = (takeDecision (handed f c)).vtu ∧
      x.lkc = (takeDecision (handed f c)).lkc ∧ x.rgt = (takeDecision (handed f c)).rgt := by
    rw [deciding] at hx
    rw [hx]
    exact ⟨rfl, rfl, rfl, rfl⟩
  obtain ⟨cju, vtu, lkc, table⟩ := same
  rw [deciding] at own level rgt
  have repair : (takeDecision (handed f c)).cju.repair = c.cju.repair ∧
      (takeDecision (handed f c)).cju.repairOverflow = c.cju.repairOverflow := by
    simp only [takeDecision_keeps]
    rw [frame]
    exact ⟨rfl, rfl⟩
  refine ⟨withMarks s.cju.wCur (handed f c), _,
    exec_voteTimerExpiry _ (by rw [frame]; exact hr) (handed_chan f c) (by rw [frame]; rfl), ?_, ?_, ?_, ?_, ?_, ?_, ?_, ?_, ?_⟩
  · rw [settle_cju, cju, repair.1, repair.2, frame]
    exact congrArg (fun j : Cju => { j with chan := some .voting, wCur := s.cju.wCur }) h.cju
  · simp only [settle_keeps]
    rw [vtu, own, level, frame, h.times]
    exact congrArg (fun v : Vtu => { v with own := some f, timer := some s.times.voteTimeout }) h.vtu
  · rw [frame]
    exact h.peers
  · simp only [settle_keeps]
    rw [table, rgt, frame]
    rfl
  · rw [frame]
    exact h.service
  · rw [decision, settle_cju, settle_cju, cju]
  · rw [decision]
    simp only [settle_keeps]
    rw [vtu]
  · rw [decision]
    simp only [settle_keeps]
    rw [lkc]
  · rw [decision, port, settle_service_withPort]

end Hands

/-! ### The end of a rollback -/

theorem finishRollback_of_none (s : State) (h : s.vtu.deciding = none) :
    finishRollback s = handOver (ownFrame .abandoned (rollbackCheck s)) (rollbackCheck s) := by
  unfold finishRollback
  rw [h]

theorem finishRollback_of_deciding (s : State) (d : Deciding) (h : s.vtu.deciding = some d) :
    finishRollback s = finishDecisionRollback d s := by
  unfold finishRollback
  rw [h]

theorem decides_self (s : State) (hp : s.vtu.permitted = false) : Decides 0 s s :=
  ⟨⟨rfl, rfl, rfl, rfl, rfl, rfl, rfl, .of_eq rfl⟩, hp⟩

/-- What the end of a rollback makes of the own frame and the table: the frame is ABANDONED, with the entries of the moment
(R86, R130). -/
theorem finishRollback_own (s : State) :
    (finishRollback s).vtu.own = some ⟨voteCycle s, .abandoned, ownEntries (finishRollback s)⟩ ∧
      (finishRollback s).rgt = (rollbackCheck s).rgt := by
  have cycle : voteCycle (rollbackCheck s) = voteCycle s := by simp [voteCycle]
  have done : (finishRollback s).vtu.own = some (postFrame (rollbackCheck s)) ∧
      (finishRollback s).rgt = (rollbackCheck s).rgt := by
    cases hd : s.vtu.deciding with
    | none =>
      rw [finishRollback_of_none s hd]
      exact handOver_own (ownFrame .abandoned (rollbackCheck s)) (rollbackCheck s) rfl
    | some d =>
      rw [finishRollback_of_deciding s d hd, finishDecisionRollback_eq]
      simp only [completeDecision_keeps]
      exact ⟨rfl, rfl⟩
  obtain ⟨own, rgt⟩ := done
  have entries : ownEntries (finishRollback s) = ownEntries (rollbackCheck s) := ownEntries_congr rgt (by simp)
  rw [entries, own, ← cycle]
  exact ⟨rfl, rgt⟩

/-- The end of a rollback whose check leaves PERMIT off. -/
theorem finishRollback_off (s : State) (hp : (rollbackCheck s).vtu.permitted = false) :
    (finishRollback s).vtu.permitted = false ∧ (finishRollback s).vtu.level = (rollbackCheck s).vtu.level := by
  cases hd : s.vtu.deciding with
  | none =>
    rw [finishRollback_of_none s hd]
    exact handOver_off (ownFrame .abandoned (rollbackCheck s)) (rollbackCheck s) rfl hp
  | some d =>
    have base : Decides 0 (rolledBack s) (rolledBack s) := decides_self (rolledBack s) hp
    have frame := finishDecisionRollback_eq d s
    generalize ho : (if framesAgree (postFrame (rollbackCheck s)) d.majority then VoteOutcome.collectiveAbandon
      else .excluded) = o at frame
    have hm : memberRank o = false := by
      rw [← ho]
      split <;> rfl
    have vtu := base.vtu (own := postFrame (rollbackCheck s)) (frames := d.frames) hm none
    obtain ⟨level, -⟩ := Vtu.outcome_rest (rolledBack s).vtu o (postFrame (rollbackCheck s)) (voteCycle (rolledBack s) + 1)
    simp only [settle_keeps] at vtu
    rw [finishRollback_of_deciding s d hd, frame, vtu]
    exact ⟨(Vtu.outcome_permitted _ _ _ _).trans base.permitted, level⟩

/-! ### The abandon -/

section
variable {k : Nat} {s u : State} (h : Follows k s u) (c : AbandonCause)
include h

theorem Follows.abandoning : Hands s (abandoning c u) := by
  refine .of_follows h ?_ ?_ ?_ ?_ ?_ ?_
  all_goals rw [abandoning_frame]

end

/-- The part whose rollback the abandon begins. -/
def undoing (c : AbandonCause) (s : State) : State := setChan (some .rollingBack) (abandoning c s)

theorem undoing_frame (c : AbandonCause) (s : State) :
    undoing c s =
      { s with
        cju := { s.cju with chan := some .rollingBack, timer := none }
        vtu := s.vtu.dropped
        pwq := (abandoning c s).pwq
        ppt := (abandoning c s).ppt
        lkc.tx := (undoing c s).lkc.tx
        cmu := s.cmu.withEvents (undoing c s).cmu } := by
  unfold undoing
  rw [setChan_frame, abandoning_frame]
  simp [Vtu.toChan_off, Vtu.dropped]

theorem Follows.undone {k : Nat} {s u : State} (h : Follows k s u) (c : AbandonCause) :
    Hands s (rollbackCheck (undoing c u)) := by
  have frame := undoing_frame c u
  have off := (rollbackCheck_off (undoing c u) (by rw [frame]; rfl)).1
  refine .of_follows h ?_ ?_ ?_ ?_ ?_ ?_
  · rw [off, frame]
  all_goals simp only [rollbackCheck_keeps]; rw [frame]

/-- What an abandon leaves of PERMIT and of the own frame, in all its cases. -/
theorem abandon_vtu (c : AbandonCause) (s : State) (ho : cycleOpen s = true) :
    (abandon c s).vtu.permitted = false ∧ (abandon c s).vtu.level = s.vtu.dropped.level := by
  have hands := (Follows.refl s).abandoning c
  have frame := undoing_frame c s
  rw [abandon_of_open c s ho, ← undoing]
  split
  · obtain ⟨permitted, level⟩ := handOver_off (unrevertibleFrame (abandoning c s)) (abandoning c s) rfl hands.permitted
    exact ⟨permitted, level.trans (by rw [abandoning_frame])⟩
  · split
    · have off := (rollbackCheck_off (undoing c s) (by rw [frame]; rfl)).1
      obtain ⟨permitted, level⟩ := finishRollback_off (undoing c s) (by rw [off, frame]; rfl)
      exact ⟨permitted, level.trans (by rw [off, frame])⟩
    · rw [frame]
      exact ⟨rfl, rfl⟩

theorem abandon_of_unrevertible (c : AbandonCause) (s : State) (ho : cycleOpen s = true) (h : s.cju.unrevertible = true) :
    abandon c s = handOver (unrevertibleFrame (abandoning c s)) (abandoning c s) :=
  (abandon_of_open c s ho).trans (if_pos h)

theorem abandon_of_journal (c : AbandonCause) (s : State) (ho : cycleOpen s = true) (h : s.cju.unrevertible = false)
    (hj : s.cju.journal ≠ []) : abandon c s = undoing c s := by
  rw [abandon_of_open c s ho, h, if_neg Bool.false_ne_true, if_neg hj]
  rfl

theorem abandon_of_empty (c : AbandonCause) (s : State) (ho : cycleOpen s = true) (h : s.cju.unrevertible = false)
    (hj : s.cju.journal = []) : abandon c s = finishRollback (undoing c s) := by
  rw [abandon_of_open c s ho, h, if_neg Bool.false_ne_true, if_pos hj]
  rfl

/-- A cycle without a journal, or one that cannot be rolled back, is handed over to the vote. -/
theorem Follows.abandon {k : Nat} {s u : State} (f : Follows k s u) (c : AbandonCause) (ho : cycleOpen u = true)
    (h : u.cju.unrevertible = true ∨ u.cju.journal = []) (hd : decidingLaw u = true) :
    ∃ g v, g.kind = .abandoned ∧ v.resetLow = u.resetLow ∧ Hands s v ∧ abandon c u = handOver g v := by
  cases hu : u.cju.unrevertible with
  | true => exact ⟨_, _, rfl, by rw [abandoning_frame], f.abandoning c, abandon_of_unrevertible c u ho hu⟩
  | false =>
    have hj := h.resolve_left (by simp [hu])
    have none : (undoing c u).vtu.deciding = none := by
      have chan : u.cju.chan ≠ some .rollingBack := by
        intro hc
        simp [cycleOpen, hc] at ho
      have law : u.vtu.deciding = none ∨ u.cju.chan = some .rollingBack := by simpa [decidingLaw] using hd
      rw [undoing_frame]
      exact law.resolve_right chan
    refine ⟨_, _, rfl, ?_, f.undone c, (abandon_of_empty c u ho hu hj).trans (finishRollback_of_none _ none)⟩
    simp only [rollbackCheck_keeps]
    rw [undoing_frame]

theorem mem_events_handOver (f : VoteFrame) (s : State) (r : Record) (h : r ∈ s.cmu.events) :
    r ∈ (handOver f s).cmu.events := by
  obtain ⟨n, tested⟩ := Records.testDecision (handed f s)
  have begun : (handed f s).cmu.events = s.cmu.events := by rw [handed_frame]
  exact tested.mem (begun ▸ h)

theorem mem_events_finishRollback (s : State) (r : Record) (h : r ∈ (rollbackCheck s).cmu.events) :
    r ∈ (finishRollback s).cmu.events := by
  cases hd : s.vtu.deciding with
  | none =>
    rw [finishRollback_of_none s hd]
    exact mem_events_handOver _ _ r h
  | some d =>
    rw [finishRollback_of_deciding s d hd, finishDecisionRollback_eq]
    exact (Records.completeDecision _ none _ _ (rolledBack s)).mem h

/-- An abandon loses none of the events that it records before the vote. -/
theorem mem_events_abandon (c : AbandonCause) (s : State) (ho : cycleOpen s = true) (r : Record)
    (h : r ∈ (abandoning c s).cmu.events) : r ∈ (abandon c s).cmu.events := by
  have undone : r ∈ (undoing c s).cmu.events := (Records.setChan (admits := fun _ => True) _ _ trivial).mem h
  rw [abandon_of_open c s ho, ← undoing]
  split
  · exact mem_events_handOver _ _ r h
  · split
    · obtain ⟨n, checked⟩ := Records.rollbackCheck (undoing c s)
      exact mem_events_finishRollback _ r (checked.mem undone)
    · exact undone

/-- An abandon changes of the queue only that the signed entries leave it. -/
theorem abandon_entries (c : AbandonCause) (s : State) (ho : cycleOpen s = true) :
    (abandon c s).pwq.entries = s.pwq.entries.filter (fun e => !e.signed) := by
  have undone : (undoing c s).pwq.entries = s.pwq.entries.filter (fun e => !e.signed) := by
    rw [undoing_frame]
    exact abandoning_entries c s
  rw [abandon_of_open c s ho, ← undoing]
  split
  · simp [abandoning_entries]
  · split
    · simp [undone]
    · exact undone

theorem abandon_timer (c : AbandonCause) (s : State) (ho : cycleOpen s = true) : (abandon c s).cju.timer = none := by
  have begun : (abandoning c s).cju.timer = none := by rw [abandoning_frame]
  have undone : (undoing c s).cju.timer = none := by rw [undoing_frame]
  rw [abandon_of_open c s ho, ← undoing]
  split
  · simp [begun]
  · split
    · simp [undone]
    · exact undone

theorem isSome_slotRegion {s t : State} (h : tableOf t = tableOf s) (n : Nat) :
    (slotRegion t n).isSome = (slotRegion s n).isSome := by
  have mapped : ∀ u, (slotRegion u n).map (fun e => (e.1, e.2.desc)) =
      (tableOf u).find? (fun e => e.2.signed && e.2.slot == n) := fun u => by
    unfold slotRegion tableOf
    rw [List.find?_map]
    rfl
  have same := congrArg Option.isSome ((mapped t).trans ((congrArg _ h).trans (mapped s).symm))
  rwa [Option.isSome_map, Option.isSome_map] at same

/-- Whatever answers beside it, the step of an abandon after findings ends as the cycle's abandon (R77, R78). -/
theorem Follows.abandoned {k room : Nat} {s u : State} (f : Follows k s u) (hk : k + 2 ≤ room) (c : AbandonCause) (x : State)
    (hr : u.resetLow = false) (ho : cycleOpen u = true) (hx : x = { Machine.abandon c u with cmu := x.cmu })
    (he : x.cmu.events = (Machine.abandon c u).cmu.events) : Claim.abandoned room c s (settle x) := by
  obtain ⟨permitted, level⟩ := abandon_vtu c u ho
  have fields : x.vtu = (Machine.abandon c u).vtu ∧ x.cju = (Machine.abandon c u).cju ∧ x.rgt = (Machine.abandon c u).rgt ∧
      x.sgu = (Machine.abandon c u).sgu ∧ x.pwq = (Machine.abandon c u).pwq := by
    rw [hx]
    exact ⟨rfl, rfl, rfl, rfl, rfl⟩
  obtain ⟨vtu, cju, rgt, sgu, pwq⟩ := fields
  have journal : u.cju.journal = s.cju.journal ∧ u.cju.unrevertible = s.cju.unrevertible ∧ u.cju.cycle = s.cju.cycle ∧
      u.cju.chan = s.cju.chan ∧ u.cju.resend = s.cju.resend := by
    rw [f.cju]
    exact ⟨rfl, rfl, rfl, rfl, rfl⟩
  obtain ⟨journal, unrevertible, cycle, chan, resend⟩ := journal
  have deciding : decidingLaw u = decidingLaw s := by
    unfold decidingLaw
    rw [f.vtu, chan]
  refine ⟨?permit, fun hp => ?level, ?timer, ?entries, fun room => ?event, fun hu hj => ?journal, fun hu => ?lost,
    fun hu hj => ?own, fun hc hd ha => ?waits, fun hc hd ha => ?decides⟩
  case permit => simp only [settle_keeps]; rw [vtu, permitted]
  case level =>
    simp only [settle_keeps]
    rw [vtu, level]
    exact f.level hp
  case timer => rw [settle_cju, cju, abandon_timer c u ho]
  case entries =>
    obtain ⟨-, -, ⟨more, entries⟩, -⟩ := settle_end x
    exact ⟨more, by rw [entries, pwq, abandon_entries c u ho, f.entries]⟩
  case event =>
    have few := f.events
    obtain ⟨r, hr, hb⟩ := abandoned_mem c u (by omega)
    exact ⟨r, mem_events_settle _ r (by simp [hb, eventKind]) (he ▸ mem_events_abandon c u ho r hr), hb⟩
  case journal =>
    have frame := undoing_frame c u
    rw [abandon_of_journal c u ho (unrevertible.trans hu) (by rw [journal]; exact hj)] at cju hx
    rw [settle_cju, cju, frame]
    refine ⟨rfl, journal, f.marks hu, cycle, resend, x, settle_end x, ?_⟩
    rw [hx, frame]
    exact f.service
  case lost =>
    obtain ⟨own, -⟩ := handOver_own (unrevertibleFrame (Machine.abandoning c u)) (Machine.abandoning c u) rfl
    have values : ∀ n, (if (slotRegion u n).isSome then sigOf u n else 0) = if (slotRegion s n).isSome then sigOf s n else 0 :=
      fun n => by rw [isSome_slotRegion f.table, sigOf, f.sgu, ← sigOf]
    have sent : unrevertibleFrame (Machine.abandoning c u) = ⟨u.cju.cycle + 1, .abandoned, (List.range 16).map (fun n =>
        ⟨.suspect, if (slotRegion u n).isSome then sigOf u n else 0⟩)⟩ := by
      rw [abandoning_frame]
      rfl
    simp only [settle_keeps]
    rw [vtu, abandon_of_unrevertible c u ho (unrevertible.trans hu), own, sent, cycle]
    simp only [values]
  case own =>
    have empty := abandon_of_empty c u ho (unrevertible.trans hu) (journal.trans hj)
    obtain ⟨own, -⟩ := finishRollback_own (undoing c u)
    have entries : ownEntries (settle x) = ownEntries (finishRollback (undoing c u)) := by
      rw [← empty]
      exact ownEntries_congr (by simp [rgt]) (by simp [sgu])
    simp only [settle_keeps]
    rw [entries, vtu, empty, own, ← cycle, undoing_frame]
    rfl
  case waits =>
    obtain ⟨g, v, hk, -, hands, same⟩ := f.abandon c ho (by rw [unrevertible, journal]; exact hc) (deciding.trans hd)
    rw [same] at hx
    obtain ⟨chan, timer, queued⟩ := hands.waits hx ha
    refine ⟨chan, timer, fun hp g' hg l => ?_⟩
    obtain ⟨own, -⟩ := handOver_own g v hk
    simp only [settle_keeps] at hg
    rw [vtu, same, own] at hg
    cases hg
    exact queued hp l
  case decides =>
    obtain ⟨g, v, hk, low, hands, same⟩ := f.abandon c ho (by rw [unrevertible, journal]; exact hc) (deciding.trans hd)
    rw [same] at hx
    exact hands.decides hk (low.trans hr) hx ha

theorem abandoned_settle (c : AbandonCause) (s x : State) (hr : s.resetLow = false) (ho : cycleOpen s = true)
    (hx : x = { abandon c s with cmu := x.cmu }) (he : x.cmu.events = (abandon c s).cmu.events) :
    Claim.abandoned 2 c s (settle x) :=
  (Follows.refl s).abandoned (by decide) c x hr ho hx he

end Sys2Proof.Machine
end

section
/-! PROOFS. The abandon at the cycle limit, by ABANDON_CYCLE and at the drain of a close (R72, R74, R75, R77). -/

namespace Sys2Proof.Machine

open Sys2Proof

/-! ### No cycle is open after an abandon -/

theorem cycleOpen_completeDecision (o : VoteOutcome) (server : Option Link) (own : VoteFrame)
    (frames : PerLink (Option VoteFrame)) (s : State) : cycleOpen (completeDecision o server own frames s) = false := by
  have closed : cycleOpen (decided o own frames s) = false := by
    unfold cycleOpen
    rw [decided_cju, applyOutcome_chan]
    cases o <;> rfl
  rw [completeDecision_eq]
  unfold afterDecision
  split
  case h_1 l =>
    have kept : (startDelta l (decided .outvoted own frames s)).cju.chan = (decided .outvoted own frames s).cju.chan :=
      congrArg (fun t => t.cju.chan) (beginPull_frame .delta l _ (clearPrev (decided .outvoted own frames s)))
    unfold cycleOpen
    rw [kept]
    exact closed
  · rcases testFull_cju (decided .excluded own frames s) with same | pulled
    · unfold cycleOpen
      rw [same]
      exact closed
    · unfold cycleOpen
      rw [pulled]
      rfl
  · exact closed

theorem cycleOpen_takeDecision (s : State) (h : cycleOpen s = false) : cycleOpen (takeDecision s) = false := by
  refine takeDecision_cases (P := fun t => cycleOpen t = false) s (fun _ => h)
    (fun own o server _ _ => cycleOpen_completeDecision o server own _ _) (fun own m _ _ _ => ?_) (fun own m _ _ _ => ?_)
  · rw [finishDecisionRollback_eq]
    exact cycleOpen_completeDecision _ _ _ _ _
  · unfold cycleOpen
    rw [toRollBack_chan]
    rfl

theorem cycleOpen_handOver (f : VoteFrame) (s : State) : cycleOpen (handOver f s) = false := by
  have voting : cycleOpen (handed f s) = false := by
    unfold cycleOpen
    rw [handed_chan]
    rfl
  rw [handOver_eq]
  unfold testDecision
  split
  · exact cycleOpen_takeDecision _ voting
  · exact voting

theorem cycleOpen_abandon (c : AbandonCause) (s : State) (ho : cycleOpen s = true) : cycleOpen (abandon c s) = false := by
  rw [abandon_of_open c s ho, ← undoing]
  split
  · exact cycleOpen_handOver _ _
  · split
    · unfold finishRollback
      split
      · rw [finishDecisionRollback_eq]
        exact cycleOpen_completeDecision _ _ _ _ _
      · exact cycleOpen_handOver _ _
    · unfold cycleOpen
      rw [undoing_frame]
      rfl

/-! ### No signed write is accepted outside OPEN (R20) -/

/-- A write that passes the check while RUNNING outside OPEN goes into a region that is not signed. -/
theorem unsigned_of_passes (s : State) (t : Transfer) (index : Nat) (r : Region) (hd : s.dev = .running)
    (hc : s.cju.chan ≠ some .opened) (hw : t.write = true) (region : regionOf s (blockOf t.word) = some (index, r))
    (passes : accessCheck s t = none) : r.desc.signed = false := by
  by_contra hs
  have signed : r.desc.kind.signed = true := by simpa [Descriptor.signed] using hs
  have refused : phaseRefusal s r.desc.kind ≠ none := by
    unfold phaseRefusal
    rw [if_pos signed]
    split
    · simp
    · simp
    · simp [hd, hc]
  unfold accessCheck at passes
  simp only [region, hw, if_true] at passes
  split at passes
  · cases passes
  · split at passes
    · exact refused (Option.map_eq_none_iff.1 passes)
    · cases passes

/-- While RUNNING outside OPEN no signed entry is appended. -/
theorem judge_unsigned (w : Bool) (t : Transfer) (s : State) (hd : s.dev = .running) (hc : s.cju.chan ≠ some .opened)
    (h : ∀ e ∈ s.pwq.entries, e.signed = false) : ∀ e ∈ (judge w t s).1.pwq.entries, e.signed = false := by
  by_cases accepts : accessCheck s t = none ∧ t.write = true ∧ s.pwq.hold = false
  · obtain ⟨passes, hw, hold⟩ := accepts
    rw [judge_write w t s passes hw, hold]
    have accepted : ∀ e ∈ (acceptWrite t s).pwq.entries, e.signed = false := by
      unfold acceptWrite
      split
      · exact h
      · split
        case h_1 index r region =>
          have unsigned := unsigned_of_passes s t index r hd hc hw region passes
          intro e he
          simp only [raiseHold_keeps, List.mem_append, List.mem_singleton] at he
          rcases he with he | rfl
          · exact h e he
          · exact unsigned
        case h_2 => exact h
    exact accepted
  · have kept : (judge w t s).1.pwq.entries = s.pwq.entries := by
      unfold judge
      (repeat' split) <;> simp_all
    rw [kept]
    exact h

theorem settle_unsigned (s : State) (hd : s.dev = .running) (hc : s.cju.chan ≠ some .opened)
    (h : ∀ e ∈ s.pwq.entries, e.signed = false) : ∀ e ∈ (settle s).pwq.entries, e.signed = false := by
  have one : ∀ (g : Held) (u : State), u.dev = .running → u.cju.chan ≠ some .opened →
      (∀ e ∈ u.pwq.entries, e.signed = false) → ∀ e ∈ (releaseOne g u).pwq.entries, e.signed = false := by
    intro g u hd hc hu
    have judged := judge_unsigned g.hold.isHazard g.transfer u hd hc hu
    unfold releaseOne
    split
    · split
      · exact judged
      · exact judged
    · exact hu
  have fold : ∀ (gs : List Held) (u : State), u.dev = .running → u.cju.chan ≠ some .opened →
      (∀ e ∈ u.pwq.entries, e.signed = false) →
      ∀ e ∈ (gs.foldl (fun s h => releaseOne h s) u).pwq.entries, e.signed = false := by
    intro gs
    induction gs with
    | nil => exact fun _ _ _ hu => hu
    | cons g gs ih => exact fun u hd hc hu => ih (releaseOne g u) (by simpa using hd) (by simpa using hc) (one g u hd hc hu)
  have port := (settle_port s).2
  rw [port]
  unfold releaseHeld
  split
  · exact h
  · exact fold _ s hd hc h

/-! ### ABANDON_CYCLE and the cycle limit -/

theorem exec_cycleLimit (s : State) (hr : s.resetLow = false) (ht : s.cju.timer.isSome = true)
    (hc : s.cju.chan = some .opened) : exec .cycleLimit s = .next (settle (abandon .cycleLimit s)) :=
  congrArg Host.Outcome.next ((whenReady_of_ready _ s hr).trans (if_pos ⟨ht, hc⟩))

theorem exec_abandonCycle (tag : Byte) (s : State) (ht : Claim.takes .abandonCycle s) (hd : s.dev = .running)
    (hc : s.cju.chan = some .opened ∨ s.cju.chan = some .closing) :
    exec (.abandonCycle tag []) s =
      .next (settle (accepted tag (abandon .command (Claim.presented .abandonCycle tag [] s)))) := by
  refine exec_software_of_takes .abandonCycle tag [] s ht rfl ((whileRunning_of_running s _ hd).trans ?_)
  rcases hc with h | h <;> rw [h] <;> rfl

theorem abandon_ptu (c : AbandonCause) (s : State) : (abandon c s).ptu = { s.ptu with turned := (abandon c s).ptu.turned } := by
  have keeps := abandon_keeps c s
  generalize (abandon c s).ptu = p at keeps
  cases p
  simp_all

/-- What ends with an abandon beside `Claim.abandoned`. -/
theorem abandon_settle_rest (c : AbandonCause) (s x : State) (hd : s.dev = .running) (ho : cycleOpen s = true)
    (hx : x = { abandon c s with cmu := x.cmu }) :
    (settle x).mpu = s.mpu ∧ (settle x).sgu = s.sgu ∧ (settle x).cju.repair = s.cju.repair ∧
      (settle x).ptu = { s.ptu with turned := (settle x).ptu.turned } ∧ (∀ e ∈ (settle x).pwq.entries, e.signed = false) ∧
      (s.cju.unrevertible = false → s.cju.journal ≠ [] → (settle x).rgt = s.rgt) := by
  have fields : x.mpu = (abandon c s).mpu ∧ x.sgu = (abandon c s).sgu ∧ x.cju = (abandon c s).cju ∧ x.ptu = (abandon c s).ptu ∧
      x.pwq = (abandon c s).pwq ∧ x.rgt = (abandon c s).rgt ∧ x.dev = (abandon c s).dev := by
    rw [hx]
    exact ⟨rfl, rfl, rfl, rfl, rfl, rfl, rfl⟩
  obtain ⟨mpu, sgu, cju, ptu, pwq, rgt, dev⟩ := fields
  refine ⟨?_, ?_, ?_, ?_, ?_, fun hu hj => ?_⟩
  · simp [mpu]
  · simp [sgu]
  · simp [cju]
  · simp only [settle_keeps]
    rw [ptu]
    exact abandon_ptu c s
  · have shut := cycleOpen_abandon c s ho
    refine settle_unsigned x (by rw [dev]; simpa using hd) ?_ ?_
    · rw [cju]
      intro hopen
      simp [cycleOpen, hopen] at shut
    · rw [pwq, abandon_entries c s ho]
      intro e he
      simpa using (List.mem_filter.1 he).2
  · simp only [settle_keeps]
    rw [rgt, abandon_of_journal c s ho hu hj, undoing_frame]

/-- Settles O29: both ways to abandon end in the same effect; the command's answer stands beside it. -/
theorem abandonEndsTheCycle : Obligations.AbandonEndsTheCycle := by
  unfold Obligations.AbandonEndsTheCycle
  rintro c cause s hr hd (⟨rfl, rfl, hc, ht⟩ | ⟨⟨tag, rfl, ht⟩, rfl, hc⟩)
  · have ho : cycleOpen s = true := by simp [cycleOpen, hc]
    obtain ⟨mpu, sgu, repair, ptu, entries, rgt⟩ := abandon_settle_rest .cycleLimit s (abandon .cycleLimit s) hd ho rfl
    exact ⟨_, exec_cycleLimit s hr ht hc, abandoned_settle .cycleLimit s _ hr ho rfl rfl, mpu, sgu, repair, ptu, entries, rgt,
      fun tag h => by cases h⟩
  · have ho : cycleOpen s = true := by rcases hc with h | h <;> simp [cycleOpen, h]
    have claim := abandoned_settle .command (Claim.presented .abandonCycle tag [] s)
      (accepted tag (abandon .command (Claim.presented .abandonCycle tag [] s))) hr ho rfl rfl
    obtain ⟨mpu, sgu, repair, ptu, entries, rgt⟩ := abandon_settle_rest .command (Claim.presented .abandonCycle tag [] s)
      (accepted tag (abandon .command (Claim.presented .abandonCycle tag [] s))) hd ho rfl
    refine ⟨_, exec_abandonCycle tag s ht hd hc, claim, mpu, sgu, repair, ptu, entries, rgt, fun tag' h => ?_⟩
    cases h
    exact response_settle _ _ _ _ _ _ (response_respond _ _ _ _ _ _ (by simp [Claim.presented, Claim.answered]))

end Sys2Proof.Machine
end

section
/-! PROOFS. The drain of a close ends in a vote or in an abandon (R64, R74). -/

namespace Sys2Proof.Machine

open Sys2Proof

/-! ### The entries of the moment (R64) -/

theorem getElem?_ownEntries (s : State) (k : Nat) (hk : k < 16) : (ownEntries s)[k]? = some (slotEntry s k) := by
  unfold ownEntries
  rw [List.getElem?_map, List.getElem?_range (show k < Config.sigSlots from hk)]
  rfl

theorem length_ownEntries (s : State) : (ownEntries s).length = 16 := by simp [ownEntries, Config.sigSlots]

theorem slotEntry_of_none (s : State) (k : Nat) (h : slotRegion s k = none) : slotEntry s k = ⟨.absent, 0⟩ := by
  unfold slotEntry
  rw [h]

theorem slotEntry_of_some (s : State) (k : Nat) (e : Nat × Region) (h : slotRegion s k = some e) :
    slotEntry s k = ⟨if e.2.state = .normal then .valid else .suspect, sigOf s k⟩ := by
  unfold slotEntry
  rw [h]
  by_cases hn : e.2.state = .normal <;> simp [Region.suspect, hn]

/-! ### The frames of a hand-over -/

theorem sendBoth_tx_congr (f : CtrlFrame) (s t : State) (hp : t.position = s.position) (hx : t.lkc.tx = s.lkc.tx) :
    (sendBoth f t).lkc.tx = (sendBoth f s).lkc.tx := by
  have one : ∀ (l : Link) (u v : State), v.position = u.position → v.lkc.tx = u.lkc.tx →
      (sendCtrl f l v).lkc.tx = (sendCtrl f l u).lkc.tx := fun l u v hp hx => by
    by_cases at3 : u.position = 3
    · unfold sendCtrl
      rw [if_pos at3, if_pos (hp.trans at3), hx]
    · rw [sendCtrl_tx f l u at3, sendCtrl_tx f l v (by rwa [hp]), hx]
  unfold sendBoth
  exact one .two _ _ (by simpa using hp) (one .one s t hp hx)

/-- Out of another state than VOTING a hand-over queues the VOTE and the HELLO of the channel's move. -/
theorem handed_tx (f : VoteFrame) (s : State) (h : s.cju.chan ≠ some .voting) :
    (handed f s).lkc.tx = (sendBoth .hello (sendBoth (.vote f) s)).lkc.tx := by
  have given : (sendBoth (.vote f) { s with vtu := { s.vtu with own := some f, timer := some s.times.voteTimeout } }).lkc.tx =
      (sendBoth (.vote f) s).lkc.tx := sendBoth_tx_congr _ _ _ rfl rfl
  unfold handed setChan
  rw [if_neg (by simpa using h)]
  exact sendBoth_tx_congr _ _ _ (by simp) given

/-- What the end of the step leaves of a part whose vote waits. -/
theorem end_of_handed (f : VoteFrame) (s : State) :
    EndOfStep
      { s with
        cju.chan := some .voting
        vtu := { s.vtu with own := some f, timer := some s.times.voteTimeout }
        lkc.tx := (settle (handed f s)).lkc.tx } (settle (handed f s)) := by
  have ended := settle_end (handed f s)
  generalize settle (handed f s) = t at ended ⊢
  rw [handed_frame] at ended
  exact ended.withTx t.lkc.tx

/-! ### The end of the drain (R74) -/

theorem exec_closeDrainEnd (s : State) (hr : s.resetLow = false) (hc : s.cju.chan = some .closing)
    (he : ∀ e ∈ s.pwq.entries, e.signed = false) : exec .closeDrainEnd s = .next (settle (endDrain s)) := by
  refine congrArg Host.Outcome.next ((whenReady_of_ready _ s hr).trans (if_pos ⟨hc, ?_⟩))
  simpa using he

theorem endDrain_of_clean (s : State) (h : s.cju.repair = []) (ho : s.cju.repairOverflow = false) :
    endDrain s = handOver (ownFrame .closed s) s :=
  if_neg (by simp [h, ho])

/-- Settles O28: a clean drain hands the CLOSED frame over, and one with a repair pending is an abandon. -/
theorem closeDrainEndsInAVote : Obligations.CloseDrainEndsInAVote := by
  unfold Obligations.CloseDrainEndsInAVote
  refine ⟨fun s => ⟨length_ownEntries s, fun k hk => ⟨fun h => ?absent, fun e h => ?present⟩⟩,
    fun s hr hc he => ⟨fun hn ho ha => ?waits, fun hn ho ha => ?decides, fun hf hd => ?abandons⟩⟩
  case absent => rw [getElem?_ownEntries s k hk, slotEntry_of_none s k h]
  case present => rw [getElem?_ownEntries s k hk, slotEntry_of_some s k e h]
  case waits =>
    have waiting : endDrain s = handed (ownFrame .closed s) s :=
      (endDrain_of_clean s hn ho).trans (handOver_of_waits _ s ha)
    have own : ownFrame .closed s = ⟨s.cju.cycle + 1, .closed, ownEntries s⟩ := rfl
    refine ⟨_, exec_closeDrainEnd s hr hc he, fun hp l => ?_, ?_⟩
    · rw [waiting, ← own]
      exact queued_handed (ownFrame .closed s) s _ hp rfl s l
    · rw [waiting, ← own]
      exact end_of_handed (ownFrame .closed s) s
  case decides =>
    have deciding : endDrain s = takeDecision (handed (ownFrame .closed s) s) :=
      (endDrain_of_clean s hn ho).trans (handOver_of_decides _ s ha)
    have frame := handed_frame (ownFrame .closed s) s
    have expires : exec .voteTimerExpiry (handed (ownFrame .closed s) s) =
        .next (settle (takeDecision (handed (ownFrame .closed s) s))) :=
      exec_voteTimerExpiry _ (by rw [frame]; exact hr) (handed_chan _ s) (by rw [frame]; rfl)
    have ran := exec_closeDrainEnd s hr hc he
    rw [deciding, ← expires] at ran
    rw [handed_tx _ s (by simp [hc])] at frame
    exact ran.trans (congrArg (exec .voteTimerExpiry) frame)
  case abandons =>
    have ho : cycleOpen s = true := by simp [cycleOpen, hc]
    have abandons : endDrain s = abandon .repairPending s := if_pos hf
    have shut := cycleOpen_abandon .repairPending s ho
    obtain ⟨mpu, sgu, repair, -⟩ := abandon_settle_rest .repairPending s (abandon .repairPending s) hd ho rfl
    have claim := abandoned_settle .repairPending s (abandon .repairPending s) hr ho rfl rfl
    obtain ⟨permitted, level, -⟩ := id claim
    refine ⟨_, exec_closeDrainEnd s hr hc he, ?_⟩
    rw [abandons]
    refine ⟨permitted, level, fun hcl => ?_, mpu, sgu, repair, claim⟩
    rw [settle_cju] at hcl
    simp [cycleOpen, hcl] at shut

end Sys2Proof.Machine
end

section
/-! PROOFS. The events that a rollback's grant can record: each word and each region at most one, and PERMIT is lost once. -/

namespace Sys2Proof.Machine

open Sys2Proof

/-! ### Events counted with PERMIT -/

/-- From `s` to `t` at most `k` events are recorded, all of these kinds, apart from the one of PERMIT's loss. -/
def Spends (admits : EventBody → Prop) (k : Nat) (s t : State) : Prop :=
  ∃ more : List Record, t.cmu.events = s.cmu.events ++ more ∧
    more.length + t.vtu.permitted.toNat ≤ k + s.vtu.permitted.toNat ∧ ∀ r ∈ more, admits r.body

namespace Spends

variable {a : EventBody → Prop} {j k : Nat} {s t u : State}

theorem of_eq (he : t.cmu.events = s.cmu.events) (hp : t.vtu.permitted = s.vtu.permitted) : Spends a 0 s t :=
  ⟨[], by simp [he], by simp [hp], by simp⟩

theorem trans (h : Spends a j s t) (h' : Spends a k t u) : Spends a (j + k) s u := by
  obtain ⟨m1, e1, l1, a1⟩ := h
  obtain ⟨m2, e2, l2, a2⟩ := h'
  refine ⟨m1 ++ m2, by rw [e2, e1, List.append_assoc], ?_, fun r hr => (List.mem_append.1 hr).elim (a1 r) (a2 r)⟩
  rw [List.length_append]
  omega

theorem mono (h : Spends a j s t) (hjk : j ≤ k) : Spends a k s t := by
  obtain ⟨more, e, l, ha⟩ := h
  exact ⟨more, e, by omega, ha⟩

theorem records (h : Spends a k s t) : Records a (k + 1) s t := by
  obtain ⟨more, e, l, ha⟩ := h
  have one := Bool.toNat_le s.vtu.permitted
  exact ⟨more, e, by omega, ha⟩

theorem of_records (h : Records a k s t) (hp : t.vtu.permitted = s.vtu.permitted) : Spends a k s t := by
  obtain ⟨more, e, l, ha⟩ := h
  exact ⟨more, e, by rw [hp]; omega, ha⟩

theorem dropPermit (c : PermitCause) (s : State) (hb : a (.permitDropped c)) : Spends a 0 s (dropPermit c s) := by
  cases hp : s.vtu.permitted with
  | false =>
    have same : Machine.dropPermit c s = s := if_neg (by simp [hp])
    rw [same]
    exact of_eq rfl rfl
  | true =>
    obtain ⟨more, e, l, ha⟩ := Records.dropPermit c s hb
    have off : (Machine.dropPermit c s).vtu.permitted = false := by rw [dropPermit_vtu]; rfl
    exact ⟨more, e, by rw [off, hp]; simpa using l, ha⟩

theorem suspectPermit (i : Nat) (s : State) (hb : a (.permitDropped (.suspect i))) : Spends a 0 s (suspectPermit i s) := by
  unfold Machine.suspectPermit
  split
  · split
    · exact dropPermit _ s hb
    · exact of_eq rfl rfl
  · exact of_eq rfl rfl

theorem markSuspect (i : Nat) (b : Bool) (s : State) : Spends a 0 s (markSuspect i b s) := of_eq (by simp) (by simp)

theorem event (b : EventBody) (s : State) (hb : a b) : Spends a 1 s (recordEvent b s) :=
  of_records (.event b s hb) rfl

/-- The check of a region records at most its fault (R86). -/
theorem checkRegion (s : State) (e : Nat × Region) :
    Spends notDecision (if e.2.desc.signed then 1 else 0) s (checkRegion s e) := by
  by_cases hs : (e.2.desc.signed && !e.2.suspect) = true
  · have signed : e.2.desc.signed = true := (Bool.and_eq_true_iff.1 hs).1
    rw [if_pos signed]
    unfold Machine.checkRegion
    dsimp only
    rw [if_pos hs]
    split
    · exact ((markSuspect e.1 false s).trans (event (.rollbackCheckFault _ _ _) _ fun _ _ _ h => by cases h)).trans
        (suspectPermit e.1 _ fun _ _ _ h => by cases h)
    · exact (of_eq rfl rfl).mono (by decide)
  · have same : Machine.checkRegion s e = s := if_neg hs
    rw [same]
    exact (of_eq rfl rfl).mono (Nat.zero_le _)

theorem foldl_checkRegion (es : List (Nat × Region)) (s : State) :
    Spends notDecision (es.countP (fun e => e.2.desc.signed)) s (es.foldl Machine.checkRegion s) := by
  induction es generalizing s with
  | nil => exact of_eq rfl rfl
  | cons e es ih =>
    rw [List.countP_cons, Nat.add_comm]
    exact (checkRegion s e).trans (ih _)

theorem rollbackCheck (s : State) :
    Spends notDecision (s.rgt.entries.countP (fun e => e.2.desc.signed)) s (rollbackCheck s) :=
  foldl_checkRegion s.rgt.entries s

/-- The write of a word over an old one records at most one finding (R46). -/
theorem overwriteWord (x : Nat) (v : Word) (s : State) : Spends notDecision 1 s (overwriteWord x v s) := by
  have found : Spends notDecision 1 s (findOverwritten x s) := by
    unfold findOverwritten
    split
    case h_1 i r _ =>
      split
      · exact ((event (.uncorrectable (some i) (byteAddr x) none) s fun _ _ _ h => by cases h).trans (markSuspect i false _)).trans
          (suspectPermit i _ fun _ _ _ h => by cases h)
      · exact (of_eq rfl rfl).mono (by decide)
    case h_2 => exact (of_eq rfl rfl).mono (by decide)
  have written : ∀ u old, Spends notDecision 0 u (writeWord x old v u) := fun u old => of_eq (by simp) (by simp)
  unfold Machine.overwriteWord
  dsimp only
  split
  · exact found.trans (written _ _)
  · exact (written _ _).mono (by decide)

theorem overwriteAll (ws : List (Nat × Word)) (s : State) : Spends notDecision ws.length s (overwriteAll ws s) := by
  induction ws generalizing s with
  | nil => exact of_eq rfl rfl
  | cons w ws ih =>
    rw [List.length_cons, Nat.add_comm]
    exact (overwriteWord w.1 w.2 s).trans (ih _)

end Spends

end Sys2Proof.Machine
end

section
/-! PROOFS. What the rollback check makes of each region (R86). -/

namespace Sys2Proof.Machine

open Sys2Proof

/-! ### Indices in ascending order -/

theorem le_of_rising {α : Type} {low : Nat} {l : List (Nat × α)} (h : assocRising low l = true) : ∀ x ∈ l, low ≤ x.1 := by
  induction l generalizing low with
  | nil => exact fun _ hx => (nomatch hx)
  | cons e l ih =>
    obtain ⟨k, v⟩ := e
    simp only [assocRising, Bool.and_eq_true, decide_eq_true_eq] at h
    intro x hx
    rcases List.mem_cons.1 hx with rfl | hx
    · exact h.1
    · exact Nat.le_of_lt (Nat.lt_of_le_of_lt h.1 (ih h.2 x hx))

theorem pairwise_of_rising {α : Type} {low : Nat} {l : List (Nat × α)} (h : assocRising low l = true) :
    l.Pairwise (fun a b => a.1 < b.1) := by
  induction l generalizing low with
  | nil => exact List.Pairwise.nil
  | cons e l ih =>
    obtain ⟨k, v⟩ := e
    simp only [assocRising, Bool.and_eq_true] at h
    exact List.pairwise_cons.2 ⟨fun x hx => le_of_rising h.2 x hx, ih h.2⟩

/-- An entry of a table in ascending order stands between entries of other indices. -/
theorem split_of_rising {α : Type} {low : Nat} {l : List (Nat × α)} (h : assocRising low l = true) {i : Nat} {v : α}
    (hf : assocFind l i = some v) : ∃ pre post, l = pre ++ (i, v) :: post ∧ (∀ x ∈ pre, x.1 ≠ i) ∧ ∀ x ∈ post, x.1 ≠ i := by
  obtain ⟨pre, post, rfl⟩ := List.append_of_mem (mem_of_assocFind l i v hf)
  obtain ⟨-, later, before⟩ := List.pairwise_append.1 (pairwise_of_rising h)
  exact ⟨pre, post, rfl, fun x hx => Nat.ne_of_lt (before x hx _ List.mem_cons_self), fun x hx =>
    Nat.ne_of_gt ((List.pairwise_cons.1 later).1 x hx)⟩

/-! ### The check of one region -/

/-- The closed set's entry at a region's slot is VALID and differs from the running signature (R86). -/
def differs (s : State) (r : Region) : Prop :=
  (s.vtu.closedSet.getD r.desc.slot ⟨.absent, 0⟩).flag = .valid ∧
    (s.vtu.closedSet.getD r.desc.slot ⟨.absent, 0⟩).value ≠ sigOf s r.desc.slot

theorem checkRegion_of_differs (s : State) (i : Nat) (r : Region) (hs : r.desc.signed = true) (hn : r.state = .normal)
    (h : differs s r) :
    checkRegion s (i, r) =
      suspectPermit i
        (recordEvent
          (.rollbackCheckFault i (sigOf s r.desc.slot) (s.vtu.closedSet.getD r.desc.slot ⟨.absent, 0⟩).value)
          (markSuspect i false s)) :=
  (if_pos (by simp [hs, Region.suspect, hn])).trans (if_pos h)

theorem checkRegion_of_agrees (s : State) (i : Nat) (r : Region) (h : ¬differs s r) : checkRegion s (i, r) = s := by
  unfold checkRegion
  dsimp only
  split
  · exact if_neg h
  · rfl

/-- A finding calls a state at its own index only. -/
theorem assocFind_markSuspect (i j : Nat) (located : Bool) (s : State) (hij : i ≠ j) :
    assocFind (markSuspect i located s).rgt.entries j = assocFind s.rgt.entries j := by
  unfold markSuspect
  split
  · rfl
  · split
    · split
      · simp only [modifyRegion]
        rw [assocFind_modify, if_neg hij]
      · rfl
    · rfl

theorem markSuspect_of_signed (i : Nat) (located : Bool) (s : State) (r : Region) (hd : s.dev ≠ .configuring)
    (hf : assocFind s.rgt.entries i = some r) (hs : r.desc.signed = true) :
    assocFind (markSuspect i located s).rgt.entries i = some { r with state := calledState located r.state } := by
  unfold markSuspect
  rw [if_neg hd, hf]
  dsimp only
  rw [if_pos hs]
  simp only [modifyRegion]
  rw [assocFind_modify, if_pos rfl, hf]
  rfl

theorem assocFind_checkRegion (s : State) (e : Nat × Region) (j : Nat) (h : e.1 ≠ j) :
    assocFind (checkRegion s e).rgt.entries j = assocFind s.rgt.entries j := by
  unfold checkRegion
  dsimp only
  split
  · split
    · simpa [recordEvent] using assocFind_markSuspect e.1 j false s h
    · rfl
  · rfl

theorem assocFind_foldl_checkRegion (es : List (Nat × Region)) (j : Nat) (h : ∀ e ∈ es, e.1 ≠ j) (s : State) :
    assocFind (es.foldl checkRegion s).rgt.entries j = assocFind s.rgt.entries j := by
  induction es generalizing s with
  | nil => rfl
  | cons e es ih =>
    exact (ih (fun x hx => h x (List.mem_cons_of_mem e hx)) (checkRegion s e)).trans
      (assocFind_checkRegion s e j (h e List.mem_cons_self))

/-- The fields that the check of a region looks at stay through the checks before it. -/
theorem foldl_checkRegion_kept (es : List (Nat × Region)) (s : State) :
    (es.foldl checkRegion s).dev = s.dev ∧ (es.foldl checkRegion s).sgu = s.sgu ∧
      (es.foldl checkRegion s).vtu.closedSet = s.vtu.closedSet := by
  have kept := foldl_keep checkRegion (fun u => (u.dev, u.sgu, u.vtu.closedSet)) (fun u e => by simp) es s
  simpa using kept

/-- The events and PERMIT after the check of a region that differs (R86, R137). -/
theorem checkRegion_fault (s : State) (i : Nat) (r : Region) (hd : s.dev = .running)
    (hf : assocFind s.rgt.entries i = some r) (hs : r.desc.signed = true) (hn : r.state = .normal) (h : differs s r) :
    assocFind (checkRegion s (i, r)).rgt.entries i = some { r with state := .suspectUnlocated } ∧
      (checkRegion s (i, r)).vtu.permitted = false ∧
      (s.cmu.events.length < 64 → ∃ v ∈ (checkRegion s (i, r)).cmu.events,
        v.body = .rollbackCheckFault i (sigOf s r.desc.slot) (s.vtu.closedSet.getD r.desc.slot ⟨.absent, 0⟩).value) := by
  have marked := markSuspect_of_signed i false s r (by simp [hd]) hf hs
  rw [hn] at marked
  rw [checkRegion_of_differs s i r hs hn h]
  generalize hb : EventBody.rollbackCheckFault i (sigOf s r.desc.slot) _ = body
  refine ⟨by simpa [recordEvent, calledState] using marked, ?_, fun room => ?_⟩
  · have found : assocFind (recordEvent body (markSuspect i false s)).rgt.entries i =
        some { r with state := .suspectUnlocated } := marked
    unfold suspectPermit
    rw [found]
    simp [Region.suspect, hs, Vtu.dropped]
  · have recorded := (recordEvent_of_room body (markSuspect i false s) (by simpa using room)).1
    have later : Records (fun _ => True) 1 (recordEvent body (markSuspect i false s))
        (suspectPermit i (recordEvent body (markSuspect i false s))) :=
      (Spends.suspectPermit i _ trivial).records
    exact ⟨_, later.mem (recorded ▸ List.mem_append_right _ (List.mem_singleton.2 rfl)), rfl⟩

/-- What the rollback check makes of a NORMAL signed region (R86). -/
theorem rollbackCheck_region (s : State) (i : Nat) (r : Region) (hl : assocRising 0 s.rgt.entries = true)
    (hd : s.dev = .running) (hf : assocFind s.rgt.entries i = some r) (hs : r.desc.signed = true) (hn : r.state = .normal) :
    (differs s r →
      assocFind (rollbackCheck s).rgt.entries i = some { r with state := .suspectUnlocated } ∧
      (rollbackCheck s).vtu.permitted = false ∧
      (s.cmu.events.length + s.rgt.entries.countP (fun e => e.2.desc.signed) < 64 →
        ∃ v ∈ (rollbackCheck s).cmu.events,
          v.body = .rollbackCheckFault i (sigOf s r.desc.slot) (s.vtu.closedSet.getD r.desc.slot ⟨.absent, 0⟩).value)) ∧
      (¬differs s r → assocFind (rollbackCheck s).rgt.entries i = some r) := by
  obtain ⟨pre, post, split, before, after⟩ := split_of_rising hl hf
  have check : rollbackCheck s = post.foldl checkRegion (checkRegion (pre.foldl checkRegion s) (i, r)) := by
    unfold rollbackCheck
    rw [split, List.foldl_append, List.foldl_cons]
  obtain ⟨dev, sgu, closedSet⟩ := foldl_checkRegion_kept pre s
  have found := (assocFind_foldl_checkRegion pre i before s).trans hf
  have same : differs (pre.foldl checkRegion s) r ↔ differs s r := by
    unfold differs sigOf
    rw [sgu, closedSet]
  rw [check]
  refine ⟨fun h => ?_, fun h => ?_⟩
  · obtain ⟨state, off, event⟩ := checkRegion_fault (pre.foldl checkRegion s) i r (dev.trans hd) found hs hn (same.2 h)
    obtain ⟨vtu, later⟩ := foldl_checkRegion_off post _ off
    refine ⟨(assocFind_foldl_checkRegion post i after _).trans state, by rw [vtu, off], fun room => ?_⟩
    have events := (Spends.foldl_checkRegion pre s).records.length_le
    have counted : s.rgt.entries.countP (fun e => e.2.desc.signed) =
        pre.countP (fun e => e.2.desc.signed) + (post.countP (fun e => e.2.desc.signed) + 1) := by
      rw [split, List.countP_append, List.countP_cons, if_pos hs]
    obtain ⟨v, hv, hb⟩ := event (by omega)
    refine ⟨v, later.mem hv, ?_⟩
    rw [hb, sigOf, sgu, closedSet]
    rfl
  · rw [checkRegion_of_agrees _ i r (mt same.1 h), assocFind_foldl_checkRegion post i after]
    exact found

end Sys2Proof.Machine
end

section
/-! PROOFS. A rollback's grant (R84, R86): the entry that it puts back, and the end of the rollback. -/

namespace Sys2Proof.Machine

open Sys2Proof

/-! ### One entry put back -/

/-- The part with a journal entry put back. -/
def putBack (e : JournalEntry) (s : State) : State :=
  reconsiderMarks
    { overwriteAll (knownWrites e) s with
      cju := { s.cju with journal := s.cju.journal.dropLast, wCur := setErase s.cju.wCur e.block } }

theorem rollbackNewest_eq (e : JournalEntry) (s : State) (h : s.cju.journal.getLast? = some e) :
    rollbackNewest s =
      settle (if s.cju.journal.dropLast = [] then finishRollback (putBack e s) else putBack e s) := by
  have cju : (overwriteAll (knownWrites e) s).cju = s.cju := by simp
  unfold rollbackNewest
  rw [h]
  dsimp only
  rw [cju]
  rfl

theorem exec_rollbackGrant (p : Nat) (e : JournalEntry) (s : State) (hg : Claim.grants .rollback p s)
    (he : s.cju.journal.getLast? = some e) :
    exec .rollbackGrant s =
      .next (settle (if s.cju.journal.dropLast = [] then finishRollback (putBack e { s with mpu.pointer := p })
        else putBack e { s with mpu.pointer := p })) :=
  congrArg Host.Outcome.next ((granted_of_grants .rollback rollbackNewest p s hg).trans (rollbackNewest_eq e _ he))

theorem length_knownWrites (e : JournalEntry) : (knownWrites e).length ≤ 16 := by
  unfold knownWrites
  rw [List.length_map]
  refine (List.length_filter_le _ _).trans ?_
  rw [List.length_zip]
  exact (Nat.min_le_left _ _).trans (by simp [blockWords, Config.blockWords])

theorem blockOf_knownWrites (e : JournalEntry) : ∀ w ∈ knownWrites e, blockOf w.1 = e.block := by
  intro w hw
  obtain ⟨⟨a, x⟩, hx, rfl⟩ := List.mem_map.1 hw
  obtain ⟨ha, -⟩ := List.of_mem_zip (List.mem_of_mem_filter hx)
  exact (mem_blockWords _ _).1 ha

@[simp] theorem putBack_keeps (e : JournalEntry) (s : State) :
    (putBack e s).resetLow = s.resetLow ∧ (putBack e s).position = s.position ∧ (putBack e s).dev = s.dev ∧
      (putBack e s).times = s.times ∧ (putBack e s).lkc = s.lkc ∧ (putBack e s).cmu.ms = s.cmu.ms ∧
      (putBack e s).vtu.own = s.vtu.own ∧ (putBack e s).vtu.table = s.vtu.table ∧ (putBack e s).vtu.timer = s.vtu.timer ∧
      (putBack e s).vtu.last = s.vtu.last ∧ (putBack e s).vtu.deciding = s.vtu.deciding ∧
      (putBack e s).vtu.closedSet = s.vtu.closedSet ∧
      (putBack e s).rse.service = { s.rse.service with tried := [], waiting := false } ∧
      (putBack e s).cju = { s.cju with journal := s.cju.journal.dropLast, wCur := setErase s.cju.wCur e.block } ∧
      (putBack e s).mpu = (overwriteAll (knownWrites e) s).mpu ∧ (putBack e s).sgu = (overwriteAll (knownWrites e) s).sgu ∧
      (putBack e s).ptu = (overwriteAll (knownWrites e) s).ptu ∧ (putBack e s).rgt = (overwriteAll (knownWrites e) s).rgt := by
  simp [putBack, reconsiderMarks]

theorem Spends.putBack (e : JournalEntry) (s : State) : Spends notDecision 16 s (putBack e s) :=
  ((Spends.overwriteAll (knownWrites e) s).mono (length_knownWrites e)).trans (k := 0) (.of_eq rfl rfl)

theorem tableOf_overwriteAll (ws : List (Nat × Word)) (s : State) : tableOf (overwriteAll ws s) = tableOf s := by
  induction ws generalizing s with
  | nil => rfl
  | cons w ws ih => exact (ih (overwriteWord w.1 w.2 s)).trans (tableOf_overwriteWord w.1 w.2 s)

theorem tableOf_putBack (e : JournalEntry) (s : State) : tableOf (putBack e s) = tableOf s :=
  (tableOf_of_rgt (by simp)).trans (tableOf_overwriteAll (knownWrites e) s)

/-- Words that are not UNCORRECTABLE are overwritten without a finding (R46). -/
theorem overwriteAll_quiet (ws : List (Nat × Word)) (s : State) (nd : (ws.map Prod.fst).Nodup)
    (h : ∀ w ∈ ws, (readWord s w.1).cond ≠ .uncorrectable) :
    (overwriteAll ws s).rgt = s.rgt ∧ (overwriteAll ws s).vtu = s.vtu ∧ (overwriteAll ws s).cmu = s.cmu := by
  induction ws generalizing s with
  | nil => exact ⟨rfl, rfl, rfl⟩
  | cons w ws ih =>
    obtain ⟨fresh, nd⟩ := List.nodup_cons.1 nd
    have word : overwriteWord w.1 w.2 s = writeWord w.1 (readWord s w.1).value w.2 s := by
      unfold overwriteWord
      dsimp only
      rw [if_neg (h w List.mem_cons_self)]
    obtain ⟨rgt, vtu, cmu⟩ := ih (overwriteWord w.1 w.2 s) nd fun x hx => by
      have other : w.1 ≠ x.1 := fun he => fresh (he ▸ List.mem_map.2 ⟨x, hx, rfl⟩)
      rw [readWord_of_mem (s := s) (by rw [overwriteWord_mem, memGet_memPut_fresh, if_neg fun h => other h.1])]
      exact h x (List.mem_cons_of_mem w hx)
    have same : (overwriteWord w.1 w.2 s).rgt = s.rgt ∧ (overwriteWord w.1 w.2 s).vtu = s.vtu ∧
        (overwriteWord w.1 w.2 s).cmu = s.cmu := by
      rw [word]
      simp
    exact ⟨rgt.trans same.1, vtu.trans same.2.1, cmu.trans same.2.2⟩

theorem finishRollback_ptu (s : State) : (finishRollback s).ptu = { s.ptu with turned := (finishRollback s).ptu.turned } := by
  have keeps := finishRollback_keeps s
  generalize (finishRollback s).ptu = p at keeps
  cases p
  simp_all

/-! ### The decision that a rollback completes -/

/-- The part in which a rollback completes a decision. -/
theorem takes_rolledBack (e : JournalEntry) (s : State) :
    ∃ k, Takes k (reconsiderMarks s) (rolledBack (putBack e s)) ∧ (tableLaw s = true → k ≤ 33) := by
  have spent := (Spends.putBack e s).trans (Spends.rollbackCheck (putBack e s))
  refine ⟨_, ⟨?_, ?_, ?_, ?_, ?_, ?_, ?_, spent.records.trans (n := 0) (.of_eq rfl)⟩, fun h => ?_⟩
  · simp [rolledBack, reconsiderMarks]
  · simp [rolledBack, reconsiderMarks]
  · simp [rolledBack, reconsiderMarks]
  · simp [rolledBack, reconsiderMarks]
  · simp [rolledBack, reconsiderMarks]
  · simp [rolledBack, reconsiderMarks]
  · simp [rolledBack, reconsiderMarks]
  · have law : tableLaw (putBack e s) = true := (tableLaw_congr (tableOf_putBack e s)).trans h
    have few := countP_signed_le (putBack e s) law
    omega

/-- The outcome of the decision that a rollback completes (R130). -/
theorem outcome_cases (post : VoteFrame) (d : Deciding) :
    Claim.agree post d.majority ∧ (if framesAgree post d.majority then VoteOutcome.collectiveAbandon else .excluded) =
        .collectiveAbandon ∨
      ¬Claim.agree post d.majority ∧ (if framesAgree post d.majority then VoteOutcome.collectiveAbandon else .excluded) =
        .excluded := by
  rw [← framesAgree_iff]
  by_cases h : framesAgree post d.majority = true
  · exact .inl ⟨h, if_pos h⟩
  · exact .inr ⟨h, if_neg h⟩

theorem completeDecision_abandon_chan (server : Option Link) (own : VoteFrame) (frames : PerLink (Option VoteFrame))
    (s : State) : (completeDecision .collectiveAbandon server own frames s).cju.chan = some .ready := by
  rw [completeDecision_eq]
  refine (congrArg Cju.chan (decided_cju .collectiveAbandon own frames s)).trans ?_
  exact applyOutcome_chan .collectiveAbandon own s

theorem Vtu.toChan_agreedBase (v : Vtu) (a b : Option ChannelState) : (v.toChan a b).agreedBase = v.agreedBase := by
  unfold Vtu.toChan
  split <;> rfl

theorem completeDecision_excluded (server : Option Link) (own : VoteFrame) (frames : PerLink (Option VoteFrame)) (s : State) :
    (completeDecision .excluded server own frames s).vtu.agreedBase = false ∧
      ((completeDecision .excluded server own frames s).cju.chan = some .excluded ∨
        (completeDecision .excluded server own frames s).cju.chan = some .restoring) := by
  have tested : completeDecision .excluded server own frames s = testFull (decided .excluded own frames s) := by
    rw [completeDecision_eq]
    cases server <;> rfl
  have chan : (decided .excluded own frames s).cju.chan = some .excluded := by
    rw [decided_cju]
    exact applyOutcome_chan .excluded own s
  have agreed : (decided .excluded own frames s).vtu.agreedBase = false := by
    rw [decided_frame]
    simp only [applyOutcome, excludedOutcome, setChan_vtu]
    rw [Vtu.toChan_agreedBase]
    simp
  rw [tested]
  refine ⟨by simpa using agreed, ?_⟩
  rcases testFull_cju (decided .excluded own frames s) with same | pulled
  · exact .inl (by rw [same, chan])
  · exact .inr (by rw [pulled])

/-! ### The grant -/

/-- What the grant leaves before the end of its step. -/
def rolledGrant (e : JournalEntry) (s : State) : State :=
  if s.cju.journal.dropLast = [] then finishRollback (putBack e s) else putBack e s

theorem rolledGrant_kept (e : JournalEntry) (s : State) :
    (rolledGrant e s).mpu = (overwriteAll (knownWrites e) s).mpu ∧
      (rolledGrant e s).sgu = (overwriteAll (knownWrites e) s).sgu ∧
      (rolledGrant e s).ptu =
        { (overwriteAll (knownWrites e) s).ptu with turned := (rolledGrant e s).ptu.turned } := by
  have keeps := putBack_keeps e s
  obtain ⟨-, -, -, -, -, -, -, -, -, -, -, -, -, -, mpu, sgu, ptu, -⟩ := keeps
  unfold rolledGrant
  split
  · have turned := finishRollback_ptu (putBack e s)
    rw [ptu] at turned
    exact ⟨by simp, by simp, turned⟩
  · exact ⟨mpu, sgu, by rw [ptu]⟩

/-- The array and the accounts after the grant (R58, R60, R84). -/
theorem rollback_writes (p : Nat) (e : JournalEntry) (s : State) :
    Claim.wrote (knownWrites e) s (settle (rolledGrant e { s with mpu.pointer := p })) ∧
      Claim.accounted e.block (knownWrites e) s (settle (rolledGrant e { s with mpu.pointer := p })) ∧
      (settle (rolledGrant e { s with mpu.pointer := p })).mpu =
        { s.mpu with mem := (settle (rolledGrant e { s with mpu.pointer := p })).mpu.mem, pointer := p } := by
  obtain ⟨mpu, sgu, ptu⟩ := rolledGrant_kept e { s with mpu.pointer := p }
  have wrote := wrote_overwriteAll (knownWrites e) { s with mpu.pointer := p } (nodup_knownWrites e)
  have accounts := accounted_overwriteAll e.block (knownWrites e) { s with mpu.pointer := p } (nodup_knownWrites e)
    (blockOf_knownWrites e)
  refine ⟨wrote_congr wrote (by simp [mpu]), accounted_congr accounts (by simp [sgu]) (by simpa using ptu), ?_⟩
  have keeps := overwriteAll_keeps (knownWrites e) { s with mpu.pointer := p }
  simp only [settle_keeps, mpu]
  generalize (overwriteAll (knownWrites e) { s with mpu.pointer := p }).mpu = m at keeps ⊢
  cases m
  simp_all

section
variable {e : JournalEntry} {s : State}

theorem rolledGrant_of_last (h : s.cju.journal.dropLast = []) : rolledGrant e s = finishRollback (putBack e s) := if_pos h

/-- The vote waits for the same peers before the grant and after the check. -/
theorem awaits_rolled (e : JournalEntry) (s : State) (l : Link) :
    Claim.awaits (rollbackCheck (putBack e s)) l ↔ Claim.awaits s l := by
  unfold Claim.awaits
  simp

/-- The regions after the last entry (R86). -/
theorem rolled_region (law : tableLaw s = true) (hd : s.dev = .running)
    (known : ∀ w ∈ knownWrites e, (readWord s w.1).cond ≠ .uncorrectable) (last : s.cju.journal.dropLast = [])
    (i : Nat) (r : Region) (c : SigEntry) (hf : assocFind s.rgt.entries i = some r) (hs : r.desc.signed = true)
    (hn : r.state = .normal) (hc : s.vtu.closedSet[r.desc.slot]? = some c) :
    (c.flag = .valid → c.value ≠ sigOf (settle (rolledGrant e s)) r.desc.slot →
      assocFind (settle (rolledGrant e s)).rgt.entries i = some { r with state := .suspectUnlocated } ∧
      (settle (rolledGrant e s)).vtu.permitted = false ∧
      (s.cmu.events.length < 40 → ∃ v ∈ (settle (rolledGrant e s)).cmu.events,
        v.body = .rollbackCheckFault i (sigOf (settle (rolledGrant e s)) r.desc.slot) c.value)) ∧
      (c.flag ≠ .valid ∨ c.value = sigOf (settle (rolledGrant e s)) r.desc.slot →
        assocFind (settle (rolledGrant e s)).rgt.entries i = some r) := by
  obtain ⟨rgt, -, cmu⟩ := overwriteAll_quiet (knownWrites e) s (nodup_knownWrites e) known
  obtain ⟨rising, -, -⟩ := (tableLaw_iff s).1 law
  have table : (putBack e s).rgt = s.rgt := by simp [rgt]
  have events : (putBack e s).cmu.events = s.cmu.events := congrArg Cmu.events cmu
  have few := countP_signed_le s law
  obtain ⟨faults, agrees⟩ := rollbackCheck_region (putBack e s) i r (by rw [table]; exact rising) (by simpa using hd)
    (by rw [table]; exact hf) hs hn
  obtain ⟨-, frame⟩ := finishRollback_own (putBack e s)
  have sig : sigOf (settle (rolledGrant e s)) r.desc.slot = sigOf (putBack e s) r.desc.slot := by
    rw [rolledGrant_of_last last, sigOf, sigOf]
    simp
  have entry : (putBack e s).vtu.closedSet.getD r.desc.slot ⟨.absent, 0⟩ = c := by
    simp [hc]
  have means : differs (putBack e s) r ↔ c.flag = .valid ∧ c.value ≠ sigOf (putBack e s) r.desc.slot := by
    unfold differs
    rw [entry]
  have after : (settle (rolledGrant e s)).rgt = (rollbackCheck (putBack e s)).rgt := by
    rw [rolledGrant_of_last last]
    simp only [settle_keeps]
    exact frame
  rw [sig, after]
  refine ⟨fun hv hne => ?_, fun h => agrees fun hd => ?_⟩
  · obtain ⟨state, off, event⟩ := faults (means.2 ⟨hv, hne⟩)
    refine ⟨state, ?_, fun room => ?_⟩
    · rw [rolledGrant_of_last last]
      simp only [settle_keeps]
      exact (finishRollback_off (putBack e s) off).1
    · obtain ⟨v, hv, hb⟩ := event (by rw [events, table]; omega)
      rw [entry] at hb
      refine ⟨v, mem_events_settle _ v (by simp [hb, eventKind]) ?_, hb⟩
      rw [rolledGrant_of_last last]
      exact mem_events_finishRollback _ v hv
  · obtain ⟨hv, hne⟩ := means.1 hd
    exact h.elim (absurd hv) fun h => hne h

/-- An entry put back with others to come. -/
theorem rolledGrant_of_more (h : s.cju.journal.dropLast ≠ []) : rolledGrant e s = putBack e s := if_neg h

/-- The journal, the channel and the service while entries remain (R84, R156). -/
theorem rolled_more (h : s.cju.journal.dropLast ≠ []) :
    (settle (rolledGrant e s)).cju =
        { s.cju with journal := s.cju.journal.dropLast, wCur := setErase s.cju.wCur e.block } ∧
      (settle (rolledGrant e s)).vtu.own = s.vtu.own ∧
      Claim.serviceStays (fun k => k ∈ s.cju.resend) s (settle (rolledGrant e s)) := by
  have keeps := putBack_keeps e s
  obtain ⟨-, -, -, -, -, -, own, -, -, -, -, -, service, cju, -⟩ := keeps
  rw [rolledGrant_of_more h]
  refine ⟨by rw [settle_cju, cju], by simp, fun k => ?_, putBack e s, settle_end _, service⟩
  rw [settle_resend, cju]

/-- The own frame after the last entry (R86, R130). -/
theorem rolled_own (h : s.cju.journal.dropLast = []) :
    (settle (rolledGrant e s)).vtu.own = some ⟨s.cju.cycle + 1, .abandoned, ownEntries (settle (rolledGrant e s))⟩ := by
  obtain ⟨own, -⟩ := finishRollback_own (putBack e s)
  have entries : ownEntries (settle (rolledGrant e s)) = ownEntries (finishRollback (putBack e s)) := by
    rw [rolledGrant_of_last h]
    exact ownEntries_congr (by simp) (by simp)
  have cycle : voteCycle (putBack e s) = s.cju.cycle + 1 := by simp [voteCycle]
  rw [entries, ← cycle, ← own, rolledGrant_of_last h]
  simp

end

/-! ### The rollback at a decision -/

section
variable {e : JournalEntry} {s : State} {d : Deciding}

/-- The outcome with which the rollback of an entry completes a decision (R130). -/
def rolledOutcome (d : Deciding) (e : JournalEntry) (s : State) : VoteOutcome :=
  if framesAgree (postFrame (rollbackCheck (putBack e s))) d.majority then .collectiveAbandon else .excluded

theorem rolledGrant_of_deciding (h : s.cju.journal.dropLast = []) (hd : s.vtu.deciding = some d) :
    rolledGrant e s = completeDecision (rolledOutcome d e s) none (postFrame (rollbackCheck (putBack e s))) d.frames
      (rolledBack (putBack e s)) := by
  rw [rolledGrant_of_last h, finishRollback_of_deciding _ d (by simpa using hd)]
  rfl

/-- The frame that completes the decision is the own frame of the moment. -/
theorem postFrame_rolled (h : s.cju.journal.dropLast = []) (hd : s.vtu.deciding = some d) :
    postFrame (rollbackCheck (putBack e s)) =
      ⟨s.cju.cycle + 1, .abandoned, ownEntries (settle (rolledGrant e s))⟩ := by
  have own := rolled_own (e := e) h
  rw [rolledGrant_of_deciding h hd] at own ⊢
  simp only [settle_keeps, completeDecision_keeps] at own
  exact Option.some.inj own

/-- The decision that the rollback of the last entry completes (R130, R134). -/
theorem rolled_deciding (h : s.cju.journal.dropLast = []) (hd : s.vtu.deciding = some d) :
    (settle (rolledGrant e s)).vtu.deciding = none ∧ (settle (rolledGrant e s)).vtu.timer = s.vtu.timer ∧
      (tableLaw s = true → Claim.decisionRecorded 40 s (settle (rolledGrant e s))) := by
  obtain ⟨k, takes, few⟩ := takes_rolledBack e s
  rw [rolledGrant_of_deciding h hd]
  refine ⟨by simp [rolledBack], by simp [rolledBack], fun law => ?_⟩
  have effect := (Records.applyOutcome (rolledOutcome d e s) (postFrame (rollbackCheck (putBack e s)))
    (rolledBack (putBack e s))).weaken fun _ => notDecision_of_beside
  exact decisionRecorded_settle 40 (k + 2) _ none _ d.frames s _ takes.last (takes.events.trans effect)
    (by have := few law; omega)

theorem rolled_agreeing (h : s.cju.journal.dropLast = []) (hd : s.vtu.deciding = some d)
    (ha : Claim.agree ⟨s.cju.cycle + 1, .abandoned, ownEntries (settle (rolledGrant e s))⟩ d.majority) :
    Claim.serviceStays (fun k => k ∈ s.cju.resend) s (settle (rolledGrant e s)) ∧
      (settle (rolledGrant e s)).vtu.last.map Decision.outcome = some .collectiveAbandon ∧
      (settle (rolledGrant e s)).cju.chan = some .ready := by
  obtain ⟨k, takes, -⟩ := takes_rolledBack e s
  rw [← postFrame_rolled h hd] at ha
  have ho : rolledOutcome d e s = .collectiveAbandon := if_pos ((framesAgree_iff _ _).2 ha)
  rw [rolledGrant_of_deciding h hd, ho]
  refine ⟨takes.stays none, ?_, ?_⟩
  · simp only [settle_keeps, completeDecision_last]
    rfl
  · simp only [settle_keeps]
    exact completeDecision_abandon_chan _ _ _ _

theorem rolled_differing (h : s.cju.journal.dropLast = []) (hd : s.vtu.deciding = some d)
    (ha : ¬Claim.agree ⟨s.cju.cycle + 1, .abandoned, ownEntries (settle (rolledGrant e s))⟩ d.majority) :
    (tableLaw s = true → serving s = true →
        Claim.serviceEnds 40 .serverLost s.cju.cycle s (settle (rolledGrant e s))) ∧
      (settle (rolledGrant e s)).vtu.last.map Decision.outcome = some .excluded ∧
      (settle (rolledGrant e s)).vtu.agreedBase = false ∧
      ((settle (rolledGrant e s)).cju.chan = some .excluded ∨ (settle (rolledGrant e s)).cju.chan = some .restoring) := by
  obtain ⟨k, takes, few⟩ := takes_rolledBack e s
  rw [← postFrame_rolled h hd] at ha
  have ho : rolledOutcome d e s = .excluded := if_neg (mt (framesAgree_iff _ _).1 ha)
  rw [rolledGrant_of_deciding h hd, ho]
  obtain ⟨base, chan⟩ := completeDecision_excluded none (postFrame (rollbackCheck (putBack e s))) d.frames
    (rolledBack (putBack e s))
  refine ⟨fun law hs => ?_, ?_, ?_, ?_⟩
  · exact takes.excluded_ends 40 (by have := few law; omega) hs none
  · simp only [settle_keeps, completeDecision_last]
    rfl
  · simp only [settle_keeps]
    exact base
  · simp only [settle_keeps]
    exact chan

end

/-! ### The hand-over after a rollback -/

section
variable {e : JournalEntry} {s : State}

/-- The part that hands over the frame of a cycle that has been rolled back. -/
def rolledOver (e : JournalEntry) (s : State) : State :=
  handed (ownFrame .abandoned (rollbackCheck (putBack e s))) (rollbackCheck (putBack e s))

theorem rolledOver_frame (e : JournalEntry) (s : State) :
    rolledOver e s =
      { rollbackCheck (putBack e s) with
        cju := { (rollbackCheck (putBack e s)).cju with chan := some .voting }
        vtu := { (rollbackCheck (putBack e s)).vtu with
          own := some (ownFrame .abandoned (rollbackCheck (putBack e s)))
          timer := some (rollbackCheck (putBack e s)).times.voteTimeout }
        lkc.tx := (rolledOver e s).lkc.tx } :=
  handed_frame _ _

theorem rolledGrant_of_none (h : s.cju.journal.dropLast = []) (hd : s.vtu.deciding = none) :
    rolledGrant e s =
      handOver (ownFrame .abandoned (rollbackCheck (putBack e s))) (rollbackCheck (putBack e s)) := by
  rw [rolledGrant_of_last h, finishRollback_of_none _ (by simpa using hd)]

theorem rolledOver_service (e : JournalEntry) (s : State) :
    (rolledOver e s).rse.service = { s.rse.service with tried := [], waiting := false } ∧
      (rolledOver e s).cju.resend = s.cju.resend ∧ (rolledOver e s).cju.journal = s.cju.journal.dropLast ∧
      (rolledOver e s).cju.cycle = s.cju.cycle ∧ (rolledOver e s).lkc.peers = s.lkc.peers ∧
      (rolledOver e s).vtu.table = s.vtu.table ∧ (rolledOver e s).vtu.timer = some s.times.voteTimeout ∧
      (rolledOver e s).vtu.own = some (ownFrame .abandoned (rollbackCheck (putBack e s))) ∧
      (rolledOver e s).resetLow = s.resetLow ∧ (rolledOver e s).cju.chan = some .voting := by
  rw [rolledOver_frame]
  simp

/-- While a HEARD peer's frame is missing the vote waits (R86, R125). -/
theorem rolled_waits (h : s.cju.journal.dropLast = []) (hd : s.vtu.deciding = none) (ha : ∃ l, Claim.awaits s l) :
    (settle (rolledGrant e s)).cju.chan = some .voting ∧
      (settle (rolledGrant e s)).vtu.timer = some s.times.voteTimeout ∧
      Claim.serviceStays (fun k => k ∈ s.cju.resend) s (settle (rolledGrant e s)) ∧
      (s.position ≠ 3 → ∀ l, Claim.queued l
        (.vote ⟨s.cju.cycle + 1, .abandoned, ownEntries (settle (rolledGrant e s))⟩) s (settle (rolledGrant e s))) := by
  have own := rolled_own (e := e) h
  have waits : rolledGrant e s = rolledOver e s :=
    (rolledGrant_of_none h hd).trans (handOver_of_waits _ _ (ha.imp fun l => (awaits_rolled e s l).2))
  obtain ⟨service, resend, -, -, -, -, timer, frame, -, chan⟩ := rolledOver_service e s
  rw [waits] at own ⊢
  simp only [settle_keeps, frame] at own
  refine ⟨by simpa using chan, by simpa using timer, ⟨fun k => ?_, rolledOver e s, settle_end _, service⟩, fun hp l => ?_⟩
  · rw [settle_resend, resend]
  · rw [← Option.some.inj own]
    exact queued_handed _ _ _ (by simpa using hp) rfl s l

/-- With every frame there the vote decides as at its timer's expiry (R125). -/
theorem rolled_decides (hr : s.resetLow = false) (h : s.cju.journal.dropLast = []) (hd : s.vtu.deciding = none)
    (ha : ∀ l, ¬Claim.awaits s l) : ∃ u,
      .next (settle (rolledGrant e s)) = exec .voteTimerExpiry u ∧ u.cju.chan = some .voting ∧
      u.vtu.timer = some s.times.voteTimeout ∧ u.vtu.own = (settle (rolledGrant e s)).vtu.own ∧
      u.vtu.table = s.vtu.table ∧ u.lkc.peers = s.lkc.peers ∧ u.cju.cycle = s.cju.cycle ∧ u.cju.journal = [] ∧
      u.cju.resend = s.cju.resend ∧ u.rse.service = { s.rse.service with tried := [], waiting := false } := by
  have decides : rolledGrant e s = takeDecision (rolledOver e s) :=
    (rolledGrant_of_none h hd).trans (handOver_of_decides _ _ fun l => mt (awaits_rolled e s l).1 (ha l))
  obtain ⟨service, resend, journal, cycle, peers, table, timer, frame, reset, chan⟩ := rolledOver_service e s
  obtain ⟨own, -⟩ := takeDecision_abandoned _ _ frame rfl
  have expiry := exec_voteTimerExpiry (rolledOver e s) (reset.trans hr) chan (by rw [timer]; rfl)
  rw [decides]
  refine ⟨rolledOver e s, expiry.symm, chan, timer, ?_, table, peers, cycle, journal.trans h, resend, service⟩
  simp only [settle_keeps]
  rw [own, frame]

end

/-- Settles O35: an entry put back with others to come, and the last one, at a decision or before a vote. -/
theorem rollbackPutsBack : Obligations.RollbackPutsBack := by
  unfold Obligations.RollbackPutsBack
  intro p e s hg he
  have hr : s.resetLow = false := hg.1
  have run : exec .rollbackGrant s = .next (settle (rolledGrant e { s with mpu.pointer := p })) :=
    exec_rollbackGrant p e s hg he
  have more := rolled_more (e := e) (s := { s with mpu.pointer := p })
  have own := rolled_own (e := e) (s := { s with mpu.pointer := p })
  have checked := rolled_region (e := e) (s := { s with mpu.pointer := p })
  have deciding := fun d => rolled_deciding (e := e) (s := { s with mpu.pointer := p }) (d := d)
  have agreeing := fun d => rolled_agreeing (e := e) (s := { s with mpu.pointer := p }) (d := d)
  have differing := fun d => rolled_differing (e := e) (s := { s with mpu.pointer := p }) (d := d)
  have waits := rolled_waits (e := e) (s := { s with mpu.pointer := p })
  have decides := rolled_decides (e := e) (s := { s with mpu.pointer := p }) hr
  obtain ⟨wrote, accounted, mpu⟩ := rollback_writes p e s
  generalize settle (rolledGrant e { s with mpu.pointer := p }) = t at *
  refine ⟨t, run, wrote, accounted, mpu, fun h => ?more, fun h => ⟨own h, ?checked, fun d hd => ?deciding,
    fun hd ha => waits h hd ha, fun hd ha => ?decides⟩⟩
  case more =>
    obtain ⟨cju, own, stays⟩ := more h
    rw [cju]
    exact ⟨rfl, fun k => mem_setErase _ _ _, rfl, rfl, rfl, own, stays⟩
  case checked => exact fun law hd known => checked law hd known h
  case deciding =>
    obtain ⟨ended, timer, recorded⟩ := deciding d h hd
    exact ⟨ended, timer, recorded, agreeing d h hd, differing d h hd⟩
  case decides =>
    obtain ⟨u, same, rest⟩ := decides h hd ha
    exact ⟨u, run.trans same, rest⟩

end Sys2Proof.Machine
end

section
/-! PROOFS. A block-read grant's work on its block (R46): the array, the counts, and what it leaves where no word is
UNCORRECTABLE. -/

namespace Sys2Proof.Machine

open Sys2Proof

/-! ### A finding and the counts (R13, R34) -/

/-- The table with every region NORMAL: index, descriptor and counts of each entry. -/
def bare (l : List (Nat × Region)) : List (Nat × Region) := l.map (fun e => (e.1, { e.2 with state := .normal }))

theorem bare_modify (l : List (Nat × Region)) (i : Nat) (f g : Region → Region)
    (h : ∀ r, { f r with state := .normal } = g { r with state := .normal }) :
    bare (assocModify l i f) = assocModify (bare l) i g := by
  unfold bare assocModify
  rw [List.map_map, List.map_map]
  refine List.map_congr_left fun e _ => ?_
  simp only [Function.comp]
  split
  · rw [h]
  · rfl

theorem modify_id (l : List (Nat × Region)) (i : Nat) : assocModify l i (fun r => r) = l := by
  unfold assocModify
  simp

theorem bare_recall (l : List (Nat × Region)) (i : Nat) (f : Region → RegionState) :
    bare (assocModify l i (fun r => { r with state := f r })) = bare l :=
  (bare_modify l i (fun r => { r with state := f r }) (fun r => r) fun _ => rfl).trans (modify_id _ _)

theorem bare_markSuspect (i : Nat) (located : Bool) (s : State) :
    bare (markSuspect i located s).rgt.entries = bare s.rgt.entries := by
  unfold markSuspect
  split
  · rfl
  · split
    · split
      · exact bare_recall s.rgt.entries i fun r => calledState located r.state
      · rfl
    · rfl

theorem bare_offerRepair (i a : Nat) (s : State) : bare (offerRepair i a s).rgt.entries = bare s.rgt.entries := by
  unfold offerRepair
  split
  · simp [bare_markSuspect]
  · split
    · simp [bare_markSuspect]
    · dsimp only
      split <;> simp [bare_markSuspect, recordEvent]

theorem bare_damaged (i : Nat) (k : RegionKind) (a : Nat) (s : State) :
    bare (damaged i k a s).rgt.entries = bare s.rgt.entries := by
  unfold damaged
  split
  · rfl
  · cases k with
    | vital => exact bare_offerRepair i a s
    | code => simp [bare_markSuspect]
    | plain => rfl

/-- A region with its counts gone up. -/
def bump (m n : Nat) (r : Region) : Region :=
  { r with corrected := Claim.counted m r.corrected, uncorrectable := Claim.counted n r.uncorrectable }

theorem counted_zero (c : Nat) : Claim.counted 0 c = c := by
  unfold Claim.counted
  omega

theorem counted_one (c : Nat) : Claim.counted 1 c = satInc Config.count16Max c := by
  unfold Claim.counted satInc
  rw [Config.count16Max]
  by_cases hc : c < 65535
  · rw [if_pos hc]
    omega
  · rw [if_neg hc]
    omega

theorem counted_counted (m n c : Nat) : Claim.counted m (Claim.counted n c) = Claim.counted (m + n) c := by
  unfold Claim.counted
  omega

theorem bump_bump (m n m' n' : Nat) (r : Region) : bump m n (bump m' n' r) = bump (m + m') (n + n') r := by
  simp [bump, counted_counted]

theorem bump_zero (r : Region) : bump 0 0 r = r := by simp [bump, counted_zero]

/-- The table with the counts of the region that holds a block gone up (R13). -/
def bumpAt (b m n : Nat) (s : State) : List (Nat × Region) :=
  match regionOf s b with
  | some (i, _) => assocModify s.rgt.entries i (bump m n)
  | none => s.rgt.entries

theorem bumpAt_of_region {b m n i : Nat} {r : Region} {s : State} (h : regionOf s b = some (i, r)) :
    bumpAt b m n s = assocModify s.rgt.entries i (bump m n) := by
  unfold bumpAt
  rw [h]

theorem bumpAt_of_none {b m n : Nat} {s : State} (h : regionOf s b = none) : bumpAt b m n s = s.rgt.entries := by
  unfold bumpAt
  rw [h]

theorem counts_eq (b : Nat) (s : State) :
    Claim.counts b s =
      bumpAt b ((blockWords b).countP (fun a => (readWord s a).cond == .correctable))
        ((blockWords b).countP (fun a => (readWord s a).cond == .uncorrectable)) s := by
  unfold Claim.counts
  cases h : regionOf s b with
  | none => rw [bumpAt_of_none h]
  | some e => rw [bumpAt_of_region h]; rfl

theorem modify_modify (l : List (Nat × Region)) (i : Nat) (f g : Region → Region) :
    assocModify (assocModify l i f) i g = assocModify l i (fun r => g (f r)) := by
  unfold assocModify
  rw [List.map_map]
  refine List.map_congr_left fun e _ => ?_
  simp only [Function.comp]
  split <;> simp_all

theorem bare_bump (l : List (Nat × Region)) (i m n : Nat) :
    bare (assocModify l i (bump m n)) = assocModify (bare l) i (bump m n) := bare_modify l i _ _ fun _ => rfl

/-- Counts of one block add up. -/
theorem bumpAt_bumpAt {b m n m' n' : Nat} {s t : State} (table : tableOf t = tableOf s)
    (h : t.rgt.entries = bumpAt b m' n' s) : bumpAt b m n t = bumpAt b (m + m') (n + n') s := by
  cases hr : regionOf s b with
  | none => rw [bumpAt_of_none (regionOf_eq_none_congr table hr), h, bumpAt_of_none hr, bumpAt_of_none hr]
  | some e =>
    obtain ⟨r', hr', -⟩ := regionOf_congr (i := e.1) (r := e.2) table hr
    rw [bumpAt_of_region hr', h, bumpAt_of_region hr, bumpAt_of_region hr, modify_modify]
    exact congrArg (assocModify s.rgt.entries e.1) (funext fun r => bump_bump m n m' n' r)

theorem bare_bumpAt_bumpAt {b m n m' n' : Nat} {s t : State} (table : tableOf t = tableOf s)
    (h : bare t.rgt.entries = bare (bumpAt b m' n' s)) : bare (bumpAt b m n t) = bare (bumpAt b (m + m') (n + n') s) := by
  cases hr : regionOf s b with
  | none => rw [bumpAt_of_none (regionOf_eq_none_congr table hr), h, bumpAt_of_none hr, bumpAt_of_none hr]
  | some e =>
    obtain ⟨r', hr', -⟩ := regionOf_congr (i := e.1) (r := e.2) table hr
    rw [bumpAt_of_region hr', bare_bump, h, bumpAt_of_region hr, bumpAt_of_region hr, bare_bump, bare_bump, modify_modify]
    exact congrArg (assocModify (bare s.rgt.entries) e.1) (funext fun r => bump_bump m n m' n' r)

theorem bumpAt_zero (b : Nat) (s : State) : bumpAt b 0 0 s = s.rgt.entries := by
  cases hr : regionOf s b with
  | none => exact bumpAt_of_none hr
  | some e =>
    rw [bumpAt_of_region (i := e.1) (r := e.2) hr]
    have same : bump 0 0 = fun r => r := funext bump_zero
    rw [same, modify_id]

theorem bump_one_left : bump 1 0 = fun r => { r with corrected := satInc Config.count16Max r.corrected } :=
  funext fun r => by simp [bump, counted_zero, counted_one]

theorem bump_one_right : bump 0 1 = fun r => { r with uncorrectable := satInc Config.count16Max r.uncorrectable } :=
  funext fun r => by simp [bump, counted_zero, counted_one]

/-- A finding counts its word and leaves the array and the table's fingerprint; the counts and the states of the table apart,
it changes no entry. -/
structure Finds (found : Nat → State → State) : Prop where
  mpu : ∀ a s, (found a s).mpu = s.mpu
  fingerprint : ∀ a s, (found a s).rgt.fingerprint = s.rgt.fingerprint
  table : ∀ a s, tableOf (found a s) = tableOf s
  counts : ∀ a s, bare (found a s).rgt.entries = bare (bumpAt (blockOf a) 0 1 s)

theorem finds_findUncorrectable (ini : Option Initiator) : Finds (findUncorrectable ini) where
  mpu := by simp
  fingerprint := by simp
  table := by simp
  counts a s := by
    unfold findUncorrectable
    cases hr : regionOf s (blockOf a) with
    | none => rw [bumpAt_of_none hr]; rfl
    | some e =>
      rw [bumpAt_of_region (i := e.1) (r := e.2) hr, bump_one_right]
      exact bare_damaged _ _ _ _

theorem finds_findInPass : Finds findInPass where
  mpu := by simp
  fingerprint := by simp
  table := by simp
  counts a s := by
    have same : ∀ i u, (suspectPermit i u).rgt = u.rgt := by simp
    unfold findInPass
    cases hr : regionOf s (blockOf a) with
    | none => rw [bumpAt_of_none hr]
    | some e =>
      rw [bumpAt_of_region (i := e.1) (r := e.2) hr, bump_one_right]
      dsimp only
      rw [same]
      exact bare_markSuspect _ _ _

/-! ### The work on one word -/

section
variable {found : Nat → State → State} (h : Finds found) (a : Nat) (s : State)

theorem scrubWord_of_good (found : Nat → State → State) (hc : (readWord s a).cond = .good) : scrubWord found a s = s := by
  unfold scrubWord
  rw [hc]

theorem scrubWord_of_uncorrectable (found : Nat → State → State) (hc : (readWord s a).cond = .uncorrectable) :
    scrubWord found a s = found a s := by
  unfold scrubWord
  rw [hc]

/-- A CORRECTABLE word is written back with fresh check bits and counted (R46). -/
theorem scrubWord_of_correctable (found : Nat → State → State) (hc : (readWord s a).cond = .correctable) :
    scrubWord found a s =
      { s with
        mpu.mem := memPut s.mpu.mem a (freshWord (readWord s a).value)
        rgt.entries := bumpAt (blockOf a) 1 0 s } := by
  unfold scrubWord
  rw [hc]
  dsimp only
  have region : regionOf (storeWord a (readWord s a).value s) (blockOf a) = regionOf s (blockOf a) := rfl
  cases hr : regionOf s (blockOf a) with
  | none => rw [bumpAt_of_none hr]; rfl
  | some e => rw [bumpAt_of_region (i := e.1) (r := e.2) hr, bump_one_left]; rfl

include h

theorem scrubWord_mem (x : Nat) :
    memGet (scrubWord found a s).mpu.mem x =
      if a = x ∧ a < Config.words ∧ (readWord s a).cond = .correctable then freshWord (readWord s a).value
      else memGet s.mpu.mem x := by
  cases hc : (readWord s a).cond with
  | good => simp [scrubWord_of_good a s found hc]
  | correctable =>
    rw [scrubWord_of_correctable a s found hc]
    simp only [memGet_memPut_fresh, and_true]
  | uncorrectable => simp [scrubWord_of_uncorrectable a s found hc, h.mpu]

theorem scrubWord_mpu : (scrubWord found a s).mpu = { s.mpu with mem := (scrubWord found a s).mpu.mem } := by
  cases hc : (readWord s a).cond with
  | good => rw [scrubWord_of_good a s found hc]
  | correctable => rw [scrubWord_of_correctable a s found hc]
  | uncorrectable => rw [scrubWord_of_uncorrectable a s found hc, h.mpu]

theorem scrubWord_fingerprint : (scrubWord found a s).rgt.fingerprint = s.rgt.fingerprint := by
  cases hc : (readWord s a).cond with
  | good => rw [scrubWord_of_good a s found hc]
  | correctable => rw [scrubWord_of_correctable a s found hc]
  | uncorrectable => rw [scrubWord_of_uncorrectable a s found hc, h.fingerprint]

theorem scrubWord_counts :
    bare (scrubWord found a s).rgt.entries =
      bare (bumpAt (blockOf a) ((readWord s a).cond == .correctable).toNat ((readWord s a).cond == .uncorrectable).toNat s) := by
  cases hc : (readWord s a).cond with
  | good =>
    rw [scrubWord_of_good a s found hc]
    exact (congrArg bare (bumpAt_zero _ s)).symm
  | correctable => rw [scrubWord_of_correctable a s found hc]; rfl
  | uncorrectable => rw [scrubWord_of_uncorrectable a s found hc, h.counts]; rfl

theorem scrubWord_table : tableOf (scrubWord found a s) = tableOf s := by
  cases hc : (readWord s a).cond with
  | good => rw [scrubWord_of_good a s found hc]
  | correctable =>
    rw [scrubWord_of_correctable a s found hc]
    cases hr : regionOf s (blockOf a) with
    | none => rw [bumpAt_of_none hr]; rfl
    | some e =>
      rw [bumpAt_of_region (i := e.1) (r := e.2) hr]
      exact tableOf_modifyRegion e.1 (bump 1 0) (fun _ => rfl) s
  | uncorrectable => rw [scrubWord_of_uncorrectable a s found hc, h.table]

theorem scrubWord_reads (x : Nat) (hx : a ≠ x) : readWord (scrubWord found a s) x = readWord s x :=
  readWord_of_mem (by rw [scrubWord_mem h, if_neg fun hc => hx hc.1])

end

/-! ### The work on the words of a block -/

section
variable {found : Nat → State → State} (h : Finds found)
include h

theorem foldl_scrubWord_mem (as : List Nat) (s : State) (nd : as.Nodup) (x : Nat) :
    memGet (as.foldl (fun s a => scrubWord found a s) s).mpu.mem x =
      if x ∈ as ∧ x < Config.words ∧ (readWord s x).cond = .correctable then freshWord (readWord s x).value
      else memGet s.mpu.mem x := by
  induction as generalizing s with
  | nil => simp
  | cons a as ih =>
    obtain ⟨fresh, nd⟩ := List.nodup_cons.1 nd
    rw [List.foldl_cons, ih _ nd, scrubWord_mem h]
    by_cases hx : a = x
    · subst hx
      simp [fresh]
    · rw [scrubWord_reads h a s x hx, if_neg (fun hc : a = x ∧ _ => hx hc.1)]
      simp [Ne.symm hx]

theorem foldl_scrubWord_counts (b : Nat) (as : List Nat) (s : State) (nd : as.Nodup) (hb : ∀ a ∈ as, blockOf a = b) :
    bare (as.foldl (fun s a => scrubWord found a s) s).rgt.entries =
      bare (bumpAt b (as.countP (fun a => (readWord s a).cond == .correctable))
        (as.countP (fun a => (readWord s a).cond == .uncorrectable)) s) := by
  induction as generalizing s with
  | nil => exact (congrArg bare (bumpAt_zero b s)).symm
  | cons a as ih =>
    obtain ⟨fresh, nd⟩ := List.nodup_cons.1 nd
    have reads : ∀ c, as.countP (fun x => (readWord (scrubWord found a s) x).cond == c) =
        as.countP (fun x => (readWord s x).cond == c) := fun c =>
      List.countP_congr fun x hx => by rw [scrubWord_reads h a s x fun hax => fresh (hax ▸ hx)]
    have first := scrubWord_counts h a s
    rw [hb a List.mem_cons_self] at first
    rw [List.foldl_cons, ih _ nd fun x hx => hb x (List.mem_cons_of_mem a hx), reads, reads,
      bare_bumpAt_bumpAt (scrubWord_table h a s) first, List.countP_cons, List.countP_cons]
    cases (readWord s a).cond <;> rfl

theorem foldl_scrubWord_mpu (as : List Nat) (s : State) :
    (as.foldl (fun s a => scrubWord found a s) s).mpu =
        { s.mpu with mem := (as.foldl (fun s a => scrubWord found a s) s).mpu.mem } ∧
      (as.foldl (fun s a => scrubWord found a s) s).rgt.fingerprint = s.rgt.fingerprint ∧
      tableOf (as.foldl (fun s a => scrubWord found a s) s) = tableOf s := by
  induction as generalizing s with
  | nil => exact ⟨rfl, rfl, rfl⟩
  | cons a as ih =>
    obtain ⟨mpu, fingerprint, table⟩ := ih (scrubWord found a s)
    rw [scrubWord_mpu h a s] at mpu
    exact ⟨mpu, fingerprint.trans (scrubWord_fingerprint h a s), table.trans (scrubWord_table h a s)⟩

/-- The array after a block-read grant (R46). -/
theorem corrected_scrubBlock (b : Nat) (s : State) : Claim.corrected b s (scrubBlock found b s) := by
  intro a ha
  unfold scrubBlock
  rw [foldl_scrubWord_mem h _ _ (blockWords_nodup b)]
  simp only [mem_blockWords, ha, true_and]

/-- The counts after a block-read grant (R13, R46). -/
theorem countsWords_scrubBlock (b : Nat) (s : State) : Claim.countsWords b s (scrubBlock found b s) := by
  obtain ⟨-, fingerprint, -⟩ := foldl_scrubWord_mpu h (blockWords b) s
  refine ⟨fingerprint, ?_⟩
  rw [counts_eq]
  exact foldl_scrubWord_counts h b (blockWords b) s (blockWords_nodup b) fun a ha => (mem_blockWords b a).1 ha

theorem scrubBlock_mpu (b : Nat) (s : State) :
    (scrubBlock found b s).mpu = { s.mpu with mem := (scrubBlock found b s).mpu.mem } :=
  (foldl_scrubWord_mpu h (blockWords b) s).1

theorem scrubBlock_table (b : Nat) (s : State) : tableOf (scrubBlock found b s) = tableOf s :=
  (foldl_scrubWord_mpu h (blockWords b) s).2.2

end

/-! ### A block without an UNCORRECTABLE word -/

theorem foldl_scrubWord_quiet (found : Nat → State → State) (b : Nat) (as : List Nat) (s : State) (nd : as.Nodup)
    (hb : ∀ a ∈ as, blockOf a = b) (good : ∀ a ∈ as, (readWord s a).cond ≠ .uncorrectable) :
    as.foldl (fun s a => scrubWord found a s) s =
      { s with
        mpu.mem := (as.foldl (fun s a => scrubWord found a s) s).mpu.mem
        rgt.entries := bumpAt b (as.countP (fun a => (readWord s a).cond == .correctable)) 0 s } := by
  induction as generalizing s with
  | nil => rw [List.countP_nil, bumpAt_zero]; rfl
  | cons a as ih =>
    obtain ⟨fresh, nd⟩ := List.nodup_cons.1 nd
    have others : ∀ x ∈ as, a ≠ x := fun x hx hax => fresh (hax ▸ hx)
    have step : scrubWord found a s =
        { s with
          mpu.mem := (scrubWord found a s).mpu.mem
          rgt.entries := bumpAt b ((readWord s a).cond == .correctable).toNat 0 s } ∧
        ∀ x ∈ as, readWord (scrubWord found a s) x = readWord s x := by
      cases hc : (readWord s a).cond with
      | good =>
        rw [scrubWord_of_good a s found hc]
        exact ⟨by rw [show (Condition.good == Condition.correctable).toNat = 0 from rfl, bumpAt_zero], fun _ _ => rfl⟩
      | correctable =>
        rw [scrubWord_of_correctable a s found hc, hb a List.mem_cons_self]
        exact ⟨rfl, fun x hx => readWord_of_mem (by rw [memGet_memPut_fresh, if_neg fun hax => others x hx hax.1])⟩
      | uncorrectable => exact absurd hc (good a List.mem_cons_self)
    obtain ⟨first, reads⟩ := step
    have table : tableOf (scrubWord found a s) = tableOf s := by
      rw [first]
      cases hr : regionOf s b with
      | none => rw [bumpAt_of_none hr]; rfl
      | some e =>
        rw [bumpAt_of_region (i := e.1) (r := e.2) hr]
        exact tableOf_modifyRegion e.1 (bump _ 0) (fun _ => rfl) s
    have rest := ih (scrubWord found a s) nd (fun x hx => hb x (List.mem_cons_of_mem a hx)) fun x hx => by
      rw [reads x hx]; exact good x (List.mem_cons_of_mem a hx)
    have counted : as.countP (fun x => (readWord (scrubWord found a s) x).cond == .correctable) =
        as.countP (fun x => (readWord s x).cond == .correctable) := List.countP_congr fun x hx => by rw [reads x hx]
    have entries : (scrubWord found a s).rgt.entries = bumpAt b ((readWord s a).cond == .correctable).toNat 0 s := by
      rw [first]
    rw [counted, bumpAt_bumpAt table entries] at rest
    rw [List.foldl_cons, List.countP_cons]
    generalize as.foldl (fun s a => scrubWord found a s) (scrubWord found a s) = t at rest ⊢
    rw [rest, first]
    cases (readWord s a).cond <;> rfl

theorem countP_eq_zero_of_good (as : List Nat) (s : State) (good : ∀ a ∈ as, (readWord s a).cond ≠ .uncorrectable) :
    as.countP (fun a => (readWord s a).cond == .uncorrectable) = 0 :=
  List.countP_eq_zero.2 fun a ha => by simpa using good a ha

/-- With no UNCORRECTABLE word a block-read grant corrects and counts, and does nothing else (R46). -/
theorem scrubBlock_quiet (found : Nat → State → State) (b : Nat) (s : State)
    (good : ∀ a ∈ blockWords b, (readWord s a).cond ≠ .uncorrectable) :
    scrubBlock found b s =
      { s with mpu.mem := (scrubBlock found b s).mpu.mem, rgt.entries := Claim.counts b s } := by
  rw [counts_eq, countP_eq_zero_of_good _ s good]
  exact foldl_scrubWord_quiet found b (blockWords b) s (blockWords_nodup b) (fun a ha => (mem_blockWords b a).1 ha) good

end Sys2Proof.Machine
end

section
/-! PROOFS. UNCORRECTABLE words (R12, R34, R88, R89, R101, R137): what their findings make of the region, of PERMIT and of the
repair list, and the events that they record. -/

namespace Sys2Proof.Machine

open Sys2Proof

/-! ### What findings change -/

/-- What agrees but for the fields that findings and corrections change differs in these only. -/
theorem eq_of_unread {s t : State} (h : unread t = unread s) :
    t = { s with
      rgt.entries := t.rgt.entries
      mpu.mem := t.mpu.mem
      cju := { s.cju with repair := t.cju.repair, repairOverflow := t.cju.repairOverflow }
      ptu.turned := t.ptu.turned
      vtu := { s.vtu with permitted := t.vtu.permitted, level := t.vtu.level }
      rse.pull.clean := t.rse.pull.clean
      cmu := s.cmu.withEvents t.cmu } := by
  have eta : ∀ u : State, u = { unread u with
      rgt.entries := u.rgt.entries
      mpu.mem := u.mpu.mem
      cju := { u.cju with repair := u.cju.repair, repairOverflow := u.cju.repairOverflow }
      ptu.turned := u.ptu.turned
      vtu := { u.vtu with permitted := u.vtu.permitted, level := u.vtu.level }
      rse.pull.clean := u.rse.pull.clean
      cmu := u.cmu } := fun u => rfl
  have same : ∀ u : State, { u with
      rgt.entries := t.rgt.entries
      mpu.mem := t.mpu.mem
      cju := { u.cju with repair := t.cju.repair, repairOverflow := t.cju.repairOverflow }
      ptu.turned := t.ptu.turned
      vtu := { u.vtu with permitted := t.vtu.permitted, level := t.vtu.level }
      rse.pull.clean := t.rse.pull.clean
      cmu := u.cmu.withEvents t.cmu } =
    { unread u with
      rgt.entries := t.rgt.entries
      mpu.mem := t.mpu.mem
      cju := { (unread u).cju with repair := t.cju.repair, repairOverflow := t.cju.repairOverflow }
      ptu.turned := t.ptu.turned
      vtu := { (unread u).vtu with permitted := t.vtu.permitted, level := t.vtu.level }
      rse.pull.clean := t.rse.pull.clean
      cmu := (unread u).cmu.withEvents t.cmu } := fun u => rfl
  rw [same s, ← h, ← same t]
  rfl

theorem unread_findInPass (a : Nat) (s : State) : unread (findInPass a s) = unread s := by
  have marked : ∀ i loc u, unread (markSuspect i loc u) = unread u := fun i loc u => by
    unfold markSuspect
    split
    · rfl
    · split
      · split <;> rfl
      · rfl
  have dropped : ∀ c u, unread (dropPermit c u) = unread u := fun c u => by
    unfold dropPermit
    split
    · rw [recordEvent_frame]
      rfl
    · rfl
  have permit : ∀ i u, unread (suspectPermit i u) = unread u := fun i u => by
    unfold suspectPermit
    split
    · split
      · exact dropped _ u
      · rfl
    · rfl
  unfold findInPass
  split
  · rw [permit, marked, recordEvent_frame]
    rfl
  · rfl

theorem scrubBlock_frame (found : Nat → State → State) (hf : ∀ a s, unread (found a s) = unread s) (b : Nat) (s : State) :
    scrubBlock found b s = { s with
      rgt.entries := (scrubBlock found b s).rgt.entries
      mpu.mem := (scrubBlock found b s).mpu.mem
      cju := { s.cju with
        repair := (scrubBlock found b s).cju.repair, repairOverflow := (scrubBlock found b s).cju.repairOverflow }
      ptu.turned := (scrubBlock found b s).ptu.turned
      vtu := { s.vtu with permitted := (scrubBlock found b s).vtu.permitted, level := (scrubBlock found b s).vtu.level }
      rse.pull.clean := (scrubBlock found b s).rse.pull.clean
      cmu := s.cmu.withEvents (scrubBlock found b s).cmu } :=
  eq_of_unread (unread_scrubBlock found hf b s)

/-! ### A finding never mends -/

/-- What holds of a state and of what a finding calls for from it. -/
def Lasts (st : RegionState → Prop) : Prop := ∀ located x, st x → st (calledState located x)

theorem lasts_suspect : Lasts (fun x => x ≠ .normal) := by
  intro located x _
  cases x <;> cases located <;> simp [calledState]

theorem lasts_unlocated : Lasts (fun x => x = .suspectUnlocated) := by
  rintro located x rfl
  rfl

/-- From `s` to `t` regions only become SUSPECT, and PERMIT is only lost. -/
structure Worsens (s t : State) : Prop where
  region : ∀ i r, assocFind s.rgt.entries i = some r → ∃ r', assocFind t.rgt.entries i = some r' ∧ r'.desc = r.desc ∧
    ∀ st, Lasts st → st r.state → st r'.state
  table : tableOf t = tableOf s
  dev : t.dev = s.dev
  position : t.ptu.position = s.ptu.position
  vtu : t.vtu = s.vtu ∨ t.vtu = s.vtu.dropped
  turned : s.ptu.turned = true → t.ptu.turned = true

namespace Worsens

variable {s t u : State}

theorem refl (s : State) : Worsens s s :=
  ⟨fun _ r hr => ⟨r, hr, rfl, fun _ _ h => h⟩, rfl, rfl, rfl, .inl rfl, id⟩

theorem trans (h : Worsens s t) (k : Worsens t u) : Worsens s u where
  region i r hr := by
    obtain ⟨r', hr', hd, hs⟩ := h.region i r hr
    obtain ⟨r'', hr'', hd', hs'⟩ := k.region i r' hr'
    exact ⟨r'', hr'', hd'.trans hd, fun st hl hx => hs' st hl (hs st hl hx)⟩
  table := k.table.trans h.table
  dev := k.dev.trans h.dev
  position := k.position.trans h.position
  vtu := by
    rcases h.vtu with hv | hv
    · rw [← hv]
      exact k.vtu
    · have twice : s.vtu.dropped.dropped = s.vtu.dropped := by simp [Vtu.dropped]
      have kv := k.vtu
      rw [hv, twice, or_self] at kv
      exact .inr kv
  turned := k.turned ∘ h.turned

/-- Entries are modified, their descriptors are not, and their states last. -/
theorem modify (s : State) (i : Nat) (f : Region → Region) (hd : ∀ r, (f r).desc = r.desc)
    (hs : ∀ r st, Lasts st → st r.state → st (f r).state) : Worsens s (modifyRegion i f s) where
  region j r hr := by
    simp only [modifyRegion]
    rw [assocFind_modify, hr]
    split
    · exact ⟨f r, rfl, hd r, hs r⟩
    · exact ⟨r, rfl, rfl, fun _ _ h => h⟩
  table := tableOf_modifyRegion i f hd s
  dev := rfl
  position := rfl
  vtu := .inl rfl
  turned := id

theorem of_rgt (hr : t.rgt = s.rgt) (hd : t.dev = s.dev) (hp : t.ptu = s.ptu)
    (hv : t.vtu = s.vtu ∨ t.vtu = s.vtu.dropped) : Worsens s t :=
  ⟨fun _ r h => ⟨r, by rwa [hr], rfl, fun _ _ h => h⟩, tableOf_of_rgt hr, hd, by rw [hp], hv, by rw [hp]; exact id⟩

theorem event (b : EventBody) (s : State) : Worsens s (recordEvent b s) := of_rgt rfl rfl rfl (.inl rfl)

theorem suspectPermit (i : Nat) (s : State) : Worsens s (suspectPermit i s) :=
  of_rgt (by simp) (by simp) (by simp) <| by
    unfold Machine.suspectPermit
    split
    · split
      · exact .inr (dropPermit_vtu _ s)
      · exact .inl rfl
    · exact .inl rfl

theorem markSuspect (i : Nat) (located : Bool) (s : State) : Worsens s (markSuspect i located s) := by
  unfold Machine.markSuspect
  split
  · exact refl s
  · split
    · split
      · obtain ⟨region, table, dev, position, vtu, -⟩ :=
          modify s i (fun r => { r with state := calledState located r.state }) (fun _ => rfl) fun r st hl => hl located r.state
        exact ⟨region, table, dev, position, vtu, fun h => by rw [h]; rfl⟩
      · exact refl s
    · exact refl s

theorem repaired (c : Cju) (s : State) : Worsens s { s with cju := c } := of_rgt rfl rfl rfl (.inl rfl)

theorem offerRepair (i a : Nat) (s : State) : Worsens s (offerRepair i a s) := by
  unfold Machine.offerRepair
  split
  · exact (markSuspect i true s).trans (suspectPermit i _)
  · split
    · exact ((repaired _ s).trans (markSuspect i true _)).trans (suspectPermit i _)
    · have full := (repaired { s.cju with repairOverflow := true } s).trans (markSuspect i false _)
      dsimp only
      split
      · exact full.trans (suspectPermit i _)
      · exact (full.trans (event _ _)).trans (suspectPermit i _)

theorem damaged (i : Nat) (k : RegionKind) (a : Nat) (s : State) : Worsens s (damaged i k a s) := by
  unfold Machine.damaged
  split
  · exact refl s
  · cases k with
    | vital => exact offerRepair i a s
    | code => exact (markSuspect i false s).trans (suspectPermit i _)
    | plain => exact refl s

theorem counted (i : Nat) (s : State) : Worsens s (countUncorrectable i s) :=
  modify s i _ (fun _ => rfl) fun _ _ _ h => h

theorem findUncorrectable (ini : Option Initiator) (a : Nat) (s : State) : Worsens s (findUncorrectable ini a s) := by
  unfold Machine.findUncorrectable
  split
  · exact ((counted _ s).trans (event _ _)).trans (damaged _ _ _ _)
  · exact event _ s

theorem findInPass (a : Nat) (s : State) : Worsens s (findInPass a s) := by
  unfold Machine.findInPass
  split
  · exact (((counted _ s).trans (event _ _)).trans (markSuspect _ _ _)).trans (suspectPermit _ _)
  · exact refl s

theorem scrubWord (found : Nat → State → State) (hf : ∀ a s, Worsens s (found a s)) (a : Nat) (s : State) :
    Worsens s (scrubWord found a s) := by
  cases hc : (readWord s a).cond with
  | good => rw [scrubWord_of_good a s found hc]; exact refl s
  | uncorrectable => rw [scrubWord_of_uncorrectable a s found hc]; exact hf a s
  | correctable =>
    have stored : Worsens s (storeWord a (readWord s a).value s) := of_rgt rfl rfl rfl (.inl rfl)
    unfold Machine.scrubWord
    rw [hc]
    dsimp only
    split
    · exact stored.trans (modify _ _ _ (fun _ => rfl) fun _ _ _ h => h)
    · exact stored

theorem scrubWords (found : Nat → State → State) (hf : ∀ a s, Worsens s (found a s)) (as : List Nat) (s : State) :
    Worsens s (as.foldl (fun s a => Machine.scrubWord found a s) s) := by
  induction as generalizing s with
  | nil => exact refl s
  | cons a as ih => exact (scrubWord found hf a s).trans (ih _)

/-- PERMIT is only lost. -/
theorem permitted (h : Worsens s t) (hp : s.vtu.permitted = false) : t.vtu.permitted = false := by
  rcases h.vtu with hv | hv
  · rw [hv, hp]
  · rw [hv]
    rfl

/-- The vote unit but for PERMIT; where PERMIT was there, its line is off once it is lost. -/
theorem vtu_rest (h : Worsens s t) : t.vtu = { s.vtu with permitted := t.vtu.permitted, level := t.vtu.level } ∧
    (s.vtu.permitted = true → t.vtu.dropped.level = false) := by
  rcases h.vtu with hv | hv
  · rw [hv]
    exact ⟨rfl, fun hp => by simp [Vtu.dropped, hp]⟩
  · rw [hv]
    exact ⟨rfl, fun hp => by simp [Vtu.dropped, hp]⟩

end Worsens

/-! ### A region marked SUSPECT -/

/-- A region has the state that a finding called for, PERMIT is off, and if the patrol walks the region that is kept
(R12, R101, R137). -/
structure Marked (st : RegionState → Prop) (i : Nat) (d : Descriptor) (s : State) : Prop where
  region : ∃ r, assocFind s.rgt.entries i = some r ∧ r.desc = d ∧ st r.state
  permitted : s.vtu.permitted = false
  turned : walkedNow s i = true → s.ptu.turned = true

theorem walkedNow_congr {s t : State} (table : tableOf t = tableOf s) (position : t.ptu.position = s.ptu.position) (i : Nat) :
    walkedNow t i = walkedNow s i := by
  unfold walkedNow
  rw [position]
  cases s.ptu.position with
  | none => rfl
  | some p =>
    have one : (regionOf t p).map Prod.fst = (regionOf s p).map Prod.fst := by
      have fst : ∀ u : State, (regionOf u p).map Prod.fst = ((regionOf u p).map (fun e => (e.1, e.2.desc))).map Prod.fst :=
        fun u => by rw [Option.map_map]; rfl
      rw [fst t, fst s, regionOf_desc, regionOf_desc, table]
    dsimp only
    rw [one]

theorem Marked.worsens {st : RegionState → Prop} {i : Nat} {d : Descriptor} {s t : State} (h : Marked st i d s)
    (hl : Lasts st) (w : Worsens s t) : Marked st i d t where
  region := by
    obtain ⟨r, hr, hd, hs⟩ := h.region
    obtain ⟨r', hr', hd', hs'⟩ := w.region i r hr
    exact ⟨r', hr', hd'.trans hd, hs' st hl hs⟩
  permitted := w.permitted h.permitted
  turned hw := w.turned (h.turned ((walkedNow_congr w.table w.position i).symm.trans hw))

theorem suspectPermit_of_suspect (i : Nat) (s : State) (r : Region) (hf : assocFind s.rgt.entries i = some r)
    (hs : r.desc.signed = true) (hn : r.state ≠ .normal) : (suspectPermit i s).vtu.permitted = false := by
  unfold suspectPermit
  rw [hf]
  simp [Region.suspect, hs, hn, dropPermit_vtu, Vtu.dropped]

theorem calledState_ne (located : Bool) (x : RegionState) : calledState located x ≠ .normal := by
  cases x <;> cases located <;> simp [calledState]

theorem markSuspect_turned (i : Nat) (located : Bool) (s : State) (r : Region) (hd : s.dev ≠ .configuring)
    (hf : assocFind s.rgt.entries i = some r) (hs : r.desc.signed = true) :
    (markSuspect i located s).ptu.turned = (s.ptu.turned || walkedNow s i) := by
  unfold markSuspect
  rw [if_neg hd, hf]
  dsimp only
  rw [if_pos hs]

/-- A finding in a signed region marks it, whatever is recorded between. -/
theorem marked_of_suspect (i : Nat) (located : Bool) (s t : State) (r : Region) (hd : s.dev ≠ .configuring)
    (hf : assocFind s.rgt.entries i = some r) (hs : r.desc.signed = true) (rgt : t.rgt = (markSuspect i located s).rgt)
    (ptu : t.ptu = (markSuspect i located s).ptu) :
    Marked (fun x => x = calledState located r.state) i r.desc (suspectPermit i t) := by
  have found := markSuspect_of_signed i located s r hd hf hs
  have kept : (suspectPermit i t).rgt = t.rgt ∧ (suspectPermit i t).ptu = t.ptu := by simp
  obtain ⟨table, walk⟩ := kept
  refine ⟨⟨{ r with state := calledState located r.state }, by rw [table, rgt, found], rfl, rfl⟩, ?_, fun hw => ?_⟩
  · exact suspectPermit_of_suspect i t { r with state := calledState located r.state } (by rw [rgt, found]) hs
      (calledState_ne located r.state)
  · have same : walkedNow s i = true := by
      rw [← hw]
      exact (walkedNow_congr (t := suspectPermit i t) ((tableOf_of_rgt (table.trans rgt)).trans (tableOf_markSuspect i located s))
        (by rw [walk, ptu]; simp) i).symm
    rw [walk, ptu, markSuspect_turned i located s r hd hf hs, same, Bool.or_true]

theorem Marked.mono {st st' : RegionState → Prop} {i : Nat} {d : Descriptor} {s : State} (h : Marked st i d s)
    (hst : ∀ x, st x → st' x) : Marked st' i d s :=
  let ⟨r, hr, hd, hs⟩ := h.region
  ⟨⟨r, hr, hd, hst _ hs⟩, h.permitted, h.turned⟩

end Sys2Proof.Machine
end

section
/-! PROOFS. The UNCORRECTABLE words of a block (R34, R46, R62): the region, the repair list and the events after its grant. -/

namespace Sys2Proof.Machine

open Sys2Proof

/-! ### One finding -/

/-- What a finding of a reader that offers blocks leaves of its region (R12, R34). -/
def foundState (s : State) (b : Nat) (r : Region) : RegionState :=
  if r.desc.signed = false ∨ s.dev = .configuring then r.state
  else if r.desc.kind = .vital ∧ r.state ≠ .suspectUnlocated ∧ (b ∈ s.cju.repair ∨ s.cju.repair.length < 32) then
    .suspectLocated
  else .suspectUnlocated

/-- The repair list with a block offered (R88). -/
def offered (b : Nat) (l : List Nat) : List Nat := if b ∉ l ∧ l.length < 32 then l ++ [b] else l

theorem offered_offered (b : Nat) (l : List Nat) : offered b (offered b l) = offered b l := by
  unfold offered
  split
  case isTrue h => rw [if_neg (by simp)]
  case isFalse => rfl

theorem calledState_true (x : RegionState) (h : x ≠ .suspectUnlocated) : calledState true x = .suspectLocated := by
  cases x with
  | normal => rfl
  | suspectLocated => rfl
  | suspectUnlocated => exact absurd rfl h

theorem calledState_false (x : RegionState) : calledState false x = .suspectUnlocated := by cases x <;> rfl

section
variable {i a : Nat} {s : State} {r : Region}

/-- A VITAL block's finding: the region, the repair list and its overflow (R88, R89). -/
theorem offerRepair_marks (hd : s.dev ≠ .configuring) (hf : assocFind s.rgt.entries i = some r) (hs : r.desc.signed = true)
    (hk : r.desc.kind = .vital) :
    Marked (fun x => x = foundState s (blockOf a) r) i r.desc (offerRepair i a s) ∧
      (offerRepair i a s).cju.repair = offered (blockOf a) s.cju.repair ∧
      (offerRepair i a s).cju.repairOverflow =
        (s.cju.repairOverflow || decide (blockOf a ∉ s.cju.repair ∧ 32 ≤ s.cju.repair.length)) := by
  have located : ∀ x : RegionState, (blockOf a ∈ s.cju.repair ∨ s.cju.repair.length < 32) →
      x = calledState true r.state → x = foundState s (blockOf a) r := by
    rintro x room rfl
    unfold foundState
    rw [if_neg (by simp [hs, hd])]
    by_cases hn : r.state = .suspectUnlocated
    · rw [if_neg (by simp [hn]), hn]
      rfl
    · rw [if_pos ⟨hk, hn, room⟩, calledState_true _ hn]
  unfold offerRepair
  by_cases hm : blockOf a ∈ s.cju.repair
  · rw [if_pos hm]
    refine ⟨(marked_of_suspect i true s _ r hd hf hs rfl rfl).mono fun x => located x (.inl hm), ?_, ?_⟩
    · simp [offered, hm]
    · simp [hm]
  · rw [if_neg hm]
    by_cases hl : s.cju.repair.length < 32
    · rw [if_pos (show s.cju.repair.length < Config.repairMax from hl)]
      refine ⟨(marked_of_suspect i true { s with cju.repair := s.cju.repair ++ [blockOf a] } _ r hd hf hs rfl rfl).mono
        fun x => located x (.inr hl), ?_, ?_⟩
      · simp [offered, hm, hl]
      · simp [hl]
    · rw [if_neg (show ¬s.cju.repair.length < Config.repairMax from hl)]
      have unlocated : ∀ x : RegionState, x = calledState false r.state → x = foundState s (blockOf a) r := by
        rintro x rfl
        unfold foundState
        rw [if_neg (by simp [hs, hd]), if_neg (by simp [hm, hl]), calledState_false]
      have marked := fun t h h' =>
        (marked_of_suspect i false { s with cju.repairOverflow := true } t r hd hf hs h h').mono unlocated
      refine ⟨?_, ?_, ?_⟩
      · split
        · exact marked _ rfl rfl
        · exact marked _ rfl rfl
      · dsimp only
        split <;> simp [offered, hl]
      · dsimp only
        split <;> simp [hm, Nat.not_lt.1 hl]

theorem kind_of_signed (d : Descriptor) (h : d.signed = true) : d.kind = .vital ∨ d.kind = .code := by
  unfold Descriptor.signed at h
  cases hk : d.kind with
  | vital => exact .inl rfl
  | code => exact .inr rfl
  | plain => rw [hk] at h; exact absurd h (by decide)

/-- The further effect of a finding in a signed region (R12, R34). -/
theorem damaged_marks (hd : s.dev ≠ .configuring) (hf : assocFind s.rgt.entries i = some r) (hs : r.desc.signed = true) :
    Marked (fun x => x = foundState s (blockOf a) r) i r.desc (damaged i r.desc.kind a s) ∧
      (damaged i r.desc.kind a s).cju.repair =
        (if r.desc.kind = .vital then offered (blockOf a) s.cju.repair else s.cju.repair) ∧
      (damaged i r.desc.kind a s).cju.repairOverflow =
        (s.cju.repairOverflow ||
          decide (r.desc.kind = .vital ∧ blockOf a ∉ s.cju.repair ∧ 32 ≤ s.cju.repair.length)) := by
  unfold damaged
  rw [if_neg hd]
  rcases kind_of_signed r.desc hs with hk | hk
  · obtain ⟨marked, repair, full⟩ := offerRepair_marks (a := a) hd hf hs hk
    rw [hk]
    exact ⟨marked, by rw [if_pos rfl]; exact repair, by simpa using full⟩
  · have unlocated : ∀ x : RegionState, x = calledState false r.state → x = foundState s (blockOf a) r := by
      rintro x rfl
      unfold foundState
      rw [if_neg (by simp [hs, hd]), if_neg (by simp [hk]), calledState_false]
    rw [hk]
    exact ⟨(marked_of_suspect i false s _ r hd hf hs rfl rfl).mono unlocated, by simp, by simp⟩

theorem damaged_of_quiet (k : RegionKind) (h : k = .plain ∨ s.dev = .configuring) : damaged i k a s = s := by
  unfold damaged
  rcases h with rfl | hd
  · split <;> rfl
  · rw [if_pos hd]

end

section
variable {i a : Nat} {s : State} {r q : Region} (ini : Option Initiator)

theorem findUncorrectable_of_region (hr : regionOf s (blockOf a) = some (i, q)) :
    findUncorrectable ini a s =
      damaged i q.desc.kind a
        (recordEvent (.uncorrectable (some i) (byteAddr a) ini) (countUncorrectable i s)) := by
  unfold findUncorrectable
  rw [hr]

theorem assocFind_counted (hf : assocFind s.rgt.entries i = some r) (b : EventBody) :
    assocFind (recordEvent b (countUncorrectable i s)).rgt.entries i =
      some { r with uncorrectable := satInc Config.count16Max r.uncorrectable } := by
  have same : (recordEvent b (countUncorrectable i s)).rgt.entries =
      assocModify s.rgt.entries i (fun r => { r with uncorrectable := satInc Config.count16Max r.uncorrectable }) := rfl
  rw [same, assocFind_modify, if_pos rfl, hf]
  rfl

/-- A finding in a signed region (R12, R34, R88, R89). -/
theorem findUncorrectable_marks (hd : s.dev ≠ .configuring) (hr : regionOf s (blockOf a) = some (i, q)) (hq : q.desc = r.desc)
    (hf : assocFind s.rgt.entries i = some r) (hs : r.desc.signed = true) :
    Marked (fun x => x = foundState s (blockOf a) r) i r.desc (findUncorrectable ini a s) ∧
      (findUncorrectable ini a s).cju.repair =
        (if r.desc.kind = .vital then offered (blockOf a) s.cju.repair else s.cju.repair) ∧
      (findUncorrectable ini a s).cju.repairOverflow =
        (s.cju.repairOverflow ||
          decide (r.desc.kind = .vital ∧ blockOf a ∉ s.cju.repair ∧ 32 ≤ s.cju.repair.length)) := by
  rw [findUncorrectable_of_region ini hr, hq]
  exact damaged_marks (i := i) (a := a) (r := { r with uncorrectable := satInc Config.count16Max r.uncorrectable })
    (s := recordEvent (.uncorrectable (some i) (byteAddr a) ini) (countUncorrectable i s)) hd (assocFind_counted hf _) hs

/-- A finding in a PLAIN region, or in CONFIGURING, only counts and is recorded (R34). -/
theorem findUncorrectable_quiet (hr : regionOf s (blockOf a) = some (i, q)) (h : q.desc.kind = .plain ∨ s.dev = .configuring) :
    findUncorrectable ini a s =
      recordEvent (.uncorrectable (some i) (byteAddr a) ini) (countUncorrectable i s) := by
  rw [findUncorrectable_of_region ini hr]
  exact damaged_of_quiet _ (by simpa using h)

end

/-- The finding of a pass leaves a signed region SUSPECT_UNLOCATED (R62, R63). -/
theorem findInPass_marks {i a : Nat} {s : State} {r q : Region} (hd : s.dev ≠ .configuring)
    (hr : regionOf s (blockOf a) = some (i, q)) (hf : assocFind s.rgt.entries i = some r) (hs : r.desc.signed = true) :
    Marked (fun x => x = .suspectUnlocated) i r.desc (findInPass a s) := by
  unfold findInPass
  rw [hr]
  refine (marked_of_suspect i false
    (recordEvent (.uncorrectable (some i) (byteAddr a) none) (countUncorrectable i s)) _ _ hd (assocFind_counted hf _) hs rfl
    rfl).mono ?_
  rintro x rfl
  exact calledState_false _

/-! ### The events of findings -/

/-- From `s` to `t` at most `k` events are recorded, all of these kinds, apart from those of PERMIT's loss and of the repair
list's overflow, which each come once. -/
def Draws (admits : EventBody → Prop) (k : Nat) (s t : State) : Prop :=
  ∃ more : List Record, t.cmu.events = s.cmu.events ++ more ∧
    more.length + t.vtu.permitted.toNat + (!t.cju.repairOverflow).toNat ≤
      k + s.vtu.permitted.toNat + (!s.cju.repairOverflow).toNat ∧ ∀ r ∈ more, admits r.body

namespace Draws

variable {ad : EventBody → Prop} {j k : Nat} {s t u : State}

theorem of_spends (h : Spends ad k s t) (hc : t.cju.repairOverflow = s.cju.repairOverflow) : Draws ad k s t := by
  obtain ⟨more, e, l, ha⟩ := h
  exact ⟨more, e, by rw [hc]; omega, ha⟩

theorem trans (h : Draws ad j s t) (h' : Draws ad k t u) : Draws ad (j + k) s u := by
  obtain ⟨m1, e1, l1, a1⟩ := h
  obtain ⟨m2, e2, l2, a2⟩ := h'
  refine ⟨m1 ++ m2, by rw [e2, e1, List.append_assoc], ?_, fun r hr => (List.mem_append.1 hr).elim (a1 r) (a2 r)⟩
  rw [List.length_append]
  omega

theorem mono (h : Draws ad j s t) (hjk : j ≤ k) : Draws ad k s t := by
  obtain ⟨more, e, l, ha⟩ := h
  exact ⟨more, e, by omega, ha⟩

theorem refl (s : State) : Draws ad 0 s s := ⟨[], by simp, by simp, by simp⟩

theorem records (h : Draws ad k s t) : Records ad (k + 2) s t := by
  obtain ⟨more, e, l, ha⟩ := h
  have one := Bool.toNat_le s.vtu.permitted
  have two := Bool.toNat_le (!s.cju.repairOverflow)
  exact ⟨more, e, by omega, ha⟩

/-- The kinds of events that findings record. -/
def ofFinding (b : EventBody) : Prop :=
  (∃ i a ini, b = .uncorrectable i a ini) ∨ (∃ i a, b = .repairOverflow i a) ∨ ∃ c, b = .permitDropped c

theorem suspectPermit (i : Nat) (s : State) : Draws ofFinding 0 s (suspectPermit i s) :=
  of_spends (.suspectPermit i s (.inr (.inr ⟨_, rfl⟩))) (by simp)

theorem markSuspect (i : Nat) (b : Bool) (s : State) : Draws ofFinding 0 s (markSuspect i b s) :=
  of_spends (.markSuspect i b s) (by simp)

/-- The overflow of the repair list is recorded when it is new (R89). -/
theorem overflows (i a : Nat) (s t : State) (events : t.cmu.events = s.cmu.events)
    (permitted : t.vtu.permitted = s.vtu.permitted) (full : t.cju.repairOverflow = true) :
    Draws ofFinding 0 s (if s.cju.repairOverflow then t else recordEvent (.repairOverflow i (byteAddr a)) t) := by
  cases ho : s.cju.repairOverflow with
  | true => exact ⟨[], by simp [events], by simp [permitted, full, ho], by simp⟩
  | false =>
    obtain ⟨more, e, l, ha⟩ := Records.event (admits := ofFinding) (.repairOverflow i (byteAddr a)) t (.inr (.inl ⟨_, _, rfl⟩))
    refine ⟨more, by rw [if_neg Bool.false_ne_true, e, events], ?_, ha⟩
    rw [if_neg Bool.false_ne_true]
    have spent : more.length ≤ 1 := l
    have off : (recordEvent (.repairOverflow i (byteAddr a)) t).cju.repairOverflow = true := full
    have held : (recordEvent (.repairOverflow i (byteAddr a)) t).vtu.permitted = s.vtu.permitted := permitted
    rw [off, held, ho]
    simp only [Bool.not_true, Bool.toNat_false, Bool.not_false, Bool.toNat_true]
    omega

theorem offerRepair (i a : Nat) (s : State) : Draws ofFinding 0 s (offerRepair i a s) := by
  unfold Machine.offerRepair
  split
  · exact (markSuspect i true s).trans (suspectPermit i _)
  · split
    · have listed : Draws ofFinding 0 s { s with cju.repair := s.cju.repair ++ [blockOf a] } := of_spends (.of_eq rfl rfl) rfl
      exact (listed.trans (markSuspect i true _)).trans (suspectPermit i _)
    · exact (overflows i a s _ (by simp) (by simp) (by simp)).trans (suspectPermit i _)

theorem damaged (i : Nat) (k : RegionKind) (a : Nat) (s : State) : Draws ofFinding 0 s (damaged i k a s) := by
  unfold Machine.damaged
  split
  · exact refl s
  · cases k with
    | vital => exact offerRepair i a s
    | code => exact (markSuspect i false s).trans (suspectPermit i _)
    | plain => exact refl s

theorem found (i : Option Nat) (a : Nat) (ini : Option Initiator) (s t : State) (events : t.cmu.events = s.cmu.events)
    (permitted : t.vtu.permitted = s.vtu.permitted) (full : t.cju.repairOverflow = s.cju.repairOverflow) :
    Draws ofFinding 1 s (recordEvent (.uncorrectable i a ini) t) :=
  (of_spends (k := 0) (.of_eq events permitted) full).trans
    (of_spends (.event (.uncorrectable i a ini) t (.inl ⟨_, _, _, rfl⟩)) (by simp))

theorem findUncorrectable (ini : Option Initiator) (a : Nat) (s : State) :
    Draws ofFinding 1 s (findUncorrectable ini a s) := by
  unfold Machine.findUncorrectable
  split
  · exact (found _ _ _ s (countUncorrectable _ s) rfl rfl rfl).trans (damaged _ _ _ _)
  · exact found _ _ _ s s rfl rfl rfl

theorem scrubWord (found : Nat → State → State) (hf : ∀ a s, Draws ofFinding 1 s (found a s)) (a : Nat) (s : State) :
    Draws ofFinding 1 s (scrubWord found a s) := by
  cases hc : (readWord s a).cond with
  | good => rw [scrubWord_of_good a s found hc]; exact (refl s).mono (by decide)
  | uncorrectable => rw [scrubWord_of_uncorrectable a s found hc]; exact hf a s
  | correctable =>
    rw [scrubWord_of_correctable a s found hc]
    exact (of_spends (k := 0) (.of_eq rfl rfl) rfl).mono (by decide)

theorem scrubWords (found : Nat → State → State) (hf : ∀ a s, Draws ofFinding 1 s (found a s)) (as : List Nat) (s : State) :
    Draws ofFinding as.length s (as.foldl (fun s a => Machine.scrubWord found a s) s) := by
  induction as generalizing s with
  | nil => exact refl s
  | cons a as ih =>
    rw [List.length_cons, Nat.add_comm]
    exact (scrubWord found hf a s).trans (ih _)

theorem findInPass (a : Nat) (s : State) : Draws ofFinding 1 s (findInPass a s) := by
  unfold Machine.findInPass
  split
  · exact ((found _ _ _ s (countUncorrectable _ s) rfl rfl rfl).trans (markSuspect _ _ _)).trans (suspectPermit _ _)
  · exact (refl s).mono (by decide)

end Draws

end Sys2Proof.Machine
end

section
/-! PROOFS. A block with UNCORRECTABLE words (R34, R46, R62): its region, the repair list, and an event for each word. -/

namespace Sys2Proof.Machine

open Sys2Proof

/-! ### The words of a block, one after another -/

/-- The work on the words up to one of them, and after it. -/
theorem foldl_scrubWord_split {found : Nat → State → State} (h : Finds found) (as : List Nat) (nd : as.Nodup) (a : Nat)
    (ha : a ∈ as) (s : State) : ∃ pre post, as = pre ++ a :: post ∧
      as.foldl (fun s a => scrubWord found a s) s =
        post.foldl (fun s a => scrubWord found a s)
          (scrubWord found a (pre.foldl (fun s a => scrubWord found a s) s)) ∧
      readWord (pre.foldl (fun s a => scrubWord found a s) s) a = readWord s a := by
  obtain ⟨pre, post, rfl⟩ := List.append_of_mem ha
  obtain ⟨ndPre, -, apart⟩ := List.nodup_append.1 nd
  have fresh : a ∉ pre := fun hp => apart a hp a List.mem_cons_self rfl
  refine ⟨pre, post, rfl, by rw [List.foldl_append, List.foldl_cons], readWord_of_mem ?_⟩
  rw [foldl_scrubWord_mem h pre s ndPre, if_neg fun hc => fresh hc.1]

section
variable {found : Nat → State → State} (h : Finds found) (worse : ∀ a s, Worsens s (found a s))

include h worse in
/-- An UNCORRECTABLE word marks the region of its block, and what follows leaves it marked. -/
theorem marked_scrubBlock (st : RegionState → Prop) (hl : Lasts st) (i a b : Nat) (r : Region) (s : State)
    (hr : regionOf s b = some (i, r)) (hf : assocFind s.rgt.entries i = some r) (ha : a ∈ blockWords b)
    (hc : (readWord s a).cond = .uncorrectable)
    (marks : ∀ u q q', u.dev = s.dev → regionOf u (blockOf a) = some (i, q) → q.desc = r.desc →
      assocFind u.rgt.entries i = some q' → q'.desc = r.desc → Marked st i r.desc (found a u)) :
    Marked st i r.desc (scrubBlock found b s) := by
  obtain ⟨pre, post, -, split, reads⟩ := foldl_scrubWord_split h (blockWords b) (blockWords_nodup b) a ha s
  have before := Worsens.scrubWords found worse pre s
  obtain ⟨q', hq', hd', -⟩ := before.region i r hf
  obtain ⟨q, hq, hd⟩ := regionOf_congr before.table hr
  unfold scrubBlock
  rw [split, scrubWord_of_uncorrectable a _ found (by rw [reads, hc])]
  exact (marks _ q q' before.dev (by rw [(mem_blockWords b a).1 ha, hq]) hd hq' hd').worsens hl
    (Worsens.scrubWords found worse post _)

include h in
/-- An UNCORRECTABLE word has its event (R34, R62). -/
theorem event_scrubBlock (draws : ∀ a s, Draws Draws.ofFinding 1 s (found a s)) (b a : Nat) (body : EventBody) (s : State)
    (ha : a ∈ blockWords b) (hc : (readWord s a).cond = .uncorrectable) (room : s.cmu.events.length + 18 ≤ 64)
    (records : ∀ u, tableOf u = tableOf s → u.cmu.events.length < 64 → ∃ v ∈ (found a u).cmu.events, v.body = body) :
    ∃ v ∈ (scrubBlock found b s).cmu.events, v.body = body := by
  obtain ⟨pre, post, words, split, reads⟩ := foldl_scrubWord_split h (blockWords b) (blockWords_nodup b) a ha s
  have few : pre.length + (post.length + 1) = 16 := by
    have all := congrArg List.length words
    rw [List.length_append, List.length_cons] at all
    rw [← all]
    simp [blockWords, Config.blockWords]
  have before := (Draws.scrubWords found draws pre s).records.length_le
  obtain ⟨-, -, table⟩ := foldl_scrubWord_mpu h pre s
  obtain ⟨v, hv, hb⟩ := records (pre.foldl (fun s a => scrubWord found a s) s) table (by omega)
  refine ⟨v, ?_, hb⟩
  unfold scrubBlock
  rw [split, scrubWord_of_uncorrectable a _ found (by rw [reads, hc])]
  exact (Draws.scrubWords found draws post _).records.mem hv

end

/-! ### The two kinds of findings -/

section
variable {i b : Nat} {r : Region} {s : State}

theorem foundState_suspect (u : State) (hs : r.desc.signed = true) (hd : u.dev ≠ .configuring) :
    foundState u b r ≠ .normal := by
  unfold foundState
  rw [if_neg (by simp [hs, hd])]
  split <;> simp

/-- A reader that offers blocks marks the region of an UNCORRECTABLE word (R34, R98). -/
theorem marked_findings (ini : Option Initiator) (hd : s.dev ≠ .configuring) (hr : regionOf s b = some (i, r))
    (hf : assocFind s.rgt.entries i = some r) (hs : r.desc.signed = true)
    (bad : ∃ a ∈ blockWords b, (readWord s a).cond = .uncorrectable) :
    Marked (fun x => x ≠ .normal) i r.desc (scrubBlock (findUncorrectable ini) b s) := by
  obtain ⟨a, ha, hc⟩ := bad
  refine marked_scrubBlock (finds_findUncorrectable ini) (Worsens.findUncorrectable ini) _ lasts_suspect i a b r s hr hf ha hc
    fun u q q' dev hq hd' hf' hq' => ?_
  have signed : q'.desc.signed = true := by rw [hq']; exact hs
  have running : u.dev ≠ .configuring := by rw [dev]; exact hd
  obtain ⟨marked, -⟩ := findUncorrectable_marks ini running hq (hd'.trans hq'.symm) hf' signed
  rw [hq'] at marked
  refine marked.mono ?_
  rintro x rfl
  exact foundState_suspect u signed running

/-- A pass leaves the region of an UNCORRECTABLE word SUSPECT_UNLOCATED (R62, R63). -/
theorem marked_pass (hd : s.dev ≠ .configuring) (hr : regionOf s b = some (i, r))
    (hf : assocFind s.rgt.entries i = some r) (hs : r.desc.signed = true)
    (bad : ∃ a ∈ blockWords b, (readWord s a).cond = .uncorrectable) :
    Marked (fun x => x = .suspectUnlocated) i r.desc (scrubBlock findInPass b s) := by
  obtain ⟨a, ha, hc⟩ := bad
  refine marked_scrubBlock finds_findInPass Worsens.findInPass _ lasts_unlocated i a b r s hr hf ha hc
    fun u q q' dev hq hd' hf' hq' => ?_
  have marked := findInPass_marks (by rw [dev]; exact hd) hq hf' (by rw [hq']; exact hs)
  rwa [hq'] at marked

theorem exists_event_recordEvent (body : EventBody) (u : State) (room : u.cmu.events.length < 64) :
    ∃ v ∈ (recordEvent body u).cmu.events, v.body = body := by
  rw [(recordEvent_of_room body u room).1]
  exact ⟨_, List.mem_append_right _ (List.mem_singleton.2 rfl), rfl⟩

/-- The event of a finding (R34). -/
theorem event_findUncorrectable (ini : Option Initiator) (a : Nat) (q : Region) (u : State)
    (hr : regionOf u (blockOf a) = some (i, q)) (room : u.cmu.events.length < 64) :
    ∃ v ∈ (findUncorrectable ini a u).cmu.events, v.body = .uncorrectable (some i) (4 * a) ini := by
  obtain ⟨v, hv, hb⟩ := exists_event_recordEvent (.uncorrectable (some i) (byteAddr a) ini) (countUncorrectable i u) room
  rw [findUncorrectable_of_region ini hr]
  exact ⟨v, (Draws.damaged i q.desc.kind a _).records.mem hv, hb⟩

theorem event_findings (ini : Option Initiator) (hr : regionOf s b = some (i, r)) (room : s.cmu.events.length + 18 ≤ 64)
    (a : Nat) (ha : a ∈ blockWords b) (hc : (readWord s a).cond = .uncorrectable) :
    ∃ v ∈ (scrubBlock (findUncorrectable ini) b s).cmu.events, v.body = .uncorrectable (some i) (4 * a) ini := by
  refine event_scrubBlock (finds_findUncorrectable ini) (Draws.findUncorrectable ini) b a _ s ha hc room fun u table free => ?_
  obtain ⟨q, hq, -⟩ := regionOf_congr table hr
  exact event_findUncorrectable ini a q u (by rw [(mem_blockWords b a).1 ha, hq]) free

theorem event_pass (hr : regionOf s b = some (i, r)) (room : s.cmu.events.length + 18 ≤ 64)
    (a : Nat) (ha : a ∈ blockWords b) (hc : (readWord s a).cond = .uncorrectable) :
    ∃ v ∈ (scrubBlock findInPass b s).cmu.events, v.body = .uncorrectable (some i) (4 * a) none := by
  refine event_scrubBlock finds_findInPass Draws.findInPass b a _ s ha hc room fun u table free => ?_
  obtain ⟨q, hq, -⟩ := regionOf_congr table hr
  obtain ⟨v, hv, hb⟩ := exists_event_recordEvent (.uncorrectable (some i) (byteAddr a) none) (countUncorrectable i u) free
  unfold findInPass
  rw [(mem_blockWords b a).1 ha, hq]
  exact ⟨v, ((Draws.markSuspect i false _).trans (Draws.suspectPermit i _)).records.mem hv, hb⟩

/-! ### The repair list (R88) -/

/-- The repair list with the block of a region offered, where the region is VITAL (R88). -/
def given (r : Region) (b : Nat) (l : List Nat) : List Nat := if r.desc.kind = .vital then offered b l else l

theorem given_given (r : Region) (b : Nat) (l : List Nat) : given r b (given r b l) = given r b l := by
  unfold given
  split
  · exact offered_offered b l
  · rfl

variable (ini : Option Initiator) (hd : s.dev ≠ .configuring) (hr : regionOf s b = some (i, r))
  (hf : assocFind s.rgt.entries i = some r) (hs : r.desc.signed = true)
include hd hr hf hs

/-- An UNCORRECTABLE word, met in the block, offers it. -/
theorem repair_findUncorrectable (a : Nat) (u : State) (ha : blockOf a = b) (w : Worsens s u) :
    (findUncorrectable ini a u).cju.repair = given r b u.cju.repair := by
  obtain ⟨q', hf', hq', -⟩ := w.region i r hf
  obtain ⟨q, hq, hd'⟩ := regionOf_congr w.table hr
  obtain ⟨-, repair, -⟩ := findUncorrectable_marks ini (by rw [w.dev]; exact hd) (a := a) (by rw [ha, hq]) (hd'.trans hq'.symm) hf'
    (by rw [hq']; exact hs)
  rw [repair, hq', ha]
  rfl

theorem repair_scrubWord (a : Nat) (u : State) (ha : blockOf a = b) (w : Worsens s u) :
    (scrubWord (findUncorrectable ini) a u).cju.repair = u.cju.repair ∨
      (scrubWord (findUncorrectable ini) a u).cju.repair = given r b u.cju.repair := by
  cases hc : (readWord u a).cond with
  | good => exact .inl (by rw [scrubWord_of_good a u _ hc])
  | correctable => exact .inl (by rw [scrubWord_of_correctable a u _ hc])
  | uncorrectable =>
    rw [scrubWord_of_uncorrectable a u _ hc]
    exact .inr (repair_findUncorrectable ini hd hr hf hs a u ha w)

theorem repair_scrubWords (as : List Nat) (hb : ∀ a ∈ as, blockOf a = b) (u : State) (w : Worsens s u) :
    (as.foldl (fun s a => scrubWord (findUncorrectable ini) a s) u).cju.repair = u.cju.repair ∨
      (as.foldl (fun s a => scrubWord (findUncorrectable ini) a s) u).cju.repair = given r b u.cju.repair := by
  induction as generalizing u with
  | nil => exact .inl rfl
  | cons a as ih =>
    have first := repair_scrubWord ini hd hr hf hs a u (hb a List.mem_cons_self) w
    have rest := ih (fun x hx => hb x (List.mem_cons_of_mem a hx)) (scrubWord (findUncorrectable ini) a u)
      (w.trans (Worsens.scrubWord _ (Worsens.findUncorrectable ini) a u))
    rw [List.foldl_cons]
    rcases first with first | first
    · rwa [first] at rest
    · rw [first, given_given, or_self] at rest
      exact .inr rest

/-- The repair list after a block with UNCORRECTABLE words (R88). -/
theorem repair_findings (bad : ∃ a ∈ blockWords b, (readWord s a).cond = .uncorrectable) :
    (scrubBlock (findUncorrectable ini) b s).cju.repair = given r b s.cju.repair := by
  obtain ⟨a, ha, hc⟩ := bad
  obtain ⟨pre, post, words, split, reads⟩ :=
    foldl_scrubWord_split (finds_findUncorrectable ini) (blockWords b) (blockWords_nodup b) a ha s
  have inside : ∀ x ∈ pre ++ a :: post, blockOf x = b := fun x hx => (mem_blockWords b x).1 (words ▸ hx)
  have before := Worsens.scrubWords _ (Worsens.findUncorrectable ini) pre s
  have listed := repair_scrubWords ini hd hr hf hs pre (fun x hx => inside x (List.mem_append_left _ hx)) s (.refl s)
  have found := repair_findUncorrectable ini hd hr hf hs a _ ((mem_blockWords b a).1 ha) before
  have after := repair_scrubWords ini hd hr hf hs post
    (fun x hx => inside x (List.mem_append_right _ (List.mem_cons_of_mem a hx))) _
    (before.trans (Worsens.findUncorrectable ini a _))
  unfold scrubBlock
  rw [split, scrubWord_of_uncorrectable a _ _ (by rw [reads, hc])]
  have same : given r b (pre.foldl (fun s a => scrubWord (findUncorrectable ini) a s) s).cju.repair = given r b s.cju.repair := by
    rcases listed with listed | listed
    · rw [listed]
    · rw [listed, given_given]
  rw [found, same, given_given, or_self] at after
  exact after

end

end Sys2Proof.Machine
end

section
/-! PROOFS. The patrol's grant (R95 to R101). -/

namespace Sys2Proof.Machine

open Sys2Proof

/-! ### The parts of the grant -/

/-- The part whose patrol has entered a block (R99). -/
theorem enterRegion_eq (r : Region) (b : Nat) (s : State) :
    enterRegion r b s =
      { s with
        ptu := { s.ptu with
          comparable := if b = r.desc.first then r.desc.signed && r.state == .normal else s.ptu.comparable
          acc := if b = r.desc.first then 0 else s.ptu.acc
          turned := if b = r.desc.first then false else s.ptu.turned } } := by
  have normal : (!r.suspect) = (r.state == .normal) := by
    unfold Region.suspect
    cases r.state <;> rfl
  unfold enterRegion
  rw [normal]
  split <;> rfl

/-- The sum of a block's terms (R99). -/
def blockSum (d : Descriptor) (b : Nat) (s : State) : Nat :=
  ((blockWords b).map (fun a => wordTerm d (offsetIn d a) (readWord s a).value)).sum

theorem zip_readBlock (b : Nat) (s : State) :
    (blockWords b).zip (readBlock s b) = (blockWords b).map (fun a => (a, readWord s a)) := by
  have both := List.zip_map' (f := id) (g := readWord s) (l := blockWords b)
  rwa [List.map_id] at both

theorem accumulate_eq (d : Descriptor) (b : Nat) (s t : State) :
    accumulate d b (readBlock s b) t =
      { t with ptu.acc := if t.ptu.comparable then (t.ptu.acc + blockSum d b s) % Config.p else t.ptu.acc } := by
  unfold accumulate
  split
  · dsimp only
    rw [zip_readBlock, List.map_map]
    rfl
  · rfl

/-- The accumulator is compared, and differs (R101). -/
def faults (b : Nat) (r : Region) (s : State) : Prop :=
  b + 1 = r.desc.first + r.desc.count ∧ r.desc.signed = true ∧ s.ptu.comparable = true ∧ s.ptu.turned = false ∧
    r.suspect = false ∧ s.ptu.acc ≠ sigOf s r.desc.slot

theorem suspect_eq_false (r : Region) : r.suspect = false ↔ r.state = .normal := by
  unfold Region.suspect
  cases r.state <;> decide

section
variable {i b : Nat} {r : Region} {s : State}

theorem endOfRegion_of_faults (hf : assocFind s.rgt.entries i = some r) (h : faults b r s) :
    endOfRegion i b s =
      suspectPermit i
        (recordEvent (.signatureFault i (sigOf s r.desc.slot) s.ptu.acc) (markSuspect i false s)) := by
  unfold endOfRegion
  rw [hf]
  exact if_pos h

theorem endOfRegion_of_agrees (hf : assocFind s.rgt.entries i = some r) (h : ¬faults b r s) : endOfRegion i b s = s := by
  unfold endOfRegion
  rw [hf]
  exact if_neg h

end

theorem endOfRegion_cases {P : State → Prop} (i b : Nat) (s : State) (same : P s)
    (fault : ∀ body, P (suspectPermit i (recordEvent body (markSuspect i false s)))) : P (endOfRegion i b s) := by
  unfold endOfRegion
  split
  · split
    · exact fault _
    · exact same
  · exact same

theorem bare_endOfRegion (i b : Nat) (s : State) : bare (endOfRegion i b s).rgt.entries = bare s.rgt.entries := by
  refine endOfRegion_cases (P := fun t => bare t.rgt.entries = bare s.rgt.entries) i b s rfl fun body => ?_
  have same : ∀ u, (suspectPermit i u).rgt = u.rgt := by simp
  rw [same]
  exact bare_markSuspect i false s

theorem endOfRegion_ptu (i b : Nat) (s : State) :
    (endOfRegion i b s).ptu = { s.ptu with turned := (endOfRegion i b s).ptu.turned } := by
  have keeps := endOfRegion_keeps i b s
  generalize (endOfRegion i b s).ptu = p at keeps ⊢
  cases p
  simp_all

/-! ### The grant -/

/-- The part that has read the block, before the work at the end of a region. -/
def patrolRead (r : Region) (b : Nat) (s : State) : State :=
  accumulate r.desc b (readBlock s b) (scrubBlock (findUncorrectable none) b (enterRegion r b s))

/-- The part that the patrol's grant leaves. -/
def patrolDone (i b : Nat) (r : Region) (s : State) : State :=
  { endOfRegion i b (patrolRead r b s) with
    ptu := { (endOfRegion i b (patrolRead r b s)).ptu with position := nextPosition s b, request := false } }

theorem exec_patrolRead (p b i : Nat) (r : Region) (s : State) (hg : Claim.grants .patrol p s)
    (hp : s.ptu.position = some b) (hr : regionOf s b = some (i, r)) :
    exec .patrolRead s = .next (patrolDone i b r { s with mpu.pointer := p }) := by
  have region : regionOf { s with mpu.pointer := p } b = some (i, r) := hr
  have position : ({ s with mpu.pointer := p } : State).ptu.position = some b := hp
  refine congrArg Host.Outcome.next ((granted_of_grants .patrol patrolBlock p s hg).trans ?_)
  unfold patrolBlock
  rw [position]
  dsimp only
  rw [region]
  rfl

/-! ### The patrol's records -/

/-- The walk of the region is comparable (R99). -/
def comparableAt (r : Region) (b : Nat) (s : State) : Bool :=
  if b = r.desc.first then r.desc.signed && r.state == .normal else s.ptu.comparable

/-- The accumulator after the block (R99). -/
def walkSum (r : Region) (b : Nat) (s : State) : Nat :=
  if comparableAt r b s then ((if b = r.desc.first then 0 else s.ptu.acc) + blockSum r.desc b s) % Config.p
  else if b = r.desc.first then 0 else s.ptu.acc

/-- The region walked had become SUSPECT in its walk before the block (R101). -/
def turnedAt (r : Region) (b : Nat) (s : State) : Bool := if b = r.desc.first then false else s.ptu.turned

section
variable {i b : Nat} {r : Region} {s : State}

theorem enterRegion_ptu (r : Region) (b : Nat) (s : State) :
    (enterRegion r b s).ptu =
      { s.ptu with
        comparable := comparableAt r b s, acc := if b = r.desc.first then 0 else s.ptu.acc, turned := turnedAt r b s } := by
  rw [enterRegion_eq]
  rfl

theorem patrolRead_ptu (r : Region) (b : Nat) (s : State) :
    (patrolRead r b s).ptu =
      { s.ptu with
        comparable := comparableAt r b s
        acc := walkSum r b s
        turned := (scrubBlock (findUncorrectable none) b (enterRegion r b s)).ptu.turned } := by
  have read := congrArg State.ptu
    (scrubBlock_frame (findUncorrectable none) (unread_findUncorrectable none) b (enterRegion r b s))
  rw [enterRegion_ptu] at read
  rw [patrolRead, accumulate_eq]
  generalize scrubBlock (findUncorrectable none) b (enterRegion r b s) = t at read ⊢
  have comparable : t.ptu.comparable = comparableAt r b s := by rw [read]
  have acc : t.ptu.acc = if b = r.desc.first then 0 else s.ptu.acc := by rw [read]
  dsimp only
  rw [comparable, acc]
  generalize t.ptu = q at read ⊢
  rw [read]
  rfl

theorem patrolDone_ptu (i : Nat) (r : Region) (b : Nat) (s : State) :
    (patrolDone i b r s).ptu =
      { s.ptu with
        position := nextPosition s b, request := false, comparable := comparableAt r b s, acc := walkSum r b s
        turned := (patrolDone i b r s).ptu.turned } := by
  have ended := endOfRegion_ptu i b (patrolRead r b s)
  unfold patrolDone
  generalize (endOfRegion i b (patrolRead r b s)).ptu = q at ended ⊢
  rw [patrolRead_ptu] at ended
  rw [ended]

/-- What the work at the end of a region leaves of the grant. -/
theorem patrolDone_rest (i : Nat) (r : Region) (b : Nat) (s : State) :
    (patrolDone i b r s).mpu = (scrubBlock (findUncorrectable none) b (enterRegion r b s)).mpu ∧
      (patrolDone i b r s).sgu = s.sgu ∧
      (patrolDone i b r s).cju = (scrubBlock (findUncorrectable none) b (enterRegion r b s)).cju ∧
      (patrolDone i b r s).pwq = s.pwq ∧ (patrolDone i b r s).ppt = s.ppt ∧ (patrolDone i b r s).lkc = s.lkc ∧
      (patrolDone i b r s).dev = s.dev ∧
      bare (patrolDone i b r s).rgt.entries =
        bare (scrubBlock (findUncorrectable none) b (enterRegion r b s)).rgt.entries ∧
      (patrolDone i b r s).rgt.fingerprint = s.rgt.fingerprint := by
  have frame := scrubBlock_frame (findUncorrectable none) (unread_findUncorrectable none) b (enterRegion r b s)
  have entries := bare_endOfRegion i b (patrolRead r b s)
  obtain ⟨-, fingerprint, -⟩ := foldl_scrubWord_mpu (finds_findUncorrectable none) (blockWords b) (enterRegion r b s)
  unfold patrolDone
  unfold patrolRead at entries ⊢
  simp only [endOfRegion_keeps, accumulate_keeps] at entries ⊢
  refine ⟨trivial, ?_, trivial, ?_, ?_, ?_, ?_, entries, ?_⟩
  · rw [frame]; simp
  · rw [frame]; simp
  · rw [frame]; simp
  · rw [frame]; simp
  · rw [frame]; simp
  · exact fingerprint.trans (by simp)

theorem corrected_patrolDone (i : Nat) (r : Region) (b : Nat) (s : State) : Claim.corrected b s (patrolDone i b r s) := by
  obtain ⟨mpu, -⟩ := patrolDone_rest i r b s
  have read := corrected_scrubBlock (finds_findUncorrectable none) b (enterRegion r b s)
  have same : (enterRegion r b s).mpu = s.mpu := by simp
  unfold Claim.corrected readWord at read ⊢
  rw [mpu]
  rw [same] at read
  exact read

theorem counts_congr {s t : State} (hm : t.mpu = s.mpu) (hr : t.rgt = s.rgt) (b : Nat) : Claim.counts b t = Claim.counts b s := by
  unfold Claim.counts regionOf readWord
  rw [hm, hr]

theorem countsWords_patrolDone (i : Nat) (r : Region) (b : Nat) (s : State) :
    Claim.countsWords b s (patrolDone i b r s) := by
  obtain ⟨-, -, -, -, -, -, -, entries, fingerprint⟩ := patrolDone_rest i r b s
  obtain ⟨-, counted⟩ := countsWords_scrubBlock (finds_findUncorrectable none) b (enterRegion r b s)
  rw [counts_congr (s := s) (by simp) (by simp)] at counted
  exact ⟨fingerprint, entries.trans counted⟩

/-! ### Without an UNCORRECTABLE word -/

theorem patrolRead_quiet (r : Region) (b : Nat) (s : State) (good : ∀ a ∈ blockWords b, (readWord s a).cond ≠ .uncorrectable) :
    patrolRead r b s =
      { s with
        mpu.mem := (patrolRead r b s).mpu.mem
        rgt.entries := Claim.counts b s
        ptu := { s.ptu with comparable := comparableAt r b s, acc := walkSum r b s, turned := turnedAt r b s } } := by
  have mpu : (enterRegion r b s).mpu = s.mpu := by simp
  have rgt : (enterRegion r b s).rgt = s.rgt := by simp
  have reads : ∀ a, readWord (enterRegion r b s) a = readWord s a := fun a => readWord_of_mem (by rw [mpu])
  have quiet := scrubBlock_quiet (findUncorrectable none) b (enterRegion r b s) fun a ha => by rw [reads]; exact good a ha
  have ptu := patrolRead_ptu r b s
  rw [counts_congr mpu rgt] at quiet
  have turned : (scrubBlock (findUncorrectable none) b (enterRegion r b s)).ptu.turned = turnedAt r b s := by
    rw [quiet, enterRegion_ptu]
  rw [turned] at ptu
  unfold patrolRead at ptu ⊢
  rw [accumulate_eq] at ptu ⊢
  rw [quiet, enterRegion_eq] at ptu ⊢
  generalize (scrubBlock (findUncorrectable none) b _).mpu.mem = m at ptu ⊢
  rw [← ptu]

theorem assocFind_counts (hr : regionOf s b = some (i, r)) (hf : assocFind s.rgt.entries i = some r)
    (good : ∀ a ∈ blockWords b, (readWord s a).cond ≠ .uncorrectable) :
    ∃ n, assocFind (Claim.counts b s) i = some { r with corrected := n } := by
  refine ⟨Claim.counted ((blockWords b).countP (fun a => (readWord s a).cond == .correctable)) r.corrected, ?_⟩
  rw [counts_eq, countP_eq_zero_of_good _ s good, bumpAt_of_region hr, assocFind_modify, if_pos rfl, hf]
  simp [bump, counted_zero]

/-- The accumulator is compared after the block, and differs (R101). -/
def walkFaults (b : Nat) (r : Region) (s : State) : Prop :=
  b + 1 = r.desc.first + r.desc.count ∧ r.desc.signed = true ∧ comparableAt r b s = true ∧ turnedAt r b s = false ∧
    r.state = .normal ∧ walkSum r b s ≠ sigOf s r.desc.slot

/-- The patrol's grant over a block without an UNCORRECTABLE word (R97, R99, R101). -/
theorem patrolDone_quiet (hr : regionOf s b = some (i, r)) (hf : assocFind s.rgt.entries i = some r)
    (good : ∀ a ∈ blockWords b, (readWord s a).cond ≠ .uncorrectable) :
    (patrolDone i b r s).cju = s.cju ∧
      (¬walkFaults b r s →
        (patrolDone i b r s).ptu.turned = turnedAt r b s ∧ (patrolDone i b r s).vtu = s.vtu ∧
        (patrolDone i b r s).cmu = s.cmu ∧ (patrolDone i b r s).rgt.entries = Claim.counts b s ∧
        ∃ n, assocFind (patrolDone i b r s).rgt.entries i = some { r with corrected := n }) ∧
      (walkFaults b r s → s.dev = .running →
        (patrolDone i b r s).vtu.permitted = false ∧
        (∃ n, assocFind (patrolDone i b r s).rgt.entries i =
          some { r with corrected := n, state := .suspectUnlocated }) ∧
        (s.cmu.events.length < 64 → ∃ v ∈ (patrolDone i b r s).cmu.events,
          v.body = .signatureFault i (sigOf s r.desc.slot) (walkSum r b s))) := by
  have quiet := patrolRead_quiet r b s good
  obtain ⟨n, counted⟩ := assocFind_counts hr hf good
  have found : assocFind (patrolRead r b s).rgt.entries i = some { r with corrected := n } := by rw [quiet]; exact counted
  have same : faults b { r with corrected := n } (patrolRead r b s) ↔ walkFaults b r s := by
    rw [quiet]
    have suspect : ({ r with corrected := n } : Region).suspect = false ↔ r.state = .normal := suspect_eq_false _
    unfold faults walkFaults
    rw [suspect]
    exact Iff.rfl
  refine ⟨?_, fun h => ?_, fun h hd => ?_⟩
  · have read : (patrolRead r b s).cju = s.cju := by rw [quiet]
    simp only [patrolDone, endOfRegion_keeps, read]
  · have ended := endOfRegion_of_agrees found (mt same.1 h)
    unfold patrolDone
    rw [ended, quiet]
    exact ⟨rfl, rfl, rfl, rfl, n, counted⟩
  · have ended := endOfRegion_of_faults found (same.2 h)
    obtain ⟨-, signed, -⟩ := h
    have running : (patrolRead r b s).dev ≠ .configuring := by rw [quiet]; simp [hd]
    have body : EventBody.signatureFault i (sigOf (patrolRead r b s) r.desc.slot) (patrolRead r b s).ptu.acc =
        .signatureFault i (sigOf s r.desc.slot) (walkSum r b s) := by rw [quiet]; rfl
    rw [body] at ended
    obtain ⟨⟨r', hr', hd', hs'⟩, permitted, -⟩ := marked_of_suspect i false (patrolRead r b s)
      (recordEvent (.signatureFault i (sigOf s r.desc.slot) (walkSum r b s)) (markSuspect i false (patrolRead r b s))) _
      running found signed rfl rfl
    have marked := markSuspect_of_signed i false (patrolRead r b s) _ running found signed
    have rgt : ∀ u, (suspectPermit i u).rgt = u.rgt := by simp
    unfold patrolDone
    rw [ended]
    refine ⟨permitted, ⟨n, ?_⟩, fun room => ?_⟩
    · rw [rgt]
      refine marked.trans ?_
      rw [calledState_false]
    · have free : (markSuspect i false (patrolRead r b s)).cmu.events.length < 64 := by
        have kept : ∀ u, (markSuspect i false u).cmu = u.cmu := by simp
        rw [kept, quiet]
        exact room
      obtain ⟨v, hv, hb⟩ := exists_event_recordEvent _ _ free
      exact ⟨v, (Draws.suspectPermit i _).records.mem hv, hb⟩

/-! ### With an UNCORRECTABLE word -/

/-- The patrol's grant over a block of a signed region with an UNCORRECTABLE word (R88, R98, R101). -/
theorem patrolDone_damaged (hp : s.ptu.position = some b) (hr : regionOf s b = some (i, r))
    (hf : assocFind s.rgt.entries i = some r)
    (bad : ∃ a ∈ blockWords b, (readWord s a).cond = .uncorrectable) (hs : r.desc.signed = true)
    (hd : s.dev ≠ .configuring) :
    (patrolDone i b r s).ptu.turned = true ∧ (patrolDone i b r s).vtu.permitted = false ∧
      (∃ r', assocFind (patrolDone i b r s).rgt.entries i = some r' ∧ r'.desc = r.desc ∧ r'.state ≠ .normal) ∧
      (∀ v ∈ (patrolDone i b r s).cmu.events, v ∈ s.cmu.events ∨ ∀ k x y, v.body ≠ .signatureFault k x y) ∧
      (s.cmu.events.length < 46 → ∀ a ∈ blockWords b, (readWord s a).cond = .uncorrectable →
        ∃ v ∈ (patrolDone i b r s).cmu.events, v.body = .uncorrectable (some i) (4 * a) none) ∧
      (patrolDone i b r s).cju.repair = given r b s.cju.repair := by
  have mpu : (enterRegion r b s).mpu = s.mpu := by simp
  have rgt : (enterRegion r b s).rgt = s.rgt := by simp
  have dev : (enterRegion r b s).dev = s.dev := by simp
  have events : (enterRegion r b s).cmu = s.cmu := by simp
  have cju : (enterRegion r b s).cju = s.cju := by simp
  have position : (enterRegion r b s).ptu.position = some b := by simp [hp]
  have reads : ∀ a, readWord (enterRegion r b s) a = readWord s a := fun a => readWord_of_mem (by rw [mpu])
  have region : regionOf (enterRegion r b s) b = some (i, r) := by
    unfold regionOf
    rw [rgt]
    exact hr
  have entry : assocFind (enterRegion r b s).rgt.entries i = some r := by rw [rgt, hf]
  have bad' : ∃ a ∈ blockWords b, (readWord (enterRegion r b s) a).cond = .uncorrectable := by
    simpa only [reads] using bad
  have running : (enterRegion r b s).dev ≠ .configuring := by rw [dev]; exact hd
  have marked := marked_findings none running region entry hs bad'
  have repair := repair_findings none running region entry hs bad'
  have event := event_findings none region
  have draws := (Draws.scrubWords _ (Draws.findUncorrectable none) (blockWords b) (enterRegion r b s)).records
  rw [events] at event
  have worse := Worsens.scrubWords _ (Worsens.findUncorrectable none) (blockWords b) (enterRegion r b s)
  have walked : walkedNow (scrubBlock (findUncorrectable none) b (enterRegion r b s)) i = true := by
    have before : walkedNow (enterRegion r b s) i = true := by
      unfold walkedNow
      rw [position]
      dsimp only
      rw [region]
      simp
    exact (walkedNow_congr worse.table worse.position i).trans before
  obtain ⟨⟨r', hr', hdesc, hstate⟩, permitted, turned⟩ := marked
  have kept : patrolRead r b s = { scrubBlock (findUncorrectable none) b (enterRegion r b s) with
      ptu := (patrolRead r b s).ptu } := by
    rw [patrolRead, accumulate_eq]
  have turned' : (patrolRead r b s).ptu.turned = true := by
    rw [patrolRead_ptu]
    exact turned walked
  have ended : endOfRegion i b (patrolRead r b s) = patrolRead r b s := by
    refine endOfRegion_of_agrees (r := r') (by rw [kept]; exact hr') ?_
    rintro ⟨-, -, -, off, -⟩
    rw [turned'] at off
    cases off
  have done : (patrolDone i b r s).ptu.turned = true ∧
      (patrolDone i b r s).vtu = (scrubBlock (findUncorrectable none) b (enterRegion r b s)).vtu ∧
      (patrolDone i b r s).rgt = (scrubBlock (findUncorrectable none) b (enterRegion r b s)).rgt ∧
      (patrolDone i b r s).cmu = (scrubBlock (findUncorrectable none) b (enterRegion r b s)).cmu ∧
      (patrolDone i b r s).cju = (scrubBlock (findUncorrectable none) b (enterRegion r b s)).cju := by
    unfold patrolDone
    rw [ended, turned', kept]
    exact ⟨rfl, rfl, rfl, rfl, rfl⟩
  obtain ⟨turnedDone, vtu, table, cmu, journal⟩ := done
  rw [vtu, table, cmu, journal]
  refine ⟨turnedDone, permitted, ⟨r', hr', hdesc, hstate⟩, fun v hv => ?_, fun room a ha hc => ?_, ?_⟩
  · refine (draws.fresh hv).imp (fun h => by rwa [events] at h) fun kind k x y hb => ?_
    rcases kind with ⟨_, _, _, h⟩ | ⟨_, _, h⟩ | ⟨_, h⟩
    · rw [h] at hb; cases hb
    · rw [h] at hb; cases hb
    · rw [h] at hb; cases hb
  · exact event (by omega) a ha (by rw [reads]; exact hc)
  · rw [repair, cju]

end

theorem given_eq (r : Region) (b : Nat) (l : List Nat) :
    given r b l = if r.desc.kind = .vital ∧ b ∉ l ∧ l.length < 32 then l ++ [b] else l := by
  unfold given offered
  by_cases hv : r.desc.kind = .vital
  · simp [hv]
  · simp [hv]

/-- Settles O36: the array and the counts, the walk's records, and the two cases of the block. -/
theorem patrolReadsItsBlock : Obligations.PatrolReadsItsBlock := by
  unfold Obligations.PatrolReadsItsBlock
  intro p b i r s hg hp hr hf
  have run := exec_patrolRead p b i r s hg hp hr
  have corrected := corrected_patrolDone i r b { s with mpu.pointer := p }
  have counted := countsWords_patrolDone i r b { s with mpu.pointer := p }
  have ptu := patrolDone_ptu i r b { s with mpu.pointer := p }
  obtain ⟨mpu, sgu, cju, pwq, ppt, lkc, dev, -⟩ := patrolDone_rest i r b { s with mpu.pointer := p }
  have array := scrubBlock_mpu (finds_findUncorrectable none) b (enterRegion r b { s with mpu.pointer := p })
  have journal := congrArg State.cju
    (scrubBlock_frame (findUncorrectable none) (unread_findUncorrectable none) b (enterRegion r b { s with mpu.pointer := p }))
  have quiet := patrolDone_quiet (s := { s with mpu.pointer := p }) hr hf
  have damaged := patrolDone_damaged (s := { s with mpu.pointer := p }) hp hr hf
  rw [← mpu, enterRegion_eq] at array
  rw [← cju, enterRegion_eq] at journal
  generalize patrolDone i b r { s with mpu.pointer := p } = t at *
  refine ⟨t, run, corrected, counted, array, sgu, journal, pwq, ppt, lkc, dev, ptu, quiet, fun bad hs hd => ?_⟩
  obtain ⟨turned, permitted, region, events, found, repair⟩ := damaged bad hs hd
  refine ⟨turned, permitted, region, events, found, repair.trans ?_⟩
  exact given_eq r b _

end Sys2Proof.Machine
end

section
/-! PROOFS. The capture (R80 to R83), and the abandon that a finding of it causes (R76, R77). -/

namespace Sys2Proof.Machine

open Sys2Proof

/-! ### Findings that abandon the cycle -/

theorem captureDue_of_grants {p : Nat} {s : State} {e : PwqEntry} {rest : List PwqEntry} (hg : Claim.grants .capture p s)
    (he : s.pwq.entries = e :: rest) : Claim.captureDue s e := by
  obtain ⟨-, hn⟩ := hg
  obtain ⟨c, hc⟩ := classRequest_of_nextGrant hn
  have asked := (classRequest_iff s c .capture).1 hc
  cases c with
  | proc => simp [Claim.requested] at asked
  | journal =>
    rcases asked with ⟨-, e', rest', h', due⟩ | ⟨h, -⟩
    · rw [he] at h'
      cases h'
      exact due
    · cases h
  | patrol => simp [Claim.requested] at asked
  | link => simp [Claim.requested] at asked
  | setup =>
    rcases asked with ⟨h, -⟩ | ⟨-, -, h⟩
    · cases h
    · split at h <;> cases h

theorem signed_of_vital (d : Descriptor) (h : d.kind = .vital) : d.signed = true := by
  unfold Descriptor.signed
  rw [h]
  rfl

/-- A finding in a signed region, while the device is RUNNING, is an abandon (R76). -/
theorem abandonFor_of_signed (a i : Nat) (r : Region) (s : State) (hr : regionOf s (blockOf a) = some (i, r))
    (hs : r.desc.signed = true) (hd : s.dev = .running) : abandonFor a s = abandon (.uncorrectable i (4 * a)) s := by
  unfold abandonFor
  rw [hr]
  exact if_pos ⟨hs, hd⟩

/-- With a journal to put back, or a cycle that cannot be rolled back, an abandon checks no region. -/
theorem abandon_rgt (c : AbandonCause) (s : State) (h : s.cju.unrevertible = true ∨ s.cju.journal ≠ []) :
    (abandon c s).rgt = s.rgt := by
  cases ho : cycleOpen s with
  | false =>
    have same : abandon c s = s := if_neg (by simp [ho])
    rw [same]
  | true =>
    cases hu : s.cju.unrevertible with
    | true =>
      obtain ⟨-, rgt⟩ := handOver_own (unrevertibleFrame (abandoning c s)) (abandoning c s) rfl
      rw [abandon_of_unrevertible c s ho hu, rgt, abandoning_frame]
    | false =>
      rw [abandon_of_journal c s ho hu (h.resolve_left (by simp [hu])), undoing_frame]

/-! ### The capture -/

/-- The part with the pre-image of a block in its journal (R80, R81). -/
def captured (ini : Initiator) (b : Nat) (s : State) : State :=
  forgetTried
    { scrubBlock (findUncorrectable (some ini)) b s with
      cju := { (scrubBlock (findUncorrectable (some ini)) b s).cju with
        journal := (scrubBlock (findUncorrectable (some ini)) b s).cju.journal ++ [preImage s b]
        wCur := setInsert (scrubBlock (findUncorrectable (some ini)) b s).cju.wCur b } }

theorem forgetTried_eq (s : State) :
    forgetTried s = { s with rse.service.tried := if s.rse.service.waiting then s.rse.service.tried else [] } := by
  unfold forgetTried
  split <;> rfl

theorem captured_frame (ini : Initiator) (b : Nat) (s : State) :
    captured ini b s =
      { s with
        rgt.entries := (scrubBlock (findUncorrectable (some ini)) b s).rgt.entries
        mpu.mem := (scrubBlock (findUncorrectable (some ini)) b s).mpu.mem
        cju := { s.cju with
          journal := s.cju.journal ++ [preImage s b]
          wCur := setInsert s.cju.wCur b
          repair := (scrubBlock (findUncorrectable (some ini)) b s).cju.repair
          repairOverflow := (scrubBlock (findUncorrectable (some ini)) b s).cju.repairOverflow }
        ptu.turned := (scrubBlock (findUncorrectable (some ini)) b s).ptu.turned
        vtu := { s.vtu with
          permitted := (scrubBlock (findUncorrectable (some ini)) b s).vtu.permitted
          level := (scrubBlock (findUncorrectable (some ini)) b s).vtu.level }
        rse := { s.rse with
          pull.clean := (scrubBlock (findUncorrectable (some ini)) b s).rse.pull.clean
          service.tried := if s.rse.service.waiting then s.rse.service.tried else [] }
        cmu := s.cmu.withEvents (scrubBlock (findUncorrectable (some ini)) b s).cmu } := by
  have frame := scrubBlock_frame (findUncorrectable (some ini)) (unread_findUncorrectable (some ini)) b s
  unfold captured
  rw [forgetTried_eq]
  generalize scrubBlock (findUncorrectable (some ini)) b s = t at frame ⊢
  rw [frame]
  rfl

/-- What the capture's grant leaves before the end of its step. -/
def captureEnd (e : PwqEntry) (s : State) : State :=
  match firstBad s (blockOf e.word) with
  | some a => abandonFor a (captured e.ini (blockOf e.word) s)
  | none => captured e.ini (blockOf e.word) s

theorem exec_capture (p : Nat) (e : PwqEntry) (rest : List PwqEntry) (s : State) (hg : Claim.grants .capture p s)
    (he : s.pwq.entries = e :: rest) : exec .capture s = .next (settle (captureEnd e { s with mpu.pointer := p })) := by
  have entries : ({ s with mpu.pointer := p } : State).pwq.entries = e :: rest := he
  refine congrArg Host.Outcome.next ((granted_of_grants .capture captureHead p s hg).trans ?_)
  unfold captureHead captureEnd
  rw [entries]
  dsimp only
  cases firstBad { s with mpu.pointer := p } (blockOf e.word) <;> rfl

section
variable {e : PwqEntry} {s : State}

theorem captureEnd_of_good (good : ∀ a ∈ blockWords (blockOf e.word), (readWord s a).cond ≠ .uncorrectable) :
    captureEnd e s = captured e.ini (blockOf e.word) s := by
  have none : firstBad s (blockOf e.word) = none := List.find?_eq_none.2 fun a ha => by simpa using good a ha
  unfold captureEnd
  rw [none]

/-- The region of a block to be captured is VITAL (R80). -/
theorem region_of_captureDue (due : Claim.captureDue s e) :
    ∃ i r, regionOf s (blockOf e.word) = some (i, r) ∧ r.desc.kind = .vital := by
  obtain ⟨-, -, vital, -⟩ := due
  unfold vitalBlock at vital
  cases hr : regionOf s (blockOf e.word) with
  | none => rw [hr] at vital; exact absurd vital Bool.false_ne_true
  | some d =>
    rw [hr] at vital
    exact ⟨d.1, d.2, rfl, by simpa using vital⟩

theorem captured_table (ini : Initiator) (b : Nat) (s : State) : tableOf (captured ini b s) = tableOf s := by
  rw [captured_frame]
  exact scrubBlock_table (finds_findUncorrectable (some ini)) b s

/-- The abandon that the first UNCORRECTABLE word causes (R76, R80). -/
theorem captureEnd_of_bad (due : Claim.captureDue s e) {a i : Nat} {r : Region} (ha : firstBad s (blockOf e.word) = some a)
    (hr : regionOf s (blockOf e.word) = some (i, r)) :
    captureEnd e s = abandon (.uncorrectable i (4 * a)) (captured e.ini (blockOf e.word) s) := by
  obtain ⟨j, q, hq, vital⟩ := region_of_captureDue due
  rw [hr] at hq
  obtain ⟨rfl, rfl⟩ := Prod.mk.inj (Option.some.inj hq)
  obtain ⟨running, -⟩ := due
  have block : blockOf a = blockOf e.word := (mem_blockWords _ _).1 (List.mem_of_find?_eq_some ha)
  obtain ⟨r', hr', hd⟩ := regionOf_congr (captured_table e.ini (blockOf e.word) s) hr
  unfold captureEnd
  rw [ha]
  refine abandonFor_of_signed a i r' _ (by rw [block, hr']) ?_ (by rw [captured_frame]; exact running)
  rw [hd]
  exact signed_of_vital _ vital

/-- In a capture that finds an UNCORRECTABLE word one is the first. -/
theorem exists_firstBad {b : Nat} (bad : ∃ a ∈ blockWords b, (readWord s a).cond = .uncorrectable) :
    ∃ a, firstBad s b = some a := by
  obtain ⟨a, ha, hc⟩ := bad
  exact Option.isSome_iff_exists.1 (List.find?_isSome.2 ⟨a, ha, by simp [hc]⟩)

/-- The array, the accounts and the table after the grant (R46, R80). -/
theorem captureEnd_rest (due : Claim.captureDue s e) :
    (captureEnd e s).mpu = (captured e.ini (blockOf e.word) s).mpu ∧ (captureEnd e s).sgu = s.sgu ∧
      (captureEnd e s).ptu = { s.ptu with turned := (captureEnd e s).ptu.turned } ∧
      (captureEnd e s).rgt = (captured e.ini (blockOf e.word) s).rgt := by
  have frame := captured_frame e.ini (blockOf e.word) s
  have sgu : (captured e.ini (blockOf e.word) s).sgu = s.sgu := by rw [frame]
  have ptu : (captured e.ini (blockOf e.word) s).ptu =
      { s.ptu with turned := (captured e.ini (blockOf e.word) s).ptu.turned } := by rw [frame]
  cases ha : firstBad s (blockOf e.word) with
  | none =>
    have same : captureEnd e s = captured e.ini (blockOf e.word) s := by
      unfold captureEnd
      rw [ha]
    rw [same]
    exact ⟨rfl, sgu, ptu, rfl⟩
  | some a =>
    obtain ⟨i, r, hr, -⟩ := region_of_captureDue due
    rw [captureEnd_of_bad due ha hr]
    have turned := abandon_ptu (.uncorrectable i (4 * a)) (captured e.ini (blockOf e.word) s)
    have journal : (captured e.ini (blockOf e.word) s).cju.journal ≠ [] := by rw [frame]; simp
    refine ⟨by simp, by simp [sgu], ?_, abandon_rgt _ _ (.inr journal)⟩
    rw [ptu] at turned
    exact turned

/-- The part before the capture, its entry and its mark already made. -/
def entered (w : List Nat) (b : Nat) (s : State) : State :=
  { s with
    cju := { s.cju with journal := s.cju.journal ++ [preImage s b], wCur := if s.cju.unrevertible then s.cju.wCur else w }
    rse.service.tried := if s.rse.service.waiting then s.rse.service.tried else [] }

/-- From the capture's entry on there are findings only. -/
theorem follows_captured (w : List Nat) (ini : Initiator) (b : Nat) (s : State)
    (hw : s.cju.unrevertible = false → w = setInsert s.cju.wCur b) : Follows 18 (entered w b s) (captured ini b s) := by
  have worse := Worsens.scrubWords _ (Worsens.findUncorrectable (some ini)) (blockWords b) s
  obtain ⟨vtu, level⟩ := worse.vtu_rest
  have draws := (Draws.scrubWords _ (Draws.findUncorrectable (some ini)) (blockWords b) s).records.length_le
  have frame := captured_frame ini b s
  have few : (blockWords b).length = 16 := by simp [blockWords, Config.blockWords]
  refine ⟨?_, fun hp => ?_, ?_, fun hu => ?_, ?_, ?_, ?_, ?_, ?_, ?_, captured_table ini b s, ?_⟩
  · rw [frame]
    rfl
  · rw [frame]
    exact (congrArg (fun v : Vtu => v.dropped.level) vtu).symm.trans (level hp)
  · rw [frame]
    rfl
  · have off : s.cju.unrevertible = false := hu
    rw [frame, entered, off, hw off]
    rfl
  · rw [frame]; rfl
  · rw [frame]; rfl
  · rw [frame]; rfl
  · rw [frame]; rfl
  · rw [frame]; rfl
  · rw [frame]; rfl
  · rw [frame]
    rw [few] at draws
    exact draws

/-- The capture's step (R46, R80). -/
theorem capture_rest (p : Nat) (due : Claim.captureDue { s with mpu.pointer := p } e) :
    Claim.corrected (blockOf e.word) s (settle (captureEnd e { s with mpu.pointer := p })) ∧
      Claim.countsWords (blockOf e.word) s (settle (captureEnd e { s with mpu.pointer := p })) ∧
      (settle (captureEnd e { s with mpu.pointer := p })).sgu = s.sgu ∧
      (settle (captureEnd e { s with mpu.pointer := p })).ptu =
        { s.ptu with turned := (settle (captureEnd e { s with mpu.pointer := p })).ptu.turned } := by
  obtain ⟨mpu, sgu, ptu, rgt⟩ := captureEnd_rest due
  have frame := captured_frame e.ini (blockOf e.word) { s with mpu.pointer := p }
  have corrected := corrected_scrubBlock (finds_findUncorrectable (some e.ini)) (blockOf e.word) { s with mpu.pointer := p }
  obtain ⟨fingerprint, counts⟩ :=
    countsWords_scrubBlock (finds_findUncorrectable (some e.ini)) (blockOf e.word) { s with mpu.pointer := p }
  refine ⟨fun a ha => ?_, ⟨?_, ?_⟩, ?_, ?_⟩
  · simp only [settle_keeps]
    rw [mpu, frame]
    exact corrected a ha
  · simp only [settle_keeps]
    rw [rgt, frame]
  · simp only [settle_keeps]
    rw [rgt, frame]
    exact counts
  · simp only [settle_keeps]
    exact sgu
  · simp only [settle_keeps]
    exact ptu

/-- A capture without an UNCORRECTABLE word (R80, R81). -/
theorem capture_quiet (p : Nat)
    (good : ∀ a ∈ blockWords (blockOf e.word), (readWord s a).cond ≠ .uncorrectable) :
    (settle (captureEnd e { s with mpu.pointer := p })).cju.journal = s.cju.journal ++ [preImage s (blockOf e.word)] ∧
      (∀ k, k ∈ (settle (captureEnd e { s with mpu.pointer := p })).cju.wCur ↔ k = blockOf e.word ∨ k ∈ s.cju.wCur) ∧
      EndOfStep
        { s with
          rgt.entries := Claim.counts (blockOf e.word) s
          mpu := { s.mpu with mem := (settle (captureEnd e { s with mpu.pointer := p })).mpu.mem, pointer := p }
          cju := { s.cju with
            journal := (settle (captureEnd e { s with mpu.pointer := p })).cju.journal
            wCur := (settle (captureEnd e { s with mpu.pointer := p })).cju.wCur }
          rse.service.tried := if s.rse.service.waiting then s.rse.service.tried else [] }
        (settle (captureEnd e { s with mpu.pointer := p })) := by
  have scrubbed := scrubBlock_quiet (findUncorrectable (some e.ini)) (blockOf e.word) { s with mpu.pointer := p } good
  have done : captureEnd e { s with mpu.pointer := p } =
      { s with
        rgt.entries := Claim.counts (blockOf e.word) s
        mpu := { s.mpu with
          mem := (scrubBlock (findUncorrectable (some e.ini)) (blockOf e.word) { s with mpu.pointer := p }).mpu.mem
          pointer := p }
        cju := { s.cju with
          journal := s.cju.journal ++ [preImage s (blockOf e.word)]
          wCur := setInsert s.cju.wCur (blockOf e.word) }
        rse.service.tried := if s.rse.service.waiting then s.rse.service.tried else [] } := by
    rw [captureEnd_of_good (s := { s with mpu.pointer := p }) good, captured, forgetTried_eq]
    generalize scrubBlock (findUncorrectable (some e.ini)) (blockOf e.word) { s with mpu.pointer := p } = u at scrubbed ⊢
    rw [scrubbed]
    rfl
  have ended := settle_end (captureEnd e { s with mpu.pointer := p })
  have kept : (settle (captureEnd e { s with mpu.pointer := p })).cju = (captureEnd e { s with mpu.pointer := p }).cju :=
    settle_cju _
  have array : (settle (captureEnd e { s with mpu.pointer := p })).mpu = (captureEnd e { s with mpu.pointer := p }).mpu := by
    simp
  generalize settle (captureEnd e { s with mpu.pointer := p }) = t at ended kept array ⊢
  rw [done] at ended kept array
  rw [kept, array]
  exact ⟨rfl, fun k => mem_setInsert _ _ _, ended⟩

/-- A capture with an UNCORRECTABLE word in an OPEN or CLOSING cycle (R76, R77, R80). -/
theorem capture_bad (due : Claim.captureDue s e) (hr : s.resetLow = false) (ho : cycleOpen s = true) {a i : Nat} {r : Region}
    (ha : firstBad s (blockOf e.word) = some a) (hi : regionOf s (blockOf e.word) = some (i, r)) :
    (s.cju.unrevertible = false → (settle (captureEnd e s)).cju.wCur = setInsert s.cju.wCur (blockOf e.word)) ∧
      Claim.abandoned 20 (.uncorrectable i (4 * a)) (entered (settle (captureEnd e s)).cju.wCur (blockOf e.word) s)
        (settle (captureEnd e s)) := by
  have frame := captured_frame e.ini (blockOf e.word) s
  have opened : cycleOpen (captured e.ini (blockOf e.word) s) = true := by rw [frame]; exact ho
  have journal : (captured e.ini (blockOf e.word) s).cju.journal ≠ [] := by rw [frame]; simp
  have marks : s.cju.unrevertible = false →
      (settle (captureEnd e s)).cju.wCur = setInsert s.cju.wCur (blockOf e.word) := fun hu => by
    have kept : (captured e.ini (blockOf e.word) s).cju.unrevertible = false := by rw [frame]; exact hu
    simp only [settle_keeps]
    rw [captureEnd_of_bad due ha hi, abandon_of_journal _ _ opened kept journal, undoing_frame, frame]
  refine ⟨marks, ?_⟩
  have follows := follows_captured (settle (captureEnd e s)).cju.wCur e.ini (blockOf e.word) s marks
  generalize (settle (captureEnd e s)).cju.wCur = w at follows ⊢
  rw [captureEnd_of_bad due ha hi]
  exact follows.abandoned (by decide) _ _ (by rw [frame]; exact hr) opened rfl rfl

end

/-- Settles O34: the array and the counts, the quiet capture, and the abandon of one that finds an UNCORRECTABLE word. -/
theorem captureKeepsThePreImage : Obligations.CaptureKeepsThePreImage := by
  unfold Obligations.CaptureKeepsThePreImage
  intro p e rest s hg he
  have asked := captureDue_of_grants hg he
  have due : Claim.captureDue { s with mpu.pointer := p } e := asked
  have hr : s.resetLow = false := hg.1
  have run := exec_capture p e rest s hg he
  obtain ⟨corrected, counts, sgu, ptu⟩ := capture_rest (s := s) (e := e) p due
  have quiet := capture_quiet (s := s) (e := e) p
  have bad := @capture_bad e { s with mpu.pointer := p } due hr
  have inRegion := region_of_captureDue due
  generalize settle (captureEnd e { s with mpu.pointer := p }) = t at *
  refine ⟨t, run, corrected, counts, sgu, ptu, fun good => ?_, fun found hu ho => ?_, fun a i r ha ho hi => ?_⟩
  · exact quiet fun a ha => good _ (List.mem_map_of_mem ha)
  · obtain ⟨c, hc, unc⟩ := found
    obtain ⟨x, hx, rfl⟩ := List.mem_map.1 hc
    obtain ⟨a, ha⟩ := exists_firstBad (s := s) ⟨x, hx, unc⟩
    obtain ⟨i, r, hi, -⟩ := inRegion
    obtain ⟨-, permitted, -, -, -, -, rolls, -⟩ := bad ho ha hi
    obtain ⟨chan, journal, -⟩ := rolls hu (by simp [entered])
    exact ⟨chan, journal, permitted⟩
  · obtain ⟨marks, abandoned⟩ := bad ho ha hi
    exact ⟨fun hu k => by rw [marks hu]; exact mem_setInsert _ _ _, abandoned⟩

end Sys2Proof.Machine
end

section
/-! PROOFS. The grant to a processor read (R32 to R34). -/

namespace Sys2Proof.Machine

open Sys2Proof

/-! ### The region after a finding -/

theorem assocFind_bare (l : List (Nat × Region)) (i : Nat) :
    assocFind (bare l) i = (assocFind l i).map (fun r => { r with state := .normal }) := by
  induction l with
  | nil => rfl
  | cons e l ih =>
    obtain ⟨k, r⟩ := e
    unfold bare at ih ⊢
    simp only [List.map_cons, assocFind]
    split
    · rfl
    · exact ih

/-- A finding counts its word in the region and moves its state (R12, R13, R34). -/
theorem findUncorrectable_region (ini : Option Initiator) {i a : Nat} {s : State} {r : Region}
    (hr : regionOf s (blockOf a) = some (i, r)) (hf : assocFind s.rgt.entries i = some r) :
    assocFind (findUncorrectable ini a s).rgt.entries i =
      some { r with
        uncorrectable := satInc Config.count16Max r.uncorrectable, state := foundState s (blockOf a) r } := by
  by_cases quiet : r.desc.kind = .plain ∨ s.dev = .configuring
  · have same : foundState s (blockOf a) r = r.state := by
      refine if_pos (quiet.imp (fun h => ?_) id)
      unfold Descriptor.signed
      rw [h]
      rfl
    rw [findUncorrectable_quiet ini hr quiet, same]
    exact assocFind_counted hf _
  · obtain ⟨plain, hd⟩ := not_or.1 quiet
    have hs : r.desc.signed = true := by
      unfold Descriptor.signed
      cases hk : r.desc.kind with
      | plain => exact absurd hk plain
      | vital => rfl
      | code => rfl
    obtain ⟨⟨⟨r', hr', hdesc, hstate⟩, -⟩, -⟩ := findUncorrectable_marks ini hd hr rfl hf hs
    have counts := congrArg (fun l => assocFind l i) ((finds_findUncorrectable ini).counts a s)
    rw [assocFind_bare, hr', bumpAt_of_region hr, assocFind_bare, assocFind_modify, if_pos rfl, hf, bump_one_right] at counts
    rw [hr']
    cases r'
    cases r
    simp_all

/-- Every entry of the index is SUSPECT. -/
def AllSuspect (i : Nat) (s : State) : Prop := ∀ e ∈ s.rgt.entries, e.1 = i → e.2.suspect = true

theorem suspect_of_called (located : Bool) (r : Region) : ({ r with state := calledState located r.state } : Region).suspect = true := by
  unfold Region.suspect
  simpa using calledState_ne located r.state

theorem allSuspect_markSuspect (i : Nat) (located : Bool) (s : State) (r : Region) (hd : s.dev ≠ .configuring)
    (hf : assocFind s.rgt.entries i = some r) (hs : r.desc.signed = true) : AllSuspect i (markSuspect i located s) := by
  intro e he hi
  have entries : (markSuspect i located s).rgt.entries =
      assocModify s.rgt.entries i (fun r => { r with state := calledState located r.state }) := by
    unfold markSuspect
    rw [if_neg hd, hf]
    dsimp only
    rw [if_pos hs]
    rfl
  rw [entries, assocModify] at he
  obtain ⟨x, -, rfl⟩ := List.mem_map.1 he
  by_cases hx : x.1 = i
  · rw [if_pos hx]
    exact suspect_of_called located x.2
  · rw [if_neg hx] at hi
    exact absurd hi hx

theorem AllSuspect.of_rgt {i : Nat} {s t : State} (h : AllSuspect i s) (hr : t.rgt = s.rgt) : AllSuspect i t := by
  unfold AllSuspect
  rw [hr]
  exact h

theorem allSuspect_damaged {i a : Nat} {s : State} {r : Region} (hd : s.dev ≠ .configuring)
    (hf : assocFind s.rgt.entries i = some r) (hs : r.desc.signed = true) : AllSuspect i (damaged i r.desc.kind a s) := by
  have marked : ∀ loc u t, u.dev = s.dev → u.rgt = s.rgt → t.rgt = (markSuspect i loc u).rgt →
      AllSuspect i (suspectPermit i t) := fun loc u t dev rgt same =>
    (allSuspect_markSuspect i loc u r (by rw [dev]; exact hd) (by rw [rgt]; exact hf) hs).of_rgt (Eq.trans (by simp) same)
  unfold damaged
  rw [if_neg hd]
  rcases kind_of_signed r.desc hs with hk | hk
  · rw [hk]
    unfold offerRepair
    dsimp only
    split
    · exact marked true s _ rfl rfl rfl
    · split
      · exact marked true { s with cju.repair := s.cju.repair ++ [blockOf a] } _ rfl rfl rfl
      · refine marked false { s with cju.repairOverflow := true } _ rfl rfl ?_
        split <;> rfl
  · rw [hk]
    exact marked false s _ rfl rfl rfl

/-- The rollback check leaves a region that is SUSPECT. -/
theorem assocFind_foldl_checkRegion_suspect (es : List (Nat × Region)) (i : Nat)
    (h : ∀ e ∈ es, e.1 = i → e.2.suspect = true) (s : State) :
    assocFind (es.foldl checkRegion s).rgt.entries i = assocFind s.rgt.entries i := by
  induction es generalizing s with
  | nil => rfl
  | cons e es ih =>
    refine (ih (fun x hx => h x (List.mem_cons_of_mem e hx)) (checkRegion s e)).trans ?_
    by_cases hi : e.1 = i
    · have same : checkRegion s e = s := if_neg (by simp [h e List.mem_cons_self hi])
      rw [same]
    · exact assocFind_checkRegion s e i hi

theorem assocFind_abandon (c : AbandonCause) (s : State) (i : Nat) (h : AllSuspect i s) :
    assocFind (abandon c s).rgt.entries i = assocFind s.rgt.entries i := by
  by_cases open' : s.cju.unrevertible = true ∨ s.cju.journal ≠ []
  · rw [abandon_rgt c s open']
  · obtain ⟨hu, hj⟩ := not_or.1 open'
    cases ho : cycleOpen s with
    | false =>
      have same : abandon c s = s := if_neg (by simp [ho])
      rw [same]
    | true =>
      obtain ⟨-, rgt⟩ := finishRollback_own (undoing c s)
      have table : (undoing c s).rgt = s.rgt := by rw [undoing_frame]
      rw [abandon_of_empty c s ho (by simpa using hu) (by simpa using hj), rgt]
      refine (assocFind_foldl_checkRegion_suspect _ i ?_ (undoing c s)).trans (by rw [table])
      rw [table]
      exact h

/-! ### What an abandon leaves of the port -/

theorem abandon_ppt (c : AbandonCause) (s : State) :
    (abandon c s).ppt = s.ppt ∨ (abandon c s).ppt = (abandoning c s).ppt := by
  cases ho : cycleOpen s with
  | false =>
    have same : abandon c s = s := if_neg (by simp [ho])
    exact .inl (by rw [same])
  | true =>
    refine .inr ?_
    rw [abandon_of_open c s ho]
    split
    · simp
    · split
      · simp
      · simp

theorem heldOf_lessHazard (gone : List PwqEntry) (held : List Held) (ini : Initiator)
    (h : held.find? (fun g => g.transfer.ini == ini) = none) :
    (held.map (lessHazard gone)).find? (fun g => g.transfer.ini == ini) = none := by
  have same : ∀ g, (lessHazard gone g).transfer = g.transfer := fun g => by
    unfold lessHazard
    split <;> rfl
  rw [List.find?_eq_none] at h ⊢
  intro x hx
  obtain ⟨g, hg, rfl⟩ := List.mem_map.1 hx
  rw [same]
  exact h g hg

theorem heldOf_abandon (c : AbandonCause) (s : State) (ini : Initiator) (h : heldOf s ini = none) :
    heldOf (abandon c s) ini = none := by
  have dropped : (abandoning c s).ppt.held = s.ppt.held.map (lessHazard (s.pwq.entries.filter PwqEntry.signed)) := by
    unfold abandoning dropSigned
    rw [leaveQueue_frame]
    simp
  unfold heldOf at h ⊢
  rcases abandon_ppt c s with same | same
  · rw [same, h]
  · rw [same, dropped]
    exact heldOf_lessHazard _ _ _ h

/-! ### The grant -/

/-- The step of a grant to a read. -/
theorem exec_procReadGrant (p : Nat) (h : Held) (s : State) (hg : Claim.grants .procRead p s) (hh : firstAccess s = some h) :
    exec .procReadGrant s = .next (settle (readForPort h.transfer { s with mpu.pointer := p })) := by
  have first : firstAccess { s with mpu.pointer := p } = some h := hh
  refine congrArg Host.Outcome.next ((granted_of_grants .procRead procRead p s hg).trans ?_)
  unfold procRead
  rw [first]

/-- The part that has answered a read, its transfer no longer held (R32). -/
def answeredRead (resp : Resp) (t : Transfer) (s : State) : State := giveAnswer t.ini resp (readWord s t.word).value (unhold t.ini s)

section
variable {t : Transfer} {s : State}

/-- The part that has answered a read of a word that is not UNCORRECTABLE (R33). -/
def readable (t : Transfer) (s : State) : State :=
  { answeredRead .okay t s with
    rgt.entries := bumpAt (blockOf t.word) ((readWord s t.word).cond == .correctable).toNat 0 s
    mpu.writeBack := if (readWord s t.word).cond = .correctable then some t.word else s.mpu.writeBack }

theorem readForPort_of_readable (hc : (readWord s t.word).cond ≠ .uncorrectable) : readForPort t s = readable t s := by
  unfold readForPort readable
  dsimp only
  cases hw : (readWord s t.word).cond with
  | uncorrectable => exact absurd hw hc
  | good =>
    have same : bumpAt (blockOf t.word) (Condition.good == Condition.correctable).toNat 0 s = s.rgt.entries := bumpAt_zero _ s
    rw [same]
    rfl
  | correctable =>
    cases hr : regionOf s (blockOf t.word) with
    | none => rw [bumpAt_of_none hr]; rfl
    | some e =>
      have one : (Condition.correctable == Condition.correctable).toNat = 1 := rfl
      rw [bumpAt_of_region (i := e.1) (r := e.2) hr, one, bump_one_left]
      rfl

theorem readForPort_of_uncorrectable (hc : (readWord s t.word).cond = .uncorrectable) :
    readForPort t s = abandonFor t.word (findUncorrectable (some t.ini) t.word (answeredRead .error t s)) := by
  unfold readForPort
  dsimp only
  rw [hc]
  rfl

theorem answers_put_same {α : Type} (p : PerInitiator α) (i : Initiator) (a : α) : (p.put i a).get i = a := by
  cases i <;> rfl

theorem heldOf_answeredRead (resp : Resp) (t : Transfer) (s : State) : heldOf (answeredRead resp t s) t.ini = none := by
  refine List.find?_eq_none.2 fun g hg => ?_
  have kept : (g.transfer.ini != t.ini) = true := (List.mem_filter.1 hg).2
  simpa using kept

/-- The answer stays through the end of the step. -/
theorem answer_settle {u : State} {ini : Initiator} {a : Option Answer} (held : heldOf u ini = none)
    (answer : u.ppt.answers.get ini = a) : (settle u).ppt.answers.get ini = a := by
  obtain ⟨-, -, -, answers, -⟩ := settle_end u
  exact (answers ini held).trans answer

end

theorem EndOfStep.withEvents {u t : State} (h : EndOfStep u t) : EndOfStep { u with cmu := u.cmu.withEvents t.cmu } t := by
  obtain ⟨frame, goesOn, entries, answers, port, quiet⟩ := h
  refine ⟨frame, goesOn, entries, answers, port, fun hh hs => ?_⟩
  have same := quiet hh hs
  have events : u.cmu.withEvents t.cmu = u.cmu := by rw [same]; rfl
  rw [events]
  exact same

/-! ### A finding, and the abandon that follows it -/

section
variable {i a : Nat} {r : Region} {u : State}

/-- After a finding the cycle is abandoned, or nothing follows (R76). -/
theorem abandonFor_cases (hr : regionOf u (blockOf a) = some (i, r)) :
    (r.desc.signed = true ∧ u.dev = .running ∧ cycleOpen u = true ∧
        abandonFor a u = abandon (.uncorrectable i (4 * a)) u) ∨
      ¬(r.desc.signed = true ∧ u.dev = .running ∧ cycleOpen u = true) ∧ abandonFor a u = u := by
  by_cases h : r.desc.signed = true ∧ u.dev = .running
  · obtain ⟨hs, hd⟩ := h
    have acts := abandonFor_of_signed a i r u hr hs hd
    cases ho : cycleOpen u with
    | true => exact .inl ⟨hs, hd, rfl, acts⟩
    | false =>
      have same : abandon (.uncorrectable i (4 * a)) u = u := if_neg (by simp [ho])
      exact .inr ⟨fun h => Bool.false_ne_true h.2.2, acts.trans same⟩
  · refine .inr ⟨fun ⟨hs, hd, _⟩ => h ⟨hs, hd⟩, ?_⟩
    unfold abandonFor
    rw [hr]
    exact if_neg h

/-- What stays of the region, PERMIT and the events through the abandon. -/
theorem abandonFor_rest (hr : regionOf u (blockOf a) = some (i, r))
    (all : r.desc.signed = true ∧ u.dev = .running → AllSuspect i u) :
    assocFind (abandonFor a u).rgt.entries i = assocFind u.rgt.entries i ∧
      (u.vtu.permitted = false → (abandonFor a u).vtu.permitted = false) ∧
      (∀ v ∈ u.cmu.events, v ∈ (abandonFor a u).cmu.events) := by
  rcases abandonFor_cases hr with ⟨hs, hd, ho, acts⟩ | ⟨-, same⟩
  · rw [acts]
    obtain ⟨permitted, -⟩ := abandon_vtu (.uncorrectable i (4 * a)) u ho
    exact ⟨assocFind_abandon _ u i (all ⟨hs, hd⟩), fun _ => permitted,
      fun v hv => mem_events_abandon _ u ho v ((Records.abandoning _ u).mem hv)⟩
  · rw [same]
    exact ⟨rfl, id, fun _ => id⟩

end

/-- What stays of the patrol's records and of a transfer that is not held. -/
theorem abandonFor_port (a : Nat) (u : State) (ini : Initiator) :
    (abandonFor a u).ptu = { u.ptu with turned := (abandonFor a u).ptu.turned } ∧
      (heldOf u ini = none → heldOf (abandonFor a u) ini = none) := by
  unfold abandonFor
  split
  · split
    · exact ⟨abandon_ptu _ u, heldOf_abandon _ u ini⟩
    · exact ⟨rfl, id⟩
  · exact ⟨rfl, id⟩

/-! ### A read that finds an UNCORRECTABLE word -/

/-- The part that has answered the read and made its finding (R34). -/
def foundRead (t : Transfer) (s : State) : State := findUncorrectable (some t.ini) t.word (answeredRead .error t s)

section
variable {i p : Nat} {t : Transfer} {r : Region} {s : State}

theorem foundRead_frame (t : Transfer) (s : State) :
    foundRead t s =
      { answeredRead .error t s with
        rgt.entries := (foundRead t s).rgt.entries
        cju := { s.cju with repair := (foundRead t s).cju.repair, repairOverflow := (foundRead t s).cju.repairOverflow }
        ptu.turned := (foundRead t s).ptu.turned
        vtu := { s.vtu with permitted := (foundRead t s).vtu.permitted, level := (foundRead t s).vtu.level }
        rse.pull.clean := (foundRead t s).rse.pull.clean
        cmu := s.cmu.withEvents (foundRead t s).cmu } := by
  have frame := eq_of_unread (unread_findUncorrectable (some t.ini) t.word (answeredRead .error t s))
  have mpu : (foundRead t s).mpu = (answeredRead .error t s).mpu := (finds_findUncorrectable (some t.ini)).mpu _ _
  rw [← foundRead] at frame
  rw [mpu] at frame
  exact frame

theorem follows_foundRead (t : Transfer) (p : Nat) (s : State) : Follows 3 s (foundRead t { s with mpu.pointer := p }) := by
  have worse := Worsens.findUncorrectable (some t.ini) t.word (answeredRead .error t { s with mpu.pointer := p })
  obtain ⟨vtu, level⟩ := worse.vtu_rest
  have few := (Draws.findUncorrectable (some t.ini) t.word (answeredRead .error t { s with mpu.pointer := p })).records.length_le
  have frame := foundRead_frame t { s with mpu.pointer := p }
  rw [← foundRead] at vtu level few
  exact ⟨vtu, level, by rw [frame], fun _ => congrArg (fun u => u.cju.wCur) frame,
    congrArg (fun u => u.pwq.entries) frame, congrArg (fun u => u.lkc.peers) frame, congrArg (fun u => u.rse.service) frame,
    congrArg (fun u => u.times) frame, congrArg (fun u => u.position) frame, congrArg (fun u => u.sgu) frame, worse.table, few⟩

theorem foundRead_kept (t : Transfer) (s : State) :
    cycleOpen (foundRead t s) = cycleOpen s ∧ (foundRead t s).dev = s.dev ∧ (foundRead t s).resetLow = s.resetLow := by
  rw [foundRead_frame]
  exact ⟨rfl, rfl, rfl⟩

theorem region_foundRead (hr : regionOf s (blockOf t.word) = some (i, r)) :
    ∃ q, regionOf (foundRead t { s with mpu.pointer := p }) (blockOf t.word) = some (i, q) ∧ q.desc = r.desc :=
  regionOf_congr (follows_foundRead t p s).table hr

theorem allSuspect_foundRead (hr : regionOf s (blockOf t.word) = some (i, r)) (hf : assocFind s.rgt.entries i = some r)
    (hs : r.desc.signed = true) (hd : s.dev ≠ .configuring) : AllSuspect i (foundRead t { s with mpu.pointer := p }) := by
  have region : regionOf (answeredRead .error t { s with mpu.pointer := p }) (blockOf t.word) = some (i, r) := hr
  unfold foundRead
  rw [findUncorrectable_of_region _ region]
  exact allSuspect_damaged (r := { r with uncorrectable := satInc Config.count16Max r.uncorrectable }) hd
    (assocFind_counted (s := answeredRead .error t { s with mpu.pointer := p }) hf _) hs

/-- The answer and the array after a read that finds an UNCORRECTABLE word (R34). -/
theorem readDamaged_port (hc : (readWord s t.word).cond = .uncorrectable) :
    let x := settle (readForPort t { s with mpu.pointer := p })
    x.mpu = { s.mpu with pointer := p } ∧ x.sgu = s.sgu ∧ x.ptu = { s.ptu with turned := x.ptu.turned } ∧
      x.ppt.answers.get t.ini = some ⟨.error, (readWord s t.word).value⟩ ∧
      x.cju.repair = (foundRead t { s with mpu.pointer := p }).cju.repair ∧
      x.cju.repairOverflow = (foundRead t { s with mpu.pointer := p }).cju.repairOverflow := by
  dsimp only
  have same : readForPort t { s with mpu.pointer := p } = abandonFor t.word (foundRead t { s with mpu.pointer := p }) :=
    readForPort_of_uncorrectable hc
  have frame := foundRead_frame t { s with mpu.pointer := p }
  obtain ⟨ptu, held⟩ := abandonFor_port t.word (foundRead t { s with mpu.pointer := p }) t.ini
  have unheld : heldOf (foundRead t { s with mpu.pointer := p }) t.ini = none := by
    have port : (foundRead t { s with mpu.pointer := p }).ppt = (answeredRead .error t { s with mpu.pointer := p }).ppt :=
      congrArg (fun u => u.ppt) frame
    unfold heldOf
    rw [port]
    exact heldOf_answeredRead .error t { s with mpu.pointer := p }
  rw [same]
  refine ⟨?_, ?_, ?_, answer_settle (held unheld) ?_, by simp, by simp⟩
  · simp only [settle_keeps, abandonFor_keeps]
    rw [frame]
    rfl
  · simp only [settle_keeps, abandonFor_keeps]
    rw [frame]
    rfl
  · have walk : (foundRead t { s with mpu.pointer := p }).ptu =
        { s.ptu with turned := (foundRead t { s with mpu.pointer := p }).ptu.turned } := congrArg (fun u => u.ptu) frame
    rw [walk] at ptu
    simp only [settle_keeps]
    exact ptu
  · simp only [abandonFor_keeps]
    rw [frame]
    exact answers_put_same _ _ _

/-- The region, PERMIT and the events after such a read (R12, R34, R137). -/
theorem readDamaged_region (hc : (readWord s t.word).cond = .uncorrectable) (hr : regionOf s (blockOf t.word) = some (i, r))
    (hf : assocFind s.rgt.entries i = some r) :
    let x := settle (readForPort t { s with mpu.pointer := p })
    assocFind x.rgt.entries i =
        some { r with
          uncorrectable := satInc 65535 r.uncorrectable, state := foundState s (blockOf t.word) r } ∧
      (r.desc.signed = true → s.dev ≠ .configuring → x.vtu.permitted = false) ∧
      (∀ v ∈ (foundRead t { s with mpu.pointer := p }).cmu.events, eventKind v.body ≠ 1 → v ∈ x.cmu.events) := by
  dsimp only
  obtain ⟨q, hq, hd⟩ := region_foundRead (p := p) hr
  have same : readForPort t { s with mpu.pointer := p } = abandonFor t.word (foundRead t { s with mpu.pointer := p }) :=
    readForPort_of_uncorrectable hc
  obtain ⟨-, dev, -⟩ := foundRead_kept t { s with mpu.pointer := p }
  have rest := abandonFor_rest hq fun h => by
    rw [hd, dev] at h
    exact allSuspect_foundRead hr hf h.1 (by rw [h.2]; decide)
  obtain ⟨region, off, events⟩ := rest
  have found : assocFind (foundRead t { s with mpu.pointer := p }).rgt.entries i = _ :=
    findUncorrectable_region (s := answeredRead .error t { s with mpu.pointer := p }) (some t.ini) hr hf
  rw [same]
  refine ⟨?_, fun hs hd' => ?_, fun v hv hk => mem_events_settle _ v hk (events v hv)⟩
  · simp only [settle_keeps]
    exact region.trans found
  · obtain ⟨marked, -⟩ := findUncorrectable_marks (s := answeredRead .error t { s with mpu.pointer := p }) (some t.ini) hd' hr rfl
      hf hs
    simp only [settle_keeps]
    exact off marked.permitted

/-- The abandon that such a read causes (R76). -/
theorem readDamaged_abandoned (hc : (readWord s t.word).cond = .uncorrectable) (hr : regionOf s (blockOf t.word) = some (i, r))
    (low : s.resetLow = false) (hs : r.desc.signed = true) (hd : s.dev = .running) (ho : cycleOpen s = true) :
    Claim.abandoned 5 (.uncorrectable i (4 * t.word)) s (settle (readForPort t { s with mpu.pointer := p })) := by
  obtain ⟨q, hq, hdesc⟩ := region_foundRead (p := p) hr
  obtain ⟨open', dev, reset⟩ := foundRead_kept t { s with mpu.pointer := p }
  have acts : readForPort t { s with mpu.pointer := p } =
      abandon (.uncorrectable i (4 * t.word)) (foundRead t { s with mpu.pointer := p }) :=
    (readForPort_of_uncorrectable (s := { s with mpu.pointer := p }) hc).trans
      (abandonFor_of_signed t.word i q (foundRead t { s with mpu.pointer := p }) hq (by rw [hdesc]; exact hs)
        (by rw [dev]; exact hd))
  rw [acts]
  exact (follows_foundRead t p s).abandoned (by decide) _ _ (reset.trans low) (open'.trans ho) rfl rfl

/-- An overflow of the repair list is recorded where it is new (R89). -/
theorem overflow_event (i a : Nat) (u : State) (hm : blockOf a ∉ u.cju.repair) (hl : 32 ≤ u.cju.repair.length)
    (off : u.cju.repairOverflow = false) (room : u.cmu.events.length < 64) :
    ∃ v ∈ (offerRepair i a u).cmu.events, v.body = .repairOverflow i (4 * a) := by
  have full : ¬u.cju.repair.length < Config.repairMax := Nat.not_lt.2 hl
  have kept : (markSuspect i false { u with cju.repairOverflow := true }).cmu = u.cmu := by simp
  obtain ⟨v, hv, hb⟩ := exists_event_recordEvent (.repairOverflow i (byteAddr a))
    (markSuspect i false { u with cju.repairOverflow := true }) (by rw [kept]; exact room)
  have acts : offerRepair i a u = suspectPermit i (recordEvent (.repairOverflow i (byteAddr a))
      (markSuspect i false { u with cju.repairOverflow := true })) := by
    unfold offerRepair
    rw [if_neg hm, if_neg full]
    dsimp only
    rw [off, if_neg Bool.false_ne_true]
  rw [acts]
  exact ⟨v, (Draws.suspectPermit i _).records.mem hv, hb⟩

/-- The repair list and its overflow after the finding (R88, R89). -/
theorem foundRead_repair (hr : regionOf s (blockOf t.word) = some (i, r)) (hf : assocFind s.rgt.entries i = some r) :
    (r.desc.kind ≠ .vital ∨ s.dev = .configuring ∨ blockOf t.word ∈ s.cju.repair →
        (foundRead t { s with mpu.pointer := p }).cju.repair = s.cju.repair ∧
          (foundRead t { s with mpu.pointer := p }).cju.repairOverflow = s.cju.repairOverflow) ∧
      (r.desc.kind = .vital → s.dev ≠ .configuring → blockOf t.word ∉ s.cju.repair →
        (s.cju.repair.length < 32 →
          (foundRead t { s with mpu.pointer := p }).cju.repair = s.cju.repair ++ [blockOf t.word] ∧
            (foundRead t { s with mpu.pointer := p }).cju.repairOverflow = s.cju.repairOverflow) ∧
        (32 ≤ s.cju.repair.length →
          (foundRead t { s with mpu.pointer := p }).cju.repair = s.cju.repair ∧
            (foundRead t { s with mpu.pointer := p }).cju.repairOverflow = true ∧
            (s.cju.repairOverflow = false → s.cmu.events.length < 63 →
              ∃ e ∈ (foundRead t { s with mpu.pointer := p }).cmu.events, e.body = .repairOverflow i (4 * t.word)))) := by
  have region : regionOf (answeredRead .error t { s with mpu.pointer := p }) (blockOf t.word) = some (i, r) := hr
  have marks := fun hd hs => (findUncorrectable_marks (s := answeredRead .error t { s with mpu.pointer := p }) (a := t.word)
    (some t.ini) hd region rfl hf hs).2
  rw [← foundRead] at marks
  refine ⟨fun h => ?_, fun hk hd hm => ?_⟩
  · by_cases quiet : r.desc.kind = .plain ∨ s.dev = .configuring
    · have same := findUncorrectable_quiet (some t.ini) region quiet
      rw [← foundRead] at same
      rw [same]
      exact ⟨rfl, rfl⟩
    · obtain ⟨plain, hd⟩ := not_or.1 quiet
      have hs : r.desc.signed = true := by
        unfold Descriptor.signed
        cases hk : r.desc.kind with
        | plain => exact absurd hk plain
        | vital => rfl
        | code => rfl
      obtain ⟨repair, full⟩ := marks hd hs
      rw [repair, full]
      rcases h with hk | hc | hm
      · rw [if_neg hk]
        simp [hk, answeredRead]
      · exact absurd hc hd
      · simp [offered, hm, answeredRead]
  · obtain ⟨repair, full⟩ := marks hd (signed_of_vital _ hk)
    rw [repair, full, if_pos hk]
    refine ⟨fun hl => ?_, fun hl => ?_⟩
    · simp [offered, hm, hl, answeredRead, Nat.not_le.2 hl]
    · refine ⟨by simp [offered, answeredRead, Nat.not_lt.2 hl], by simp [hk, hm, hl, answeredRead], fun off room => ?_⟩
      have counted := (Records.event (admits := fun _ => True) (.uncorrectable (some i) (byteAddr t.word) (some t.ini))
        (countUncorrectable i (answeredRead .error t { s with mpu.pointer := p })) trivial).length_le
      have before : (countUncorrectable i (answeredRead .error t { s with mpu.pointer := p })).cmu.events.length =
          s.cmu.events.length := rfl
      have run : ({ s with mpu.pointer := p } : State).dev ≠ .configuring := hd
      unfold foundRead
      rw [findUncorrectable_of_region _ region, hk]
      unfold damaged
      rw [if_neg (show (recordEvent _ (countUncorrectable i (answeredRead .error t { s with mpu.pointer := p }))).dev ≠
        .configuring from hd)]
      exact overflow_event i t.word _ hm hl off (by omega)

end

section
variable {t : Transfer} {s : State}

theorem exists_event_foundRead {i : Nat} {r : Region} (p : Nat) (hr : regionOf s (blockOf t.word) = some (i, r))
    (room : s.cmu.events.length < 64) : ∃ v ∈ (foundRead t { s with mpu.pointer := p }).cmu.events,
      v.body = .uncorrectable (some i) (4 * t.word) (some t.ini) :=
  event_findUncorrectable (some t.ini) t.word r (answeredRead .error t { s with mpu.pointer := p }) hr room

/-- A finding that abandons nothing changes no more than a finding does (R34). -/
theorem readDamaged_end {i : Nat} {r : Region} (p : Nat) (hc : (readWord s t.word).cond = .uncorrectable)
    (hr : regionOf s (blockOf t.word) = some (i, r))
    (quiet : ¬(r.desc.signed = true ∧ s.dev = .running ∧ cycleOpen s = true)) :
    let x := settle (readForPort t { s with mpu.pointer := p })
    EndOfStep
      { s with
        ppt := ⟨s.ppt.held.filter (fun g => g.transfer.ini != t.ini),
                s.ppt.answers.put t.ini (some ⟨.error, (readWord s t.word).value⟩)⟩
        rgt.entries := x.rgt.entries
        mpu.pointer := p
        ptu.turned := x.ptu.turned
        cju := { s.cju with repair := x.cju.repair, repairOverflow := x.cju.repairOverflow }
        vtu := { s.vtu with permitted := x.vtu.permitted, level := x.vtu.level }
        rse.pull.clean := x.rse.pull.clean
        cmu := { s.cmu with
          events := x.cmu.events, nextSeq := x.cmu.nextSeq, dropped := x.cmu.dropped, alert := x.cmu.alert } } x := by
  dsimp only
  obtain ⟨q, hq, hd⟩ := region_foundRead (p := p) hr
  have frame := foundRead_frame t { s with mpu.pointer := p }
  obtain ⟨open', dev, -⟩ := foundRead_kept t { s with mpu.pointer := p }
  have acts : readForPort t { s with mpu.pointer := p } = foundRead t { s with mpu.pointer := p } := by
    rw [readForPort_of_uncorrectable (s := { s with mpu.pointer := p }) hc, ← foundRead]
    rcases abandonFor_cases hq with ⟨hs, hd', ho, -⟩ | ⟨-, same⟩
    · exact absurd ⟨hd ▸ hs, dev ▸ hd', open' ▸ ho⟩ quiet
    · exact same
  have ended := (settle_end (foundRead t { s with mpu.pointer := p })).withEvents
  have kept : (settle (foundRead t { s with mpu.pointer := p })).rgt = (foundRead t { s with mpu.pointer := p }).rgt ∧
      (settle (foundRead t { s with mpu.pointer := p })).ptu = (foundRead t { s with mpu.pointer := p }).ptu ∧
      (settle (foundRead t { s with mpu.pointer := p })).cju = (foundRead t { s with mpu.pointer := p }).cju ∧
      (settle (foundRead t { s with mpu.pointer := p })).vtu = (foundRead t { s with mpu.pointer := p }).vtu ∧
      (settle (foundRead t { s with mpu.pointer := p })).rse.pull = (foundRead t { s with mpu.pointer := p }).rse.pull :=
    ⟨by simp, by simp, settle_cju _, by simp, by simp⟩
  obtain ⟨rgt, ptu, cju, vtu, pull⟩ := kept
  rw [acts]
  generalize settle (foundRead t { s with mpu.pointer := p }) = x at *
  generalize foundRead t { s with mpu.pointer := p } = u at *
  rw [frame] at ended
  rw [rgt, ptu, cju, vtu, pull]
  exact ended

end

/-- Settles O31: a word that reads, and one that is UNCORRECTABLE. -/
theorem portReadIsAnswered : Obligations.PortReadIsAnswered := by
  unfold Obligations.PortReadIsAnswered
  intro p h s hg hh
  have hr : s.resetLow = false := hg.1
  have run := exec_procReadGrant p h s hg hh
  generalize h.transfer = t at run ⊢
  refine ⟨_, run, ?_⟩
  by_cases hc : (readWord s t.word).cond = .uncorrectable
  case neg =>
    have acts : readForPort t { s with mpu.pointer := p } = readable t { s with mpu.pointer := p } :=
      readForPort_of_readable hc
    rw [acts]
    have ended := settle_end (readable t { s with mpu.pointer := p })
    have answer := answer_settle (u := readable t { s with mpu.pointer := p }) (a := some ⟨.okay, (readWord s t.word).value⟩)
      (heldOf_answeredRead .okay t { s with mpu.pointer := p }) (answers_put_same _ _ _)
    have rgt : (settle (readable t { s with mpu.pointer := p })).rgt.entries =
        bumpAt (blockOf t.word) ((readWord s t.word).cond == .correctable).toNat 0 s := by
      simp only [settle_keeps]
      rfl
    have mpu : (settle (readable t { s with mpu.pointer := p })).mpu = { s.mpu with
        pointer := p
        writeBack := if (readWord s t.word).cond = .correctable then some t.word else s.mpu.writeBack } := by
      simp only [settle_keeps]
      rfl
    have sgu : (settle (readable t { s with mpu.pointer := p })).sgu = s.sgu := by
      simp only [settle_keeps]
      rfl
    have ptu : (settle (readable t { s with mpu.pointer := p })).ptu = s.ptu := by
      simp only [settle_keeps]
      rfl
    generalize settle (readable t { s with mpu.pointer := p }) = x at *
    refine ⟨by rw [mpu], by rw [mpu], sgu, by rw [ptu], by rw [if_neg hc]; exact answer, fun _ => ?_, fun i r hi hf =>
      ⟨?_, fun hk => absurd hk hc⟩⟩
    · rw [rgt]
      exact ended
    · refine ⟨bump ((readWord s t.word).cond == .correctable).toNat 0 r, ?_, rfl, fun hk => ?_, fun hk => ?_, fun hk => absurd hk hc⟩
      · rw [rgt, bumpAt_of_region hi, assocFind_modify, if_pos rfl, hf]
        rfl
      · rw [hk]
        exact bump_zero r
      · rw [hk]
        exact congrFun bump_one_left r
  case pos =>
    obtain ⟨mpu, sgu, ptu, answer, repair, full⟩ := readDamaged_port (p := p) hc
    have ended := fun i r hi => readDamaged_end (i := i) (r := r) p hc hi
    have region := fun i r hi hf => readDamaged_region (i := i) (r := r) (p := p) hc hi hf
    have abandoned := fun i r hi => readDamaged_abandoned (i := i) (r := r) (p := p) hc hi hr
    have list := fun i r hi hf => foundRead_repair (i := i) (r := r) (t := t) (p := p) (s := s) hi hf
    have event := fun i r hi => exists_event_foundRead (i := i) (r := r) (t := t) (s := s) p hi
    generalize settle (readForPort t { s with mpu.pointer := p }) = x at *
    generalize foundRead t { s with mpu.pointer := p } = u at *
    have opened : cycleOpen s = true ↔ s.cju.chan = some .opened ∨ s.cju.chan = some .closing := by simp [cycleOpen]
    refine ⟨by rw [mpu], by rw [mpu], sgu, ptu, by rw [if_pos hc]; exact answer, fun h => absurd hc h, fun i r hi hf => ?_⟩
    obtain ⟨found, off, events⟩ := region i r hi hf
    obtain ⟨same, listed⟩ := list i r hi hf
    refine ⟨⟨_, found, rfl, fun h => ?_, fun h => ?_, fun _ => rfl⟩, fun _ => ⟨off, fun hs hd ho => abandoned i r hi hs hd (opened.2 ho),
      fun quiet => ended i r hi (by rw [opened]; exact quiet), fun room => ?_, ?_, fun hk hd hm => ?_⟩⟩
    · rw [hc] at h; cases h
    · rw [hc] at h; cases h
    · obtain ⟨v, hv, hb⟩ := event i r hi room
      exact ⟨v, events v hv (by simp [hb, eventKind]), hb⟩
    · rw [repair, full]
      exact same
    · obtain ⟨roomy, crowded⟩ := listed hk hd hm
      rw [repair, full]
      refine ⟨roomy, fun hl => ?_⟩
      obtain ⟨kept, flag, record⟩ := crowded hl
      refine ⟨kept, flag, fun off room => ?_⟩
      obtain ⟨v, hv, hb⟩ := record off room
      exact ⟨v, events v hv (by simp [hb, eventKind]), hb⟩

end Sys2Proof.Machine
end

section
/-! PROOFS. What the releases at the end of a step leave: a refused merge's record, and a read that waits its hazard out
(R21, R23, R26, R30). -/

namespace Sys2Proof.Machine

open Sys2Proof

/-! ### The record of a refused merge -/

/-- The record of a merge that the queue has refused for the first time (R26). -/
def MergeRecord (ini : Initiator) (addr : Nat) (region : Option Nat) (v : Record) : Prop :=
  v.body = .accessRefused .mergeUnknown ini addr region 0

/-- The queue of events has such a record, and the newest can be extended by no refusal of another reason than a merge's
without leaving it there. -/
theorem mem_recordRefusal_of_other (v : Record) (ini : Initiator) (addr : Nat) (region : Option Nat)
    (hv : MergeRecord ini addr region v) (reason : AccessReason) (hr : reason ≠ .mergeUnknown) (i : Initiator) (a : Nat)
    (g : Option Nat) (s : State) (h : v ∈ s.cmu.events) : v ∈ (recordRefusal reason i a g s).cmu.events := by
  unfold recordRefusal
  split
  case h_1 newest hl =>
    split
    case h_1 b hb =>
      have other : v ≠ newest := by
        rintro rfl
        rw [hv] at hb
        have apart : repeated reason i g (.accessRefused .mergeUnknown ini addr region 0) = none :=
          if_neg fun h => hr h.1.symm
        rw [apart] at hb
        cases hb
      have split : v ∈ s.cmu.events.dropLast ++ [newest] := by rwa [List.dropLast_append_getLast? newest hl]
      exact List.mem_append_left _ ((List.mem_append.1 split).resolve_right (by simpa using other))
    case h_2 => exact mem_events_recordEvent _ s v h
  case h_2 => exact mem_events_recordEvent _ s v h

/-- The access check refuses no merge. -/
theorem accessCheck_reason {s : State} {t : Transfer} {reason : AccessReason} {region : Option Nat}
    (h : accessCheck s t = some (reason, region)) : reason ≠ .mergeUnknown := by
  have phase : ∀ k, phaseRefusal s k ≠ some .mergeUnknown := fun k => by
    unfold phaseRefusal
    (repeat' split) <;> simp
  rintro rfl
  unfold accessCheck at h
  dsimp only at h
  split at h
  · simp at h
  · split at h
    · simp at h
    · split at h
      · split at h
        · obtain ⟨x, hx, he⟩ := Option.map_eq_some_iff.1 h
          cases he
          exact phase _ hx
        · cases h
      · simp at h

section
variable {ini : Initiator} {addr : Nat} {region : Option Nat} {v : Record}

theorem mergeRecord_judge (hv : MergeRecord ini addr region v) (w : Bool) (t : Transfer) (s : State) (h : v ∈ s.cmu.events) :
    v ∈ (judge w t s).1.cmu.events := by
  cases hc : accessCheck s t with
  | some e =>
    obtain ⟨reason, place⟩ := e
    rw [judge_of_refused w t s reason place hc]
    exact mem_recordRefusal_of_other v ini addr region hv reason (accessCheck_reason hc) _ _ _ s h
  | none =>
    unfold judge
    simp only [hc]
    (repeat' split) <;> simp [h]

theorem mergeRecord_releaseOne (hv : MergeRecord ini addr region v) (g : Held) (s : State) (h : v ∈ s.cmu.events) :
    v ∈ (releaseOne g s).cmu.events := by
  unfold releaseOne
  split
  · split
    · exact mergeRecord_judge hv _ _ s h
    · exact mergeRecord_judge hv _ _ s h
  · exact h

theorem mergeRecord_settle (hv : MergeRecord ini addr region v) (s : State) (h : v ∈ s.cmu.events) :
    v ∈ (settle s).cmu.events := by
  have fold : ∀ (l : List Held) (s : State), v ∈ s.cmu.events → v ∈ (l.foldl (fun s g => releaseOne g s) s).cmu.events := by
    intro l
    induction l with
    | nil => exact fun _ h => h
    | cons g l ih => exact fun s h => ih _ (mergeRecord_releaseOne hv g s h)
  have released : v ∈ (releaseHeld s).cmu.events := by
    unfold releaseHeld
    split
    · exact h
    · exact fold _ s h
  unfold settle
  simpa using mem_events_serviceTick _ v released

end

/-- The newest record after a finding is one of the finding's (R34). -/
theorem last_findUncorrectable (ini : Option Initiator) {i a : Nat} {q : Region} {u : State}
    (hr : regionOf u (blockOf a) = some (i, q)) (room : u.cmu.events.length < 64) (r : Record)
    (h : (findUncorrectable ini a u).cmu.events.getLast? = some r) : eventKind r.body ≠ 1 := by
  have first := (recordEvent_of_room (.uncorrectable (some i) (byteAddr a) ini) (countUncorrectable i u) room).1
  obtain ⟨more, events, -, kinds⟩ := Draws.damaged i q.desc.kind a
    (recordEvent (.uncorrectable (some i) (byteAddr a) ini) (countUncorrectable i u))
  rw [findUncorrectable_of_region ini hr, events, first, List.append_assoc, List.getLast?_append_of_ne_nil _ (by simp)] at h
  rcases List.mem_cons.1 (List.mem_of_getLast? h) with rfl | later
  · simp [eventKind]
  · rcases kinds r later with ⟨_, _, _, hb⟩ | ⟨_, _, hb⟩ | ⟨_, hb⟩
    all_goals simp [hb, eventKind]

/-- A refusal of a merge is recorded where the newest record is of another kind (R23, R26). -/
theorem exists_mergeRecord (ini : Initiator) (addr : Nat) (region : Option Nat) (s : State) (room : s.cmu.events.length < 64)
    (last : ∀ r, s.cmu.events.getLast? = some r → eventKind r.body ≠ 1) :
    ∃ v ∈ (recordRefusal .mergeUnknown ini addr region s).cmu.events, MergeRecord ini addr region v := by
  rw [recordRefusal_of_other _ _ _ _ _ fun r hr a n hb => last r hr (by simp [hb, eventKind])]
  exact exists_event_recordEvent _ s room

/-! ### What a release leaves to the other transfers -/

/-- A read is judged the same in both states, but for the queue. -/
def SameJudge (s t : State) : Prop :=
  tableOf t = tableOf s ∧ t.mpu.initOp = s.mpu.initOp ∧ t.cju.chan = s.cju.chan

/-- A read that is not refused. -/
theorem accessCheck_read_iff (s : State) (t : Transfer) (hw : t.write = false) :
    accessCheck s t = none ↔
      s.mpu.initOp = none ∧ ∃ i r, regionOf s (blockOf t.word) = some (i, r) ∧ r.desc.rights.getLsbD (rightBit t.ini false) = true := by
  unfold accessCheck
  dsimp only
  cases hi : s.mpu.initOp with
  | some o => simp
  | none =>
    cases hr : regionOf s (blockOf t.word) with
    | none => simp
    | some e =>
      obtain ⟨i, r⟩ := e
      simp [hw]

theorem accessCheck_read_congr {s t : State} (h : SameJudge s t) (x : Transfer) (hw : x.write = false)
    (hc : accessCheck s x = none) : accessCheck t x = none := by
  obtain ⟨table, init, -⟩ := h
  obtain ⟨hi, i, r, hr, right⟩ := (accessCheck_read_iff s x hw).1 hc
  obtain ⟨q, hq, hd⟩ := regionOf_congr table hr
  exact (accessCheck_read_iff t x hw).2 ⟨init.trans hi, i, q, hq, by rw [hd]; exact right⟩

theorem sameJudge_releaseOne (g : Held) (s : State) : SameJudge s (releaseOne g s) :=
  ⟨tableOf_of_rgt (by simp), by simp, by simp⟩

theorem SameJudge.trans {s t u : State} (h : SameJudge s t) (h' : SameJudge t u) : SameJudge s u := by
  obtain ⟨h1, h2, h3⟩ := h
  obtain ⟨k1, k2, k3⟩ := h'
  exact ⟨k1.trans h1, k2.trans h2, k3.trans h3⟩

theorem heldOf_unhold (i j : Initiator) (s : State) (h : j ≠ i) : heldOf (unhold i s) j = heldOf s j := by
  unfold heldOf unhold
  rw [List.find?_filter]
  refine congrArg (fun p => s.ppt.held.find? p) (funext fun g => ?_)
  by_cases hg : g.transfer.ini = j
  · subst hg
    simp [h]
  · simp [hg]

theorem heldOf_rehold (i j : Initiator) (k : Hold) (s : State) :
    heldOf (rehold i k s) j = if j = i then (heldOf s j).map (fun g => { g with hold := k }) else heldOf s j := by
  have transfer : ∀ g : Held, (if g.transfer.ini = i then { g with hold := k } else g).transfer = g.transfer := fun g => by
    split <;> rfl
  unfold heldOf rehold
  dsimp only
  rw [List.find?_map]
  have same : ((fun h : Held => h.transfer.ini == j) ∘ fun g => if g.transfer.ini = i then { g with hold := k } else g) =
      fun h => h.transfer.ini == j := funext fun g => by rw [Function.comp_apply, transfer]
  rw [same]
  cases hf : s.ppt.held.find? (fun h => h.transfer.ini == j) with
  | none => simp
  | some g =>
    have ini : g.transfer.ini = j := by simpa using List.find?_some hf
    by_cases hj : j = i
    · simp [hj, ini]
    · simp [hj, ini]

theorem heldOf_judge (w : Bool) (t : Transfer) (s : State) (j : Initiator) : heldOf (judge w t s).1 j = heldOf s j := by
  unfold heldOf
  simp

/-- The release of one transfer leaves those of the other initiators. -/
theorem heldOf_releaseOne (g : Held) (s : State) (j : Initiator) (h : j ≠ g.transfer.ini) :
    heldOf (releaseOne g s) j = heldOf s j := by
  unfold releaseOne
  split
  · split
    · rw [heldOf_unhold _ _ _ h, heldOf_judge]
    · rw [heldOf_rehold, if_neg h, heldOf_judge]
  · rfl

theorem heldOf_releases (l : List Held) (s : State) (j : Initiator) (h : ∀ g ∈ l, j ≠ g.transfer.ini) :
    heldOf (l.foldl (fun s g => releaseOne g s) s) j = heldOf s j := by
  induction l generalizing s with
  | nil => rfl
  | cons g l ih =>
    rw [List.foldl_cons, ih _ fun x hx => h x (List.mem_cons_of_mem g hx), heldOf_releaseOne g s j (h g List.mem_cons_self)]

theorem sameJudge_releases (l : List Held) (s : State) : SameJudge s (l.foldl (fun s g => releaseOne g s) s) := by
  induction l generalizing s with
  | nil => exact ⟨rfl, rfl, rfl⟩
  | cons g l ih => exact (sameJudge_releaseOne g s).trans (ih _)

/-- A read that has waited its hazard out is requested of the memory port; one that has not waits on (R30, R32). -/
theorem heldOf_releaseOne_hazard (g : Held) (n : Nat) (s : State) (hg : heldOf s g.transfer.ini = some g)
    (hh : g.hold = .hazard n) (hw : g.transfer.write = false) (hc : accessCheck s g.transfer = none)
    (chan : s.cju.chan ≠ some .rollingBack) :
    heldOf (releaseOne g s) g.transfer.ini = some { g with hold := if n = 0 then .access else .hazard n } := by
  unfold releaseOne
  rw [hh]
  cases n with
  | zero =>
    have judged : judge true g.transfer s = (s, some .access) := by
      unfold judge
      simp [hc, hw, chan]
    have waited : Hold.isHazard (.hazard 0) = true := rfl
    rw [if_pos (show holdEnded s (.hazard 0) = true from rfl), waited, judged]
    dsimp only
    rw [heldOf_rehold, if_pos rfl, hg]
    rfl
  | succ n =>
    rw [if_neg (by simp [holdEnded]), hg, if_neg (Nat.succ_ne_zero n), ← hh]

/-- The releases of a step's end, for a read whose hazard may have ended (R30). -/
theorem heldOf_settle_hazard (g : Held) (n : Nat) (s : State) (port : portHold s = false)
    (one : s.ppt.held.countP (fun h => h.transfer.ini == g.transfer.ini) ≤ 1) (hg : g ∈ s.ppt.held) (hh : g.hold = .hazard n)
    (hw : g.transfer.write = false) (hc : accessCheck s g.transfer = none) (chan : s.cju.chan ≠ some .rollingBack) :
    heldOf (settle s) g.transfer.ini = some { g with hold := if n = 0 then .access else .hazard n } := by
  obtain ⟨before, after, split⟩ := List.append_of_mem hg
  have counted : before.countP (fun h => h.transfer.ini == g.transfer.ini) = 0 ∧
      after.countP (fun h => h.transfer.ini == g.transfer.ini) = 0 := by
    rw [split, List.countP_append, List.countP_cons] at one
    simp only [beq_self_eq_true, if_true] at one
    omega
  obtain ⟨none1, none2⟩ := counted
  have first : ∀ x ∈ before, g.transfer.ini ≠ x.transfer.ini := fun x hx h =>
    List.countP_eq_zero.1 none1 x hx (by simp [h])
  have last : ∀ x ∈ after, g.transfer.ini ≠ x.transfer.ini := fun x hx h =>
    List.countP_eq_zero.1 none2 x hx (by simp [h])
  have held : heldOf s g.transfer.ini = some g := by
    unfold heldOf
    rw [split, List.find?_append, List.find?_eq_none.2 fun x hx => by simpa using (first x hx).symm]
    simp
  have judged := sameJudge_releases before s
  have stays := judged.2.2
  have released : heldOf (releaseHeld s) g.transfer.ini =
      some { g with hold := if n = 0 then .access else .hazard n } := by
    unfold releaseHeld
    rw [port, if_neg Bool.false_ne_true, split, List.foldl_append, List.foldl_cons, heldOf_releases _ _ _ last]
    refine heldOf_releaseOne_hazard g n _ ((heldOf_releases _ _ _ first).trans held) hh hw
      (accessCheck_read_congr judged _ hw hc) ?_
    rw [stays]
    exact chan
  rw [← released]
  unfold heldOf settle
  simp

end Sys2Proof.Machine
end

section
/-! PROOFS. The grant to the head of the queue (R25, R26, R34, R59, R83). -/

namespace Sys2Proof.Machine

open Sys2Proof

/-! ### An overflow of the journal (R83) -/

/-- The head would need a capture for which its block has no mark. -/
def Uncovered (e : PwqEntry) (s : State) : Prop :=
  s.dev = .running ∧ e.signed = true ∧ vitalBlock s (blockOf e.word) = true ∧ blockOf e.word ∉ s.cju.wCur

section
variable {e : PwqEntry} {s : State}

theorem overflow_of_covered (h : ¬Uncovered e s) : overflow e s = s := if_neg h

/-- The part with the mark and UNREVERTIBLE set. -/
def overflowed (e : PwqEntry) (s : State) : State :=
  { s with
    cju := { s.cju with wCur := setInsert s.cju.wCur (blockOf e.word), unrevertible := true }
    rse.service.tried := if s.rse.service.waiting then s.rse.service.tried else [] }

theorem overflow_of_uncovered (h : Uncovered e s) :
    overflow e s =
      if s.cju.unrevertible then overflowed e s else recordEvent (.journalOverflow (byteAddr e.word)) (overflowed e s) := by
  unfold overflow
  rw [if_pos (show _ ∧ _ from h), forgetTried_eq]
  rfl

theorem overflow_frame (e : PwqEntry) (s : State) :
    overflow e s =
      { s with
        cju := { s.cju with wCur := (overflow e s).cju.wCur, unrevertible := (overflow e s).cju.unrevertible }
        rse.service.tried := (overflow e s).rse.service.tried
        cmu := s.cmu.withEvents (overflow e s).cmu } := by
  by_cases h : Uncovered e s
  · rw [overflow_of_uncovered h]
    split
    · rfl
    · rw [recordEvent_frame]
      rfl
  · rw [overflow_of_covered h]
    rfl

theorem overflowed_fields (h : Uncovered e s) :
    (overflow e s).cju.wCur = setInsert s.cju.wCur (blockOf e.word) ∧ (overflow e s).cju.unrevertible = true ∧
      (overflow e s).rse.service =
        { s.rse.service with tried := if s.rse.service.waiting then s.rse.service.tried else [] } := by
  rw [overflow_of_uncovered h]
  split <;> exact ⟨rfl, rfl, rfl⟩

theorem records_overflow (e : PwqEntry) (s : State) : Records (fun _ => True) 1 s (overflow e s) := by
  by_cases h : Uncovered e s
  · have quiet : Records (fun _ => True) 0 s (overflowed e s) := .of_eq rfl
    rw [overflow_of_uncovered h]
    split
    · exact quiet.mono (by decide)
    · exact quiet.trans (.event _ _ trivial)
  · rw [overflow_of_covered h]
    exact .of_eq rfl

/-- An overflow is recorded where it is new (R83). -/
theorem event_overflow (h : Uncovered e s) (hu : s.cju.unrevertible = false) (room : s.cmu.events.length < 64) :
    ∃ v ∈ (overflow e s).cmu.events, v.body = .journalOverflow (4 * e.word) := by
  rw [overflow_of_uncovered h, hu, if_neg Bool.false_ne_true]
  exact exists_event_recordEvent (.journalOverflow (byteAddr e.word)) (overflowed e s) room

end

/-! ### The write -/

/-- The part that has made the head's finding and has not yet written (R25, R34). -/
def beforeWrite (e : PwqEntry) (s : State) : State :=
  match (readWord s e.word).cond with
  | .good => overflow e s
  | .correctable => countCorrected e.region (overflow e s)
  | .uncorrectable => findUncorrectable (some e.ini) e.word (overflow e s)

/-- The value that the head writes. -/
def merged (e : PwqEntry) (s : State) : Word := mergeBytes e.be (readWord s e.word).value e.data

theorem performEntry_eq (e : PwqEntry) (s : State) :
    performEntry e (overflow e s) =
      if mergeRefused (readWord s e.word).cond e then
        recordRefusal .mergeUnknown e.ini (byteAddr e.word) (some e.region) (beforeWrite e s)
      else writeWord e.word (readWord s e.word).value (merged e s) (beforeWrite e s) := by
  have read : readWord (overflow e s) e.word = readWord s e.word := readWord_of_mem (by simp)
  unfold performEntry
  dsimp only
  rw [read]
  unfold beforeWrite merged
  cases (readWord s e.word).cond <;> rfl

/-- The part after the entry has left the queue. -/
def headLeft (e : PwqEntry) (rest : List PwqEntry) (s : State) : State := leaveQueue [e] rest (performEntry e (overflow e s))

/-- What the grant leaves before the end of its step. -/
def headEnd (e : PwqEntry) (rest : List PwqEntry) (s : State) : State :=
  if (readWord s e.word).cond = .uncorrectable then abandonFor e.word (headLeft e rest s) else headLeft e rest s

theorem exec_pwqHeadWrite (p : Nat) (e : PwqEntry) (rest : List PwqEntry) (s : State) (hg : Claim.grants .headWrite p s)
    (he : s.pwq.entries = e :: rest) :
    exec .pwqHeadWrite s = .next (settle (headEnd e rest { s with mpu.pointer := p })) := by
  have entries : ({ s with mpu.pointer := p } : State).pwq.entries = e :: rest := he
  refine congrArg Host.Outcome.next ((granted_of_grants .headWrite headWrite p s hg).trans ?_)
  unfold headWrite
  rw [entries]
  rfl

section
variable {e : PwqEntry} {rest : List PwqEntry} {s : State}

theorem mergeRefused_iff (c : Condition) (e : PwqEntry) : mergeRefused c e = true ↔ c = .uncorrectable ∧ e.be ≠ 15 := by
  simp [mergeRefused]

theorem performEntry_of_written (h : (readWord s e.word).cond ≠ .uncorrectable ∨ e.be = 15) :
    performEntry e (overflow e s) = writeWord e.word (readWord s e.word).value (merged e s) (beforeWrite e s) := by
  rw [performEntry_eq, if_neg]
  rw [mergeRefused_iff]
  rintro ⟨hc, hb⟩
  exact h.elim (· hc) hb

theorem performEntry_of_refused (hc : (readWord s e.word).cond = .uncorrectable) (hb : e.be ≠ 15) :
    performEntry e (overflow e s) =
      recordRefusal .mergeUnknown e.ini (byteAddr e.word) (some e.region) (beforeWrite e s) := by
  rw [performEntry_eq, if_pos ((mergeRefused_iff _ _).2 ⟨hc, hb⟩)]

/-- What the finding leaves to the write. -/
theorem beforeWrite_view (e : PwqEntry) (s : State) :
    SameView s (beforeWrite e s) ∧ (beforeWrite e s).mpu = s.mpu ∧ (beforeWrite e s).sgu = s.sgu ∧
      (beforeWrite e s).ptu = { s.ptu with turned := (beforeWrite e s).ptu.turned } := by
  have table : tableOf (overflow e s) = tableOf s := tableOf_of_rgt (by simp)
  unfold beforeWrite
  cases (readWord s e.word).cond with
  | good => exact ⟨⟨table, by simp, by simp, by simp⟩, by simp, by simp, by simp⟩
  | correctable => exact ⟨⟨by simpa using table, by simp, by simp, by simp⟩, by simp, by simp, by simp⟩
  | uncorrectable =>
    have worse := Worsens.findUncorrectable (some e.ini) e.word (overflow e s)
    have mpu := (finds_findUncorrectable (some e.ini)).mpu e.word (overflow e s)
    have frame := eq_of_unread (unread_findUncorrectable (some e.ini) e.word (overflow e s))
    refine ⟨⟨worse.table.trans table, ?_, ?_, ?_⟩, mpu.trans (by simp), ?_, ?_⟩
    all_goals
      rw [frame]
      simp

/-- What the abandon after a finding leaves of the array and of the accounts. -/
theorem headEnd_rest (e : PwqEntry) (rest : List PwqEntry) (s : State) :
    (headEnd e rest s).mpu = (performEntry e (overflow e s)).mpu ∧ (headEnd e rest s).sgu = (performEntry e (overflow e s)).sgu ∧
      (headEnd e rest s).ptu = { (performEntry e (overflow e s)).ptu with turned := (headEnd e rest s).ptu.turned } := by
  have left : (headLeft e rest s).mpu = (performEntry e (overflow e s)).mpu ∧
      (headLeft e rest s).sgu = (performEntry e (overflow e s)).sgu ∧
      (headLeft e rest s).ptu = (performEntry e (overflow e s)).ptu := by
    unfold headLeft
    simp
  obtain ⟨mpu, sgu, ptu⟩ := left
  unfold headEnd
  split
  · obtain ⟨turned, -⟩ := abandonFor_port e.word (headLeft e rest s) e.ini
    refine ⟨by simp [mpu], by simp [sgu], ?_⟩
    rw [ptu] at turned
    exact turned
  · exact ⟨mpu, sgu, by rw [ptu]⟩

/-- A write that is done reaches the array and the accounts (R39, R58 to R60). -/
theorem head_written (p : Nat) (h : (readWord s e.word).cond ≠ .uncorrectable ∨ e.be = 15) :
    Claim.wrote [(e.word, merged e s)] s (settle (headEnd e rest { s with mpu.pointer := p })) ∧
      Claim.accounted (blockOf e.word) [(e.word, merged e s)] s (settle (headEnd e rest { s with mpu.pointer := p })) := by
  obtain ⟨mpu, sgu, ptu⟩ := headEnd_rest e rest { s with mpu.pointer := p }
  obtain ⟨view, array, sigs, walk⟩ := beforeWrite_view e { s with mpu.pointer := p }
  have done : performEntry e (overflow e { s with mpu.pointer := p }) =
      writeWord e.word (readWord s e.word).value (merged e s) (beforeWrite e { s with mpu.pointer := p }) :=
    performEntry_of_written (s := { s with mpu.pointer := p }) h
  have read : readWord (beforeWrite e { s with mpu.pointer := p }) e.word = readWord s e.word :=
    readWord_of_mem (by rw [array])
  have write := accounted_writeWord e.word (merged e s) (beforeWrite e { s with mpu.pointer := p })
  rw [read, ← done] at write
  have mem : (settle (headEnd e rest { s with mpu.pointer := p })).mpu.mem =
      memPut s.mpu.mem e.word (freshWord (merged e s)) := by
    simp only [settle_keeps]
    rw [mpu, done, writeWord_mem, array]
  refine ⟨⟨fun a v hv ha => ?_, fun a ha => ?_⟩, ?_⟩
  · obtain ⟨rfl, rfl⟩ := Prod.mk.inj (List.mem_singleton.1 hv)
    rw [mem, memGet_memPut_fresh, if_pos ⟨rfl, ha⟩]
  · have other : e.word ≠ a := by simpa [eq_comm] using ha
    rw [mem, memGet_memPut_fresh, if_neg fun h => other h.1]
  · refine accounted_congr (accounted_congr_left write view (by rw [array]) (by rw [sigs]) walk) ?_ ?_
    · simp only [settle_keeps]
      rw [sgu]
    · simp only [settle_keeps]
      exact ptu

/-- A refused merge leaves the word (R26). -/
theorem head_refused (p : Nat) (hc : (readWord s e.word).cond = .uncorrectable) (hb : e.be ≠ 15) :
    (settle (headEnd e rest { s with mpu.pointer := p })).mpu.mem = s.mpu.mem ∧
      (settle (headEnd e rest { s with mpu.pointer := p })).sgu = s.sgu ∧
      Claim.accounted (blockOf e.word) [] s (settle (headEnd e rest { s with mpu.pointer := p })) := by
  obtain ⟨mpu, sgu, ptu⟩ := headEnd_rest e rest { s with mpu.pointer := p }
  obtain ⟨-, array, sigs, walk⟩ := beforeWrite_view e { s with mpu.pointer := p }
  have done : performEntry e (overflow e { s with mpu.pointer := p }) =
      recordRefusal .mergeUnknown e.ini (byteAddr e.word) (some e.region) (beforeWrite e { s with mpu.pointer := p }) :=
    performEntry_of_refused (s := { s with mpu.pointer := p }) hc hb
  rw [done] at mpu sgu ptu
  simp only [recordRefusal_keeps] at mpu sgu ptu
  rw [sigs] at sgu
  rw [walk] at ptu
  refine ⟨?_, ?_, accounted_nil _ ?_ ?_⟩
  · simp only [settle_keeps]
    rw [mpu, array]
  · simp only [settle_keeps]
    exact sgu
  · simp only [settle_keeps]
    rw [sgu]
  · simp only [settle_keeps]
    exact ptu

end

/-! ### A word that is not UNCORRECTABLE -/

/-- The entry's region in the table after the write (R13). -/
def countedRegion (c : Condition) (r : Region) : Region :=
  if c = .correctable then { r with corrected := satInc 65535 r.corrected } else r

theorem countCorrected_eq (i : Nat) (s : State) :
    countCorrected i s = { s with rgt.entries := assocModify s.rgt.entries i (countedRegion .correctable) } := rfl

/-- What a step keeps that from `w` on writes a word and lets entries leave the queue (R25). -/
def KeptByWrite (rest : List PwqEntry) (w x : State) : Prop :=
  (∃ more, x.pwq.entries = rest ++ more) ∧ x.dev = w.dev ∧ x.cju = w.cju ∧ x.vtu = w.vtu ∧ x.start = w.start ∧
    x.times = w.times ∧ x.rse.pull = w.rse.pull ∧ x.ptu.turned = w.ptu.turned ∧
    (∃ u, EndOfStep u x ∧ u.lkc = w.lkc ∧ u.rse.service = w.rse.service) ∧
    x.mpu = { w.mpu with mem := x.mpu.mem } ∧ x.sgu.pass = w.sgu.pass ∧ x.rgt = w.rgt ∧
    (∀ r ∈ w.cmu.events, eventKind r.body ≠ 1 → r ∈ x.cmu.events)

theorem keptByWrite (gone rest : List PwqEntry) (a : Nat) (o v : Word) (w : State) :
    KeptByWrite rest w (settle (leaveQueue gone rest (writeWord a o v w))) := by
  have ended := settle_end (leaveQueue gone rest (writeWord a o v w))
  have entries : (leaveQueue gone rest (writeWord a o v w)).pwq.entries = rest := by rw [leaveQueue_frame]
  obtain ⟨-, -, ⟨more, grown⟩, -⟩ := id ended
  refine ⟨⟨more, by rw [grown, entries]⟩, by simp, ?_, by simp, by simp, by simp, by simp, by simp,
    ⟨_, ended, by simp, by simp⟩, ?_, by simp, by simp, fun r hr hk => mem_events_settle _ r hk (by simpa using hr)⟩
  · rw [settle_cju]
    simp
  · simp only [settle_keeps, leaveQueue_keeps]
    unfold writeWord accountWrite
    (repeat' split) <;> rfl

section
variable {e : PwqEntry} {rest : List PwqEntry} {s : State}

theorem headEnd_of_readable (hc : (readWord s e.word).cond ≠ .uncorrectable) :
    headEnd e rest s =
      leaveQueue [e] rest (writeWord e.word (readWord s e.word).value (merged e s) (beforeWrite e s)) := by
  unfold headEnd headLeft
  rw [if_neg hc, performEntry_of_written (.inl hc)]

/-- With no finding the part differs by the overflow and the count only. -/
theorem beforeWrite_of_readable (hc : (readWord s e.word).cond ≠ .uncorrectable) :
    beforeWrite e s =
      { overflow e s with
        rgt.entries := assocModify s.rgt.entries e.region (countedRegion (readWord s e.word).cond) } := by
  have table : (overflow e s).rgt = s.rgt := by simp
  unfold beforeWrite
  cases hw : (readWord s e.word).cond with
  | good =>
    have same : assocModify s.rgt.entries e.region (countedRegion .good) = (overflow e s).rgt.entries := by
      rw [table]
      exact modify_id _ _
    rw [same]
  | correctable =>
    have entries : (overflow e s).rgt.entries = s.rgt.entries := by rw [table]
    rw [← entries]
    exact countCorrected_eq e.region (overflow e s)
  | uncorrectable => exact absurd hw hc

/-- A write over a word that is not UNCORRECTABLE follows on the overflow (R25, R83). -/
theorem head_quiet (p : Nat) (hc : (readWord s e.word).cond ≠ .uncorrectable) :
    KeptByWrite rest
      { overflow e { s with mpu.pointer := p } with
        rgt.entries := assocModify s.rgt.entries e.region (countedRegion (readWord s e.word).cond) }
      (settle (headEnd e rest { s with mpu.pointer := p })) := by
  have acts : headEnd e rest { s with mpu.pointer := p } = leaveQueue [e] rest (writeWord e.word (readWord s e.word).value
      (merged e s) (beforeWrite e { s with mpu.pointer := p })) := headEnd_of_readable (s := { s with mpu.pointer := p }) hc
  have before : beforeWrite e { s with mpu.pointer := p } = { overflow e { s with mpu.pointer := p } with
      rgt.entries := assocModify s.rgt.entries e.region (countedRegion (readWord s e.word).cond) } :=
    beforeWrite_of_readable (s := { s with mpu.pointer := p }) hc
  rw [acts, ← before]
  exact keptByWrite [e] rest e.word (readWord s e.word).value (merged e s) _

/-- The held reads of the word wait for one entry fewer (R30). -/
theorem head_held (p : Nat) (hc : (readWord s e.word).cond ≠ .uncorrectable) (port : portHold s = false)
    (law : heldLaw s = true) (chan : s.cju.chan ≠ some .rollingBack) (h : Held) (hh : h ∈ s.ppt.held) (n : Nat)
    (hw : h.transfer.write = false) (word : h.transfer.word = e.word) (hold : h.hold = .hazard (n + 1))
    (check : accessCheck s h.transfer = none) :
    heldOf (settle (headEnd e rest { s with mpu.pointer := p })) h.transfer.ini =
      some { h with hold := if n = 0 then .access else .hazard n } := by
  have acts : headEnd e rest { s with mpu.pointer := p } = leaveQueue [e] rest (writeWord e.word (readWord s e.word).value
      (merged e s) (beforeWrite e { s with mpu.pointer := p })) := headEnd_of_readable (s := { s with mpu.pointer := p }) hc
  have before : beforeWrite e { s with mpu.pointer := p } = { overflow e { s with mpu.pointer := p } with
      rgt.entries := assocModify s.rgt.entries e.region (countedRegion (readWord s e.word).cond) } :=
    beforeWrite_of_readable (s := { s with mpu.pointer := p }) hc
  obtain ⟨⟨table, -⟩, mpu, -⟩ := beforeWrite_view e { s with mpu.pointer := p }
  have fields : (headEnd e rest { s with mpu.pointer := p }).ppt.held = s.ppt.held.map (lessHazard [e]) ∧
      (headEnd e rest { s with mpu.pointer := p }).cju.chan = s.cju.chan ∧
      (headEnd e rest { s with mpu.pointer := p }).cmu.buffer = s.cmu.buffer ∧
      (headEnd e rest { s with mpu.pointer := p }).mpu.initOp = s.mpu.initOp := by
    rw [acts]
    simp only [leaveQueue_keeps, writeWord_keeps, mpu]
    rw [leaveQueue_frame, before]
    simp
  obtain ⟨held, chan', buffer, init⟩ := fields
  have rgt : (headEnd e rest { s with mpu.pointer := p }).rgt = (beforeWrite e { s with mpu.pointer := p }).rgt := by
    rw [acts]
    simp
  have same : SameJudge s (headEnd e rest { s with mpu.pointer := p }) := ⟨(tableOf_of_rgt rgt).trans table, init, chan'⟩
  have transfer : ∀ g, (lessHazard [e] g).transfer = g.transfer := fun g => by
    unfold lessHazard
    split <;> rfl
  have fewer : lessHazard [e] h = { h with hold := .hazard n } := by
    unfold lessHazard
    rw [hold]
    simp [word]
  have mem : { h with hold := .hazard n } ∈ (headEnd e rest { s with mpu.pointer := p }).ppt.held := by
    rw [held, ← fewer]
    exact List.mem_map_of_mem hh
  refine heldOf_settle_hazard { h with hold := .hazard n } n _ ?_ ?_ mem rfl hw (accessCheck_read_congr same _ hw check) ?_
  · unfold portHold at port ⊢
    rw [buffer]
    exact port
  · rw [held, List.countP_map]
    simp only [Function.comp_def, transfer]
    exact (heldLaw_iff s).1 law _
  · rw [chan']
    exact chan

end

/-! ### A word that is UNCORRECTABLE -/

theorem length_recordRefusal_le (reason : AccessReason) (ini : Initiator) (a : Nat) (g : Option Nat) (s : State) :
    (recordRefusal reason ini a g s).cmu.events.length ≤ s.cmu.events.length + 1 := by
  unfold recordRefusal
  split
  case h_1 newest hl =>
    split
    · simp only [List.length_append, List.length_dropLast, List.length_singleton]
      omega
    · exact length_events_recordEvent_le _ s
  case h_2 => exact length_events_recordEvent_le _ s

section
variable {e : PwqEntry} {rest : List PwqEntry} {s : State}

theorem beforeWrite_of_uncorrectable (hc : (readWord s e.word).cond = .uncorrectable) :
    beforeWrite e s = findUncorrectable (some e.ini) e.word (overflow e s) := by
  unfold beforeWrite
  rw [hc]

/-- What the write or its refusal leaves of the finding. -/
theorem headLeft_fields (e : PwqEntry) (rest : List PwqEntry) (s : State) :
    (headLeft e rest s).pwq.entries = rest ∧ (headLeft e rest s).rgt = (beforeWrite e s).rgt ∧
      (headLeft e rest s).cju = (beforeWrite e s).cju ∧ (headLeft e rest s).vtu = (beforeWrite e s).vtu ∧
      (headLeft e rest s).lkc = (beforeWrite e s).lkc ∧ (headLeft e rest s).rse = (beforeWrite e s).rse ∧
      (headLeft e rest s).dev = (beforeWrite e s).dev ∧ (headLeft e rest s).times = (beforeWrite e s).times ∧
      (headLeft e rest s).position = (beforeWrite e s).position ∧
      (headLeft e rest s).resetLow = (beforeWrite e s).resetLow ∧
      (headLeft e rest s).cmu.events.length ≤ (beforeWrite e s).cmu.events.length + 1 ∧
      (∀ v ∈ (beforeWrite e s).cmu.events, eventKind v.body ≠ 1 → v ∈ (headLeft e rest s).cmu.events) := by
  have entries : (headLeft e rest s).pwq.entries = rest := by
    unfold headLeft
    rw [leaveQueue_frame]
  refine ⟨entries, ?_⟩
  unfold headLeft
  rw [performEntry_eq]
  split
  · refine ⟨by simp, by simp, by simp, by simp, by simp, by simp, by simp, by simp, by simp, ?_, fun v hv hk => ?_⟩
    · simpa using length_recordRefusal_le _ _ _ _ (beforeWrite e s)
    · simpa using mem_events_recordRefusal _ _ _ _ _ v hk hv
  · refine ⟨by simp, by simp, by simp, by simp, by simp, by simp, by simp, by simp, by simp, by simp, fun v hv _ => ?_⟩
    simpa using hv

/-- The part before a finding at the head, with the accounts of the write already in it. -/
def unfound (e : PwqEntry) (rest : List PwqEntry) (s : State) : State :=
  { s with pwq.entries := rest, sgu := (headLeft e rest s).sgu }

/-- From there on there is a finding only, where the journal has not overflown. -/
theorem follows_headLeft (hc : (readWord s e.word).cond = .uncorrectable) (covered : ¬Uncovered e s) :
    Follows 7 (unfound e rest s) (headLeft e rest s) := by
  obtain ⟨entries, rgt, cju, vtu, lkc, rse, -, times, position, -, few, -⟩ := headLeft_fields e rest s
  have before := beforeWrite_of_uncorrectable hc
  rw [overflow_of_covered covered] at before
  have worse := Worsens.findUncorrectable (some e.ini) e.word s
  have draws := (Draws.findUncorrectable (some e.ini) e.word s).records.length_le
  have frame := eq_of_unread (unread_findUncorrectable (some e.ini) e.word s)
  rw [← before] at worse draws frame
  obtain ⟨dropped, level⟩ := worse.vtu_rest
  have table := worse.table
  generalize beforeWrite e s = f at *
  refine ⟨?_, fun hp => ?_, ?_, fun _ => ?_, entries, ?_, ?_, ?_, ?_, rfl, (tableOf_of_rgt rgt).trans table, ?_⟩
  · rw [vtu]
    exact dropped
  · rw [vtu]
    exact level hp
  · rw [cju, frame]
    rfl
  · rw [cju, frame]
    rfl
  · rw [lkc, frame]
    rfl
  · rw [rse, frame]
    rfl
  · rw [times, frame]
    rfl
  · rw [position, frame]
    rfl
  · have same : (unfound e rest s).cmu = s.cmu := rfl
    rw [same]
    omega

section
variable {i : Nat} {r : Region} (hr : regionOf s (blockOf e.word) = some (i, r))
include hr

theorem region_overflow : regionOf (overflow e s) (blockOf e.word) = some (i, r) := by
  have table : (overflow e s).rgt = s.rgt := by simp
  unfold regionOf
  rw [table]
  exact hr

theorem region_headLeft : ∃ q, regionOf (headLeft e rest s) (blockOf e.word) = some (i, q) ∧ q.desc = r.desc := by
  obtain ⟨-, rgt, -⟩ := headLeft_fields e rest s
  obtain ⟨⟨table, -⟩, -⟩ := beforeWrite_view e s
  exact regionOf_congr ((tableOf_of_rgt rgt).trans table) hr

variable (hc : (readWord s e.word).cond = .uncorrectable)
include hc

theorem allSuspect_headLeft (hf : assocFind s.rgt.entries i = some r) (hs : r.desc.signed = true) (hd : s.dev ≠ .configuring) :
    AllSuspect i (headLeft e rest s) := by
  obtain ⟨-, rgt, -⟩ := headLeft_fields e rest s
  have dev : (overflow e s).dev = s.dev := by simp
  have table : (overflow e s).rgt = s.rgt := by simp
  refine AllSuspect.of_rgt ?_ rgt
  rw [beforeWrite_of_uncorrectable hc, findUncorrectable_of_region _ (region_overflow hr)]
  exact allSuspect_damaged (r := { r with uncorrectable := satInc Config.count16Max r.uncorrectable }) (by simpa using hd)
    (assocFind_counted (s := overflow e s) (by rw [table]; exact hf) _) hs

/-- The region after the finding (R12, R13, R34), and the events that stay. -/
theorem headDamaged_region (hf : assocFind s.rgt.entries i = some r) :
    assocFind (settle (headEnd e rest s)).rgt.entries i = some { r with
        uncorrectable := satInc 65535 r.uncorrectable, state := foundState s (blockOf e.word) r } ∧
      (∀ v ∈ (headLeft e rest s).cmu.events, v ∈ (headEnd e rest s).cmu.events) := by
  obtain ⟨-, rgt, -, -, -, -, dev, -⟩ := headLeft_fields e rest s
  obtain ⟨⟨-, dev', -⟩, -⟩ := beforeWrite_view e s
  obtain ⟨q, hq, hd⟩ := region_headLeft (rest := rest) hr
  have table : (overflow e s).rgt = s.rgt := by simp
  have ends : headEnd e rest s = abandonFor e.word (headLeft e rest s) := if_pos hc
  obtain ⟨region, -, events⟩ := abandonFor_rest hq fun h => by
    rw [hd, dev, dev'] at h
    exact allSuspect_headLeft hr hc hf h.1 (by rw [h.2]; decide)
  have found := findUncorrectable_region (some e.ini) (region_overflow hr) (by rw [table]; exact hf)
  have state : foundState (overflow e s) (blockOf e.word) r = foundState s (blockOf e.word) r := by
    unfold foundState
    simp
  rw [state] at found
  rw [ends]
  refine ⟨?_, events⟩
  simp only [settle_keeps]
  rw [region, rgt, beforeWrite_of_uncorrectable hc]
  exact found

/-- The events of the finding and of the refusal (R26, R34). -/
theorem headDamaged_events (hf : assocFind s.rgt.entries i = some r) (room : s.cmu.events.length < 56) :
    (∃ v ∈ (settle (headEnd e rest s)).cmu.events, v.body = .uncorrectable (some i) (4 * e.word) (some e.ini)) ∧
      (e.be ≠ 15 → ∃ v ∈ (settle (headEnd e rest s)).cmu.events,
        v.body = .accessRefused .mergeUnknown e.ini (4 * e.word) (some e.region) 0) := by
  obtain ⟨-, stays⟩ := headDamaged_region (rest := rest) hr hc hf
  obtain ⟨-, -, -, -, -, -, -, -, -, -, -, left⟩ := headLeft_fields e rest s
  have few := (records_overflow e s).length_le
  have more := (Draws.findUncorrectable (some e.ini) e.word (overflow e s)).records.length_le
  have before := beforeWrite_of_uncorrectable hc
  have region := region_overflow hr
  refine ⟨?_, fun hb => ?_⟩
  · obtain ⟨v, hv, body⟩ := event_findUncorrectable (some e.ini) e.word r (overflow e s) region (by omega)
    have kind : eventKind v.body ≠ 1 := by simp [body, eventKind]
    exact ⟨v, mem_events_settle _ v kind (stays v (left v (before ▸ hv) kind)), body⟩
  · obtain ⟨v, hv, record⟩ := exists_mergeRecord e.ini (byteAddr e.word) (some e.region)
      (findUncorrectable (some e.ini) e.word (overflow e s)) (by omega)
      (last_findUncorrectable (some e.ini) region (by omega))
    have there : v ∈ (headLeft e rest s).cmu.events := by
      unfold headLeft
      rw [performEntry_of_refused hc hb, before]
      simpa using hv
    exact ⟨v, mergeRecord_settle record _ (stays v there), record⟩

/-- A finding that abandons nothing leaves the queue and the channel (R34). -/
theorem headDamaged_quiet (quiet : ¬(r.desc.signed = true ∧ s.dev = .running ∧ cycleOpen s = true)) :
    (∃ more, (settle (headEnd e rest s)).pwq.entries = rest ++ more) ∧
      (settle (headEnd e rest s)).cju.chan = s.cju.chan := by
  obtain ⟨entries, -, cju, -, -, -, dev, -⟩ := headLeft_fields e rest s
  obtain ⟨⟨-, dev', -⟩, -⟩ := beforeWrite_view e s
  obtain ⟨q, hq, hd⟩ := region_headLeft (rest := rest) hr
  have chan : (headLeft e rest s).cju.chan = s.cju.chan := by
    rw [cju, beforeWrite_of_uncorrectable hc]
    simp
  have ends : headEnd e rest s = headLeft e rest s := by
    have acts : headEnd e rest s = abandonFor e.word (headLeft e rest s) := if_pos hc
    rcases abandonFor_cases hq with ⟨hs, running, ho, -⟩ | ⟨-, same⟩
    · refine absurd ⟨hd ▸ hs, (dev.trans dev') ▸ running, ?_⟩ quiet
      unfold cycleOpen at ho ⊢
      rw [← chan]
      exact ho
    · exact acts.trans same
  rw [ends]
  obtain ⟨-, -, ⟨more, grown⟩, -⟩ := settle_end (headLeft e rest s)
  exact ⟨⟨more, by rw [grown, entries]⟩, by simp [chan]⟩

/-- The abandon that a finding at the head causes (R35, R76, R77). -/
theorem headDamaged_abandons (low : s.resetLow = false) (hs : r.desc.signed = true) (hd : s.dev = .running)
    (ho : cycleOpen s = true) :
    (∃ more, (settle (headEnd e rest s)).pwq.entries = rest.filter (fun d => !d.signed) ++ more) ∧
      (settle (headEnd e rest s)).cju.timer = none ∧ (settle (headEnd e rest s)).vtu.permitted = false ∧
      (s.cmu.events.length < 56 → ∃ v ∈ (settle (headEnd e rest s)).cmu.events,
        v.body = .abandoned (.uncorrectable i (4 * e.word))) ∧
      (¬Uncovered e s →
        Claim.abandoned 9 (.uncorrectable i (4 * e.word)) (unfound e rest s) (settle (headEnd e rest s))) := by
  obtain ⟨entries, -, cju, -, -, -, dev, -, -, reset, length, -⟩ := headLeft_fields e rest s
  obtain ⟨⟨-, dev', -⟩, -⟩ := beforeWrite_view e s
  obtain ⟨q, hq, hdesc⟩ := region_headLeft (rest := rest) hr
  have before := beforeWrite_of_uncorrectable hc
  have chan : (headLeft e rest s).cju.chan = s.cju.chan := by
    rw [cju, before]
    simp
  have opened : cycleOpen (headLeft e rest s) = true := by
    unfold cycleOpen at ho ⊢
    rw [chan]
    exact ho
  have reset' : (headLeft e rest s).resetLow = false := by
    rw [reset, before]
    simpa using low
  have ends : headEnd e rest s = abandon (.uncorrectable i (4 * e.word)) (headLeft e rest s) :=
    (if_pos hc).trans (abandonFor_of_signed e.word i q (headLeft e rest s) hq (by rw [hdesc]; exact hs)
      (by rw [dev, dev']; exact hd))
  have few := (records_overflow e s).length_le
  have more := (Draws.findUncorrectable (some e.ini) e.word (overflow e s)).records.length_le
  rw [← before] at more
  refine ⟨?_, ?_, ?_, fun room => ?_, fun covered => ?_⟩
  · obtain ⟨-, -, ⟨grown, grows⟩, -⟩ := settle_end (headEnd e rest s)
    exact ⟨grown, by rw [grows, ends, abandon_entries _ _ opened, entries]⟩
  · simp only [settle_keeps]
    rw [ends, abandon_timer _ _ opened]
  · simp only [settle_keeps]
    rw [ends]
    exact (abandon_vtu _ _ opened).1
  · obtain ⟨v, hv, body⟩ := abandoned_mem (.uncorrectable i (4 * e.word)) (headLeft e rest s) (by omega)
    refine ⟨v, mem_events_settle _ v (by simp [body, eventKind]) ?_, body⟩
    rw [ends]
    exact mem_events_abandon _ _ opened v hv
  · rw [ends]
    exact (follows_headLeft hc covered).abandoned (by decide) _ _ reset' opened rfl rfl

end

end

/-- A signed region in which a finding is made is SUSPECT after it, outside CONFIGURING (R12). -/
theorem foundState_ne {r : Region} {s : State} (b : Nat) (hs : r.desc.signed = true) (hd : s.dev ≠ .configuring) :
    foundState s b r ≠ .normal := by
  unfold foundState
  rw [if_neg (by simp [hs, hd])]
  split <;> decide

/-- A grant to the head finds no capture due (R43, R80). -/
theorem not_captureDue_of_grants {p : Nat} {s : State} {e : PwqEntry} {rest : List PwqEntry}
    (hg : Claim.grants .headWrite p s) (he : s.pwq.entries = e :: rest) : ¬Claim.captureDue s e := by
  obtain ⟨-, hn⟩ := hg
  obtain ⟨c, hc⟩ := classRequest_of_nextGrant hn
  have asked := (classRequest_iff s c .headWrite).1 hc
  cases c with
  | proc =>
    rcases asked with ⟨h, -⟩ | ⟨h, -⟩ | ⟨-, -, -, e', rest', h', due⟩
    · cases h
    · cases h
    · rw [he] at h'
      cases h'
      exact due
  | journal =>
    rcases asked with ⟨h, -⟩ | ⟨h, -⟩
    · cases h
    · cases h
  | patrol => simp [Claim.requested] at asked
  | link => simp [Claim.requested] at asked
  | setup =>
    rcases asked with ⟨h, -⟩ | ⟨-, -, h⟩
    · cases h
    · split at h <;> cases h

/-- What the overflow leaves. -/
theorem overflow_view (e : PwqEntry) (p : Nat) (s : State) :
    (overflow e { s with mpu.pointer := p }).dev = s.dev ∧ (overflow e { s with mpu.pointer := p }).vtu = s.vtu ∧
      (overflow e { s with mpu.pointer := p }).start = s.start ∧ (overflow e { s with mpu.pointer := p }).times = s.times ∧
      (overflow e { s with mpu.pointer := p }).rse.pull = s.rse.pull ∧
      (overflow e { s with mpu.pointer := p }).ptu = s.ptu ∧ (overflow e { s with mpu.pointer := p }).lkc = s.lkc ∧
      (overflow e { s with mpu.pointer := p }).sgu = s.sgu ∧
      (overflow e { s with mpu.pointer := p }).mpu = { s.mpu with pointer := p } ∧
      (overflow e { s with mpu.pointer := p }).cju = { s.cju with
        wCur := (overflow e { s with mpu.pointer := p }).cju.wCur
        unrevertible := (overflow e { s with mpu.pointer := p }).cju.unrevertible } := by
  rw [overflow_frame]
  exact ⟨rfl, rfl, rfl, rfl, rfl, rfl, rfl, rfl, rfl, rfl⟩

/-- The running signature of a signed region after one word write (R58). -/
theorem accounted_one {b a : Nat} {v : Word} {s t : State} (h : Claim.accounted b [(a, v)] s t) (i : Nat) (r : Region)
    (hr : regionOf s b = some (i, r)) (hs : r.desc.signed = true) :
    t.sgu.sigs = s.sgu.sigs.set r.desc.slot
      ((sigOf s r.desc.slot + updateTerm r.desc (offsetIn r.desc a) (readWord s a).value v) % Config.p) := by
  obtain ⟨signed, -⟩ := h
  obtain ⟨sigs, -⟩ := signed i r hr hs
  rw [sigs, updateTerm_eq]
  exact congrArg (s.sgu.sigs.set r.desc.slot) (added_singleton _ _)

theorem sgu_eq {x y : Sgu} (sigs : x.sigs = y.sigs) (pass : x.pass = y.pass) : x = y := by
  cases x
  cases y
  cases sigs
  cases pass
  rfl

/-- Settles O33: the write or its refusal, a word in order, and a finding with the abandon that it may cause. -/
theorem headWriteIsPerformedOrRefused : Obligations.HeadWriteIsPerformedOrRefused := by
  unfold Obligations.HeadWriteIsPerformedOrRefused
  intro p e rest s hg he _
  have low : s.resetLow = false := hg.1
  have notDue := not_captureDue_of_grants hg he
  refine ⟨_, exec_pwqHeadWrite p e rest s hg he, head_written p, fun hc hb => head_refused p hc hb, fun hc => ?_,
    fun r hc hr hf => ?_⟩
  case refine_1 =>
    obtain ⟨-, accounted⟩ := head_written (rest := rest) p (.inl hc)
    have held := head_held (rest := rest) (e := e) (s := s) p hc
    have quiet := head_quiet (rest := rest) (s := s) (e := e) p hc
    have covered : ¬Uncovered e s → overflow e { s with mpu.pointer := p } = { s with mpu.pointer := p } :=
      overflow_of_covered (s := { s with mpu.pointer := p })
    have uncovered := @overflowed_fields e { s with mpu.pointer := p }
    have event := @event_overflow e { s with mpu.pointer := p }
    obtain ⟨dev', vtu', start', times', pull', ptu', lkc', sgu', mpu', cju'⟩ := overflow_view e p s
    generalize settle (headEnd e rest { s with mpu.pointer := p }) = t at *
    generalize overflow e { s with mpu.pointer := p } = u at *
    obtain ⟨entries, dev, cju, vtu, start, times, pull, turned, ⟨y, ended, lkc, service⟩, mpu, pass, rgt, events⟩ := quiet
    have cju : t.cju = { s.cju with wCur := u.cju.wCur, unrevertible := u.cju.unrevertible } := cju.trans cju'
    refine ⟨entries, dev.trans dev', by rw [cju], by rw [cju], by rw [cju], by rw [cju], by rw [cju], vtu.trans vtu',
      start.trans start', times.trans times', pull.trans pull', turned.trans (by rw [ptu']), by rw [cju],
      ⟨y, ended, lkc.trans lkc', fun h => ?_, fun h => ?_⟩, mpu.trans (by rw [mpu']), accounted_one accounted,
      fun h => ?_, fun r hr => ?_, fun h => ?_, fun h => ⟨?_, ?_⟩, fun port law chan g hg n hw word hold check =>
        held port law chan g hg n hw word hold check⟩
    · rw [service, covered h]
    · obtain ⟨-, -, forgets⟩ := uncovered h
      exact service.trans forgets
    · obtain ⟨-, unsigned, -⟩ := accounted
      obtain ⟨sigs, -⟩ := unsigned h
      have pass : t.sgu.pass = s.sgu.pass := pass.trans (by rw [sgu'])
      exact sgu_eq sigs pass
    · rw [rgt, assocFind_modify, if_pos rfl, hr]
      rfl
    · rw [cju, covered h]
      exact ⟨rfl, rfl⟩
    · obtain ⟨running, signed, vital, unmarked⟩ := h
      exact Nat.le_of_not_lt fun room => notDue ⟨running, signed, vital, unmarked, room⟩
    · obtain ⟨marks, lost, -⟩ := uncovered h
      refine ⟨by rw [cju]; exact lost, fun k => ?_, fun off room => ?_⟩
      · rw [cju]
        exact (congrArg (k ∈ ·) marks).to_iff.trans (mem_setInsert _ _ _)
      · obtain ⟨v, hv, body⟩ := event h off room
        exact ⟨v, events v hv (by simp [body, eventKind]), body⟩
  case refine_2 =>
    obtain ⟨region, -⟩ := headDamaged_region (rest := rest) (s := { s with mpu.pointer := p }) hr hc hf
    have events := headDamaged_events (rest := rest) (s := { s with mpu.pointer := p }) hr hc hf
    have quiet := headDamaged_quiet (rest := rest) (s := { s with mpu.pointer := p }) hr hc
    have abandons := headDamaged_abandons (rest := rest) (s := { s with mpu.pointer := p }) hr hc low
    have sgu : (settle (headEnd e rest { s with mpu.pointer := p })).sgu = (headLeft e rest { s with mpu.pointer := p }).sgu := by
      obtain ⟨-, ends, -⟩ := headEnd_rest e rest { s with mpu.pointer := p }
      simp only [settle_keeps]
      rw [ends]
      unfold headLeft
      simp
    unfold unfound at abandons
    rw [← sgu] at abandons
    generalize settle (headEnd e rest { s with mpu.pointer := p }) = t at *
    refine ⟨⟨_, region, rfl, fun hs hd => foundState_ne _ hs hd⟩, events, quiet, fun hs hd ho => ?_⟩
    exact abandons hs hd ho

end Sys2Proof.Machine
end

section
/-! PROOFS. The server's grant (R85, R153 to R156). -/

namespace Sys2Proof.Machine

open Sys2Proof

/-! ### The walk (R155) -/

theorem mem_firstFrom (ds : List Descriptor) (low n : Nat) :
    n ∈ ds.filterMap (fun d => if max d.first low < d.first + d.count then some (max d.first low) else none) ↔
      ∃ d ∈ ds, max d.first low < d.first + d.count ∧ max d.first low = n := by
  simp [List.mem_filterMap]

theorem nextBlock_eq_some_iff (ds : List Descriptor) (low n : Nat) :
    nextBlock ds low = some n ↔
      low ≤ n ∧ (∃ d ∈ ds, d.covers n = true) ∧ ∀ k, low ≤ k → (∃ d ∈ ds, d.covers k = true) → n ≤ k := by
  unfold nextBlock
  simp only [lowestFrom_eq_some_iff, mem_firstFrom, covers_iff]
  constructor
  · rintro ⟨hl, ⟨d, hd, inside, rfl⟩, least⟩
    refine ⟨hl, ⟨d, hd, by omega, inside⟩, fun k hk ⟨e, he, lower, upper⟩ => ?_⟩
    exact (least (max e.first low) (by omega) ⟨e, he, by omega, rfl⟩).trans (by omega)
  · rintro ⟨hl, ⟨d, hd, lower, upper⟩, least⟩
    have first := least (max d.first low) (by omega) ⟨d, hd, by omega, by omega⟩
    refine ⟨hl, ⟨d, hd, by omega, by omega⟩, fun k hk => ?_⟩
    rintro ⟨e, he, inside, rfl⟩
    exact least _ hk ⟨e, he, by omega, inside⟩

theorem nextBlock_eq_none_iff (ds : List Descriptor) (low : Nat) :
    nextBlock ds low = none ↔ ∀ k, low ≤ k → ¬∃ d ∈ ds, d.covers k = true := by
  unfold nextBlock
  simp only [lowestFrom_eq_none_iff, mem_firstFrom, covers_iff]
  constructor
  · rintro none k hk ⟨d, hd, lower, upper⟩
    have := none (max d.first low) ⟨d, hd, by omega, rfl⟩
    omega
  · rintro none k ⟨d, hd, inside, rfl⟩
    exact absurd ⟨d, hd, by omega, inside⟩ (none (max d.first low) (by omega))

theorem inSet_iff_covers (s : State) (k : Nat) :
    Claim.inSet s k ↔ ∃ d ∈ setRegions s s.rse.service.regionSet, d.covers k = true := by
  rw [← inSet_iff, List.any_eq_true]

/-- The walk goes on to the next block of the set. -/
theorem walkFrom_block_iff (s : State) (low n : Nat) :
    walkFrom s s.rse.service.regionSet low = .block n ↔
      low ≤ n ∧ Claim.inSet s n ∧ ∀ k, low ≤ k → Claim.inSet s k → n ≤ k := by
  simp only [inSet_iff_covers, ← nextBlock_eq_some_iff]
  unfold walkFrom
  split
  case h_1 m hm => simp [hm]
  case h_2 hm => simp [hm]

/-- The walk ends above the last block of the set. -/
theorem walkFrom_finished_iff (s : State) (low : Nat) :
    walkFrom s s.rse.service.regionSet low = .finished ↔ ∀ k, low ≤ k → ¬Claim.inSet s k := by
  simp only [inSet_iff_covers, ← nextBlock_eq_none_iff]
  unfold walkFrom
  split
  case h_1 m hm => simp [hm]
  case h_2 hm => simp [hm]

theorem walkFrom_congr {s t : State} (h : tableOf t = tableOf s) (slots : BitVec 16) (low : Nat) :
    walkFrom t slots low = walkFrom s slots low := by
  have descriptors : ∀ u : State, u.rgt.entries.map (fun e => e.2.desc) = (tableOf u).map Prod.snd := fun u => by
    unfold tableOf
    rw [List.map_map]
    rfl
  unfold walkFrom setRegions
  rw [descriptors, descriptors, h]

/-! ### A block that has been considered (R155, R156) -/

/-- What the grant leaves of the service's positions and of its waiting. -/
structure Moved (b : Nat) (s u : State) : Prop where
  walk : u.rse.service.walkPos = if s.rse.service.phase = .walking then some (walkFrom s s.rse.service.regionSet (b + 1))
    else s.rse.service.walkPos
  send : u.rse.service.sendPos = if s.rse.service.phase = .walking then s.rse.service.sendPos else b + 1
  waits : s.rse.service.phase = .resending →
    (u.rse.service.waiting = true ↔ u.cju.resend ≠ [] ∧ ∀ k ∈ u.cju.resend, k ∈ u.rse.service.tried)
  goesOn : s.rse.service.phase ≠ .resending → s.rse.service.waiting = false → u.rse.service.waiting = false

theorem Moved.considered {b : Nat} {s u : State} (h : Moved b s u) : Claim.considered b s u := by
  refine ⟨fun hw => by rw [h.walk, if_neg hw], fun hw n => ?_, fun hw => ?_, h.waits, h.goesOn⟩
  · rw [h.walk, if_pos hw, Option.some.injEq, walkFrom_block_iff]
    exact Iff.rfl
  · rw [h.walk, if_pos hw, Option.some.injEq, walkFrom_finished_iff]
    exact Iff.rfl

theorem Moved.congr_left {b : Nat} {s t u : State} (h : Moved b t u) (service : t.rse.service = s.rse.service)
    (table : tableOf t = tableOf s) : Moved b s u := by
  obtain ⟨walk, send, waits, goesOn⟩ := h
  rw [service] at walk send waits goesOn
  rw [walkFrom_congr table] at walk
  exact ⟨walk, send, waits, goesOn⟩

theorem waiting_iff (phase : ServicePhase) (resend tried : List Nat) (h : phase = .resending) :
    (phase == .resending && !resend.isEmpty && resend.all (fun k => tried.contains k)) = true ↔
      resend ≠ [] ∧ ∀ k ∈ resend, k ∈ tried := by
  simp [h]

theorem waiting_off (phase : ServicePhase) (resend tried : List Nat) (h : phase ≠ .resending) :
    (phase == .resending && !resend.isEmpty && resend.all (fun k => tried.contains k)) = false := by
  simp [h]

/-! ### The work of the grant -/

/-- The reads of the block, with their findings (R46, R153). -/
def served (b : Nat) (s : State) : State := scrubBlock (findUncorrectable none) b s

theorem served_frame (b : Nat) (s : State) :
    served b s = { s with
      rgt.entries := (served b s).rgt.entries
      mpu.mem := (served b s).mpu.mem
      cju := { s.cju with repair := (served b s).cju.repair, repairOverflow := (served b s).cju.repairOverflow }
      ptu.turned := (served b s).ptu.turned
      vtu := { s.vtu with permitted := (served b s).vtu.permitted, level := (served b s).vtu.level }
      rse.pull.clean := (served b s).rse.pull.clean
      cmu := s.cmu.withEvents (served b s).cmu } :=
  scrubBlock_frame (findUncorrectable none) (unread_findUncorrectable none) b s

theorem served_table (b : Nat) (s : State) : tableOf (served b s) = tableOf s :=
  scrubBlock_table (finds_findUncorrectable none) b s

section
variable {b : Nat} {l : Link} {s : State} {ws : List Word}

theorem exec_serverRead (p : Nat) (hg : Claim.grants .serverRead p s) :
    exec .serverRead s = .next (settle (serveBlock { s with mpu.pointer := p })) :=
  congrArg Host.Outcome.next (granted_of_grants .serverRead (fun s => settle (serveBlock s)) p s hg)

/-- The content of a block at the end of cycle c is there (R85). -/
def Found (b : Nat) (ws : List Word) (s : State) : Prop :=
  (∃ e, s.cju.journal.find? (fun e => e.block == b) = some e ∧ (∀ k ∈ e.known, k = true) ∧ ws = e.words) ∨
    s.cju.journal.find? (fun e => e.block == b) = none ∧ b ∉ s.cju.wCur ∧
      (∀ a ∈ blockWords b, (readWord s a).cond ≠ .uncorrectable) ∧
      ws = (blockWords b).map (fun a => (readWord s a).value)

/-- The content of a block at the end of cycle c is nowhere (R85). -/
def Unavailable (b : Nat) (s : State) : Prop :=
  (∃ e, s.cju.journal.find? (fun e => e.block == b) = some e ∧ false ∈ e.known) ∨
    s.cju.journal.find? (fun e => e.block == b) = none ∧ b ∈ s.cju.wCur

theorem serveBlock_of_found (ht : serverTarget s = some b) (h : Found b ws s) :
    serveBlock s = sendBlock b ws (served b s) := by
  unfold serveBlock blockContent
  rw [ht]
  rcases h with ⟨e, found, known, rfl⟩ | ⟨none, unmarked, good, rfl⟩
  · have all : e.known.all id = true := by simpa using known
    simp only [found, all, if_true]
    rfl
  · have clean : ((readBlock s b).any fun c => c.cond == .uncorrectable) = false := by
      simpa [readBlock] using good
    have values : (readBlock s b).map Checked.value = (blockWords b).map fun a => (readWord s a).value := by
      unfold readBlock
      rw [List.map_map]
      rfl
    simp only [none, List.contains_iff_mem, unmarked, if_false, clean, Bool.false_eq_true, values]
    rfl

theorem serveBlock_of_unavailable (ht : serverTarget s = some b) (h : Unavailable b s) :
    serveBlock s = blockUnavailable b (served b s) := by
  unfold serveBlock blockContent
  rw [ht]
  rcases h with ⟨e, found, unknown⟩ | ⟨none, marked⟩
  · have all : e.known.all id = false := by
      rw [List.all_eq_false]
      exact ⟨false, unknown, by simp⟩
    simp only [found, all, Bool.false_eq_true, if_false]
    rfl
  · simp only [none, List.contains_iff_mem, marked, if_true]
    rfl

/-- The block is to be read from the array, and cannot be (R85, R153). -/
def Unreadable (b : Nat) (s : State) : Prop :=
  s.cju.journal.find? (fun e => e.block == b) = none ∧ b ∉ s.cju.wCur ∧
    ∃ a ∈ blockWords b, (readWord s a).cond = .uncorrectable

theorem serveBlock_of_unreadable (ht : serverTarget s = some b) (h : Unreadable b s) :
    serveBlock s = endService .serverLost none (served b s) := by
  obtain ⟨absent, unmarked, bad⟩ := h
  have dirty : ((readBlock s b).any fun c => c.cond == .uncorrectable) = true := by
    simpa [readBlock] using bad
  unfold serveBlock blockContent
  rw [ht]
  simp only [absent, List.contains_iff_mem, unmarked, if_false, dirty, if_true]
  rfl

/-! ### The frame that is sent (R153) -/

theorem sendBlock_service (hl : s.rse.service.requester = some l) :
    (sendBlock b ws s).rse.service =
      { s.rse.service with
        sendPos := if s.rse.service.phase = .walking then s.rse.service.sendPos else b + 1
        walkPos := if s.rse.service.phase = .walking then some (walkFrom s s.rse.service.regionSet (b + 1))
          else s.rse.service.walkPos
        credits := s.rse.service.credits - 1
        sent := satInc Config.count32Max s.rse.service.sent
        tried := setErase s.rse.service.tried b
        waiting := s.rse.service.phase == .resending && !(setErase s.cju.resend b).isEmpty &&
          (setErase s.cju.resend b).all (fun k => (setErase s.rse.service.tried b).contains k) } ∧
      (sendBlock b ws s).cju.resend = setErase s.cju.resend b ∧
      ((sendBlock b ws s).lkc.tx.get l).blocks =
        (s.lkc.tx.get l).blocks ++ [⟨BitVec.ofNat 16 b, s.cju.cycle, ws⟩] := by
  unfold sendBlock
  rw [hl]
  dsimp only
  unfold markWaiting afterBlock
  cases hp : s.rse.service.phase <;> simp [modifyTx, hp, walkFrom, setRegions]

theorem moved_sendBlock (hl : s.rse.service.requester = some l) : Moved b s (sendBlock b ws s) := by
  obtain ⟨service, marks, -⟩ := sendBlock_service (b := b) (ws := ws) hl
  refine ⟨by rw [service], by rw [service], fun hp => ?_, fun hp _ => ?_⟩
  · rw [service, marks]
    exact waiting_iff _ _ _ hp
  · rw [service]
    exact waiting_off _ _ _ hp

/-- A BLOCK that waits when a step ends keeps the service from its end and is queued for the requester (R116, R154). -/
theorem queued_block (f : BlockFrame) (s u : State) (hl : u.rse.service.requester = some l)
    (hf : f ∈ (u.lkc.tx.get l).blocks) : Claim.queued l (.block f) s (settle u) := by
  have lkc : (serviceTick (releaseHeld u)).lkc = u.lkc := by
    unfold serviceTick finishService
    have requester : (nothingLeft (marksReturn (walkEnds (releaseHeld u)))).rse.service.requester = some l := by simp [hl]
    have waiting : blocksGone ((nothingLeft (marksReturn (walkEnds (releaseHeld u)))).lkc.tx.get l) = false := by
      have some : (u.lkc.tx.get l).blocks.isEmpty = false := by
        cases hb : (u.lkc.tx.get l).blocks with
        | nil => rw [hb] at hf; cases hf
        | cons => rfl
      unfold blocksGone
      simp [some]
    rw [requester]
    dsimp only
    rw [if_neg fun ⟨_, _, gone⟩ => Bool.false_ne_true (waiting.symm.trans gone)]
    simp
  unfold settle
  by_cases hp : (serviceTick (releaseHeld u)).position = 3
  · rw [kick_of_position _ hp]
    refine .inr (.inr ⟨f, ?_, rfl⟩)
    rw [lkc]
    exact hf
  · unfold Claim.queued
    rw [kick_tx _ hp, lkc]
    unfold beginFrame
    split
    · exact .inr (.inr ⟨f, hf, rfl⟩)
    · split
      · exact .inr (.inr ⟨f, hf, rfl⟩)
      case h_2 b rest _ blocks =>
        rw [blocks] at hf
        rcases List.mem_cons.1 hf with rfl | later
        · exact .inr (.inl ⟨_, rfl, rfl⟩)
        · exact .inr (.inr ⟨f, later, rfl⟩)
      case h_3 blocks =>
        rw [blocks] at hf
        cases hf

/-! ### A block that is unavailable (R154 to R156) -/

theorem blockUnavailable_walking (hp : s.rse.service.phase = .walking) :
    blockUnavailable b s =
      { s with
        cju := { s.cju with resend := setInsert s.cju.resend b }
        rse.service.walkPos := some (walkFrom s s.rse.service.regionSet (b + 1)) } := by
  unfold blockUnavailable afterBlock
  rw [hp]
  dsimp only
  rw [hp]
  rfl

theorem blockUnavailable_resending (hp : s.rse.service.phase = .resending) :
    blockUnavailable b s =
      { s with rse.service := { s.rse.service with
        sendPos := b + 1
        tried := setInsert s.rse.service.tried b
        waiting := s.rse.service.phase == .resending && !s.cju.resend.isEmpty &&
          s.cju.resend.all (fun k => (setInsert s.rse.service.tried b).contains k) } } := by
  unfold blockUnavailable afterBlock markWaiting
  rw [hp]
  dsimp only
  rw [hp]

theorem moved_blockUnavailable (hp : s.rse.service.phase = .walking ∨ s.rse.service.phase = .resending) :
    Moved b s (blockUnavailable b s) := by
  rcases hp with hp | hp
  · rw [blockUnavailable_walking hp]
    exact ⟨by rw [if_pos hp], by rw [if_pos hp], fun h => absurd (hp.symm.trans h) (by decide), fun _ h => h⟩
  · have other : s.rse.service.phase ≠ .walking := by rw [hp]; decide
    rw [blockUnavailable_resending hp]
    exact ⟨by rw [if_neg other], by rw [if_neg other], fun _ => waiting_iff _ _ _ hp, fun h => absurd hp h⟩

end

/-! ### The step -/

section
variable {b p : Nat} {l : Link} {s : State} {ws : List Word}

theorem served_service (b p : Nat) (s : State) :
    (served b { s with mpu.pointer := p }).rse.service = s.rse.service ∧
      (served b { s with mpu.pointer := p }).cju.resend = s.cju.resend ∧
      (served b { s with mpu.pointer := p }).cju.cycle = s.cju.cycle ∧
      tableOf (served b { s with mpu.pointer := p }) = tableOf s := by
  have table : tableOf (served b { s with mpu.pointer := p }) = tableOf s := served_table b { s with mpu.pointer := p }
  refine ⟨?_, ?_, ?_, table⟩
  all_goals rw [served_frame]

/-- What the grant leaves besides the service (R46, R153). -/
theorem serverRead_rest (ht : serverTarget s = some b)
    {t : State} (hx : t = settle (serveBlock { s with mpu.pointer := p })) :
    Claim.corrected b s t ∧ Claim.countsWords b s t ∧ t.sgu = s.sgu ∧ t.pwq.lower = s.pwq.lower ∧
      t.cju.journal = s.cju.journal ∧ t.cju.wCur = s.cju.wCur ∧ t.cju.cycle = s.cju.cycle ∧ t.dev = s.dev ∧
      t.rse.pull.phase = s.rse.pull.phase := by
  subst hx
  have frame := served_frame b { s with mpu.pointer := p }
  have corrected : Claim.corrected b s (served b { s with mpu.pointer := p }) :=
    corrected_scrubBlock (finds_findUncorrectable none) b { s with mpu.pointer := p }
  have counts : Claim.countsWords b s (served b { s with mpu.pointer := p }) :=
    countsWords_scrubBlock (finds_findUncorrectable none) b { s with mpu.pointer := p }
  have target : serverTarget { s with mpu.pointer := p } = some b := ht
  have work : (serveBlock { s with mpu.pointer := p }).mpu = (served b { s with mpu.pointer := p }).mpu ∧
      (serveBlock { s with mpu.pointer := p }).rgt = (served b { s with mpu.pointer := p }).rgt ∧
      (serveBlock { s with mpu.pointer := p }).sgu = s.sgu ∧ (serveBlock { s with mpu.pointer := p }).pwq.lower = s.pwq.lower ∧
      (serveBlock { s with mpu.pointer := p }).cju.journal = s.cju.journal ∧
      (serveBlock { s with mpu.pointer := p }).cju.wCur = s.cju.wCur ∧
      (serveBlock { s with mpu.pointer := p }).cju.cycle = s.cju.cycle ∧
      (serveBlock { s with mpu.pointer := p }).dev = s.dev ∧
      (serveBlock { s with mpu.pointer := p }).rse.pull.phase = s.rse.pull.phase := by
    have kept : (served b { s with mpu.pointer := p }).sgu = s.sgu ∧ (served b { s with mpu.pointer := p }).pwq = s.pwq ∧
        (served b { s with mpu.pointer := p }).cju.journal = s.cju.journal ∧
        (served b { s with mpu.pointer := p }).cju.wCur = s.cju.wCur ∧
        (served b { s with mpu.pointer := p }).cju.cycle = s.cju.cycle ∧ (served b { s with mpu.pointer := p }).dev = s.dev ∧
        (served b { s with mpu.pointer := p }).rse.pull.phase = s.rse.pull.phase := by
      rw [frame]
      exact ⟨rfl, rfl, rfl, rfl, rfl, rfl, rfl⟩
    unfold serveBlock
    rw [target]
    dsimp only
    rw [← served]
    generalize served b { s with mpu.pointer := p } = t at kept ⊢
    (repeat' split) <;> simp [kept]
  obtain ⟨mpu, rgt, sgu, lower, journal, wCur, cycle, dev, phase⟩ := work
  refine ⟨fun a ha => ?_, ⟨?_, ?_⟩, ?_, ?_, ?_, ?_, ?_, ?_, ?_⟩
  all_goals simp only [settle_keeps]
  · rw [mpu]
    exact corrected a ha
  · rw [rgt]
    exact counts.1
  · rw [rgt]
    exact counts.2
  all_goals assumption

/-- A block whose content is there (R153, R155, R156). -/
theorem serverRead_sends (ht : serverTarget s = some b) (hl : s.rse.service.requester = some l) (h : Found b ws s)
    {t : State} (hx : t = settle (serveBlock { s with mpu.pointer := p })) :
    t.rse.service.credits = s.rse.service.credits - 1 ∧
      t.rse.service.sent = satInc 4294967295 s.rse.service.sent ∧
      Claim.queued l (.block ⟨BitVec.ofNat 16 b, s.cju.cycle, ws⟩) s t ∧
      (∀ k, k ∈ t.cju.resend ↔ k ∈ s.cju.resend ∧ k ≠ b) ∧
      ∃ u, EndOfStep u t ∧
        u.rse.service =
          { s.rse.service with
            sendPos := if s.rse.service.phase = .walking then s.rse.service.sendPos else b + 1
            walkPos := u.rse.service.walkPos
            credits := t.rse.service.credits
            sent := satInc 4294967295 s.rse.service.sent
            tried := u.rse.service.tried
            waiting := u.rse.service.waiting } ∧
        (∀ k, k ∈ u.rse.service.tried ↔ k ∈ s.rse.service.tried ∧ k ≠ b) ∧ Claim.considered b s u := by
  subst hx
  have acts : serveBlock { s with mpu.pointer := p } = sendBlock b ws (served b { s with mpu.pointer := p }) :=
    serveBlock_of_found (s := { s with mpu.pointer := p }) ht h
  obtain ⟨service, marks, cycle, table⟩ := served_service b p s
  have requester : (served b { s with mpu.pointer := p }).rse.service.requester = some l := by rw [service, hl]
  rw [acts]
  obtain ⟨sent, resend, blocks⟩ := sendBlock_service (b := b) (ws := ws) requester
  have moved := (moved_sendBlock (b := b) (ws := ws) requester).congr_left service table
  have queued := queued_block (l := l) ⟨BitVec.ofNat 16 b, s.cju.cycle, ws⟩ s
    (sendBlock b ws (served b { s with mpu.pointer := p })) (by rw [sent]; exact requester) (by rw [blocks, cycle]; simp)
  have ended := settle_end (sendBlock b ws (served b { s with mpu.pointer := p }))
  rw [service] at sent
  rw [marks] at resend
  generalize sendBlock b ws (served b { s with mpu.pointer := p }) = u at *
  have credits : (settle u).rse.service.credits = s.rse.service.credits - 1 := by
    simp only [settle_keeps]
    rw [sent]
  have sentCount : (settle u).rse.service.sent = satInc 4294967295 s.rse.service.sent := by
    simp only [settle_keeps]
    rw [sent]
    rfl
  refine ⟨credits, sentCount, queued, fun k => ?_, u, ended, ?_, fun k => ?_, moved.considered⟩
  · rw [settle_cju, resend, mem_setErase]
  · rw [credits, sent]
    rfl
  · rw [sent]
    exact mem_setErase _ _ _

/-- A service has a phase in which it has a block to consider. -/
theorem phase_of_target (ht : serverTarget s = some b) :
    s.rse.service.phase = .sending ∨ s.rse.service.phase = .walking ∨ s.rse.service.phase = .resending := by
  rcases (serverTarget_eq_some_iff s b).1 ht with ⟨h, -⟩ | ⟨h, -⟩ | ⟨h, -⟩
  · exact .inl h
  · exact .inr (.inl h)
  · exact .inr (.inr h)

/-- A service that ends for a block is idle after the step (R154, R157). -/
theorem endService_idle (result : PullResult) (u : State) (hu : u.rse.service = s.rse.service)
    (hl : s.rse.service.requester = some l) (hs : s.rse.service.phase ≠ .idle) :
    (settle (endService result none u)).rse.service.phase = .idle ∧ (settle (endService result none u)).cju.resend = [] ∧
      (settle (endService result none u)).rse.service.credits = s.rse.service.credits ∧
      (settle (endService result none u)).rse.service.sent = s.rse.service.sent := by
  have active : serving u = true := by simp [serving, hu, hs]
  have frame := endService_of_serving result none l u active (by rw [hu, hl])
  have service : (endService result none u).rse.service = s.rse.service.ended := by rw [frame, hu]
  have idle := service_settle_idle (endService result none u) (by rw [service]; rfl)
  have marks : (endService result none u).cju.resend = [] := by rw [frame]
  rw [idle, settle_cju, service]
  exact ⟨rfl, marks, rfl, rfl⟩

/-- A walk that has left a mark goes on (R155). -/
theorem phase_settle_walking (u : State) (hp : u.rse.service.phase = .walking) (marked : u.cju.resend ≠ []) :
    (settle u).rse.service.phase ≠ .idle := by
  have released : (releaseHeld u).rse.service = u.rse.service ∧ (releaseHeld u).cju = u.cju := by simp
  obtain ⟨service, cju⟩ := released
  have phase : (walkEnds (releaseHeld u)).rse.service.phase ≠ .idle ∧
      (walkEnds (releaseHeld u)).rse.service.phase ≠ .sending ∧
      (walkEnds (releaseHeld u)).rse.service.phase ≠ .finishing := by
    unfold walkEnds
    split
    · exact ⟨nofun, nofun, nofun⟩
    · rw [service, hp]
      exact ⟨by decide, by decide, by decide⟩
  have marks : (walkEnds (releaseHeld u)).cju.resend ≠ [] := by simpa [cju] using marked
  obtain ⟨active, sending, finishing⟩ := phase
  have returns : marksReturn (walkEnds (releaseHeld u)) = walkEnds (releaseHeld u) := if_neg fun h => finishing h.1
  have left : nothingLeft (walkEnds (releaseHeld u)) = walkEnds (releaseHeld u) :=
    if_neg fun h => h.elim (fun h => sending h.1) fun h => marks h.2
  have finish : finishService (walkEnds (releaseHeld u)) = walkEnds (releaseHeld u) := by
    unfold finishService
    split
    · exact if_neg fun h => finishing h.1
    · rfl
  unfold settle serviceTick
  rw [returns, left, finish]
  simpa using active

/-- A block whose content is nowhere (R154 to R156). -/
theorem serverRead_unavailable (ht : serverTarget s = some b) (hl : s.rse.service.requester = some l) (h : Unavailable b s)
    {t : State} (hx : t = settle (serveBlock { s with mpu.pointer := p })) :
    t.rse.service.credits = s.rse.service.credits ∧ t.rse.service.sent = s.rse.service.sent ∧
      (s.rse.service.phase = .sending → t.rse.service.phase = .idle ∧ t.cju.resend = []) ∧
      (s.rse.service.phase = .walking → t.rse.service.phase ≠ .idle ∧
        ∀ k, k ∈ t.cju.resend ↔ k = b ∨ k ∈ s.cju.resend) ∧
      (s.rse.service.phase = .resending → t.cju.resend = s.cju.resend) ∧
      (s.rse.service.phase ≠ .sending → ∃ u, EndOfStep u t ∧
        u.rse.service =
          { s.rse.service with
            sendPos := if s.rse.service.phase = .walking then s.rse.service.sendPos else b + 1
            walkPos := u.rse.service.walkPos
            tried := u.rse.service.tried
            waiting := u.rse.service.waiting } ∧
        (∀ k, k ∈ u.rse.service.tried ↔
          k ∈ s.rse.service.tried ∨ s.rse.service.phase = .resending ∧ k = b) ∧
        Claim.considered b s u) := by
  subst hx
  have acts : serveBlock { s with mpu.pointer := p } = blockUnavailable b (served b { s with mpu.pointer := p }) :=
    serveBlock_of_unavailable (s := { s with mpu.pointer := p }) ht h
  obtain ⟨service, marks, -, table⟩ := served_service b p s
  rw [acts]
  generalize served b { s with mpu.pointer := p } = t at *
  have phase : t.rse.service.phase = s.rse.service.phase := by rw [service]
  rcases phase_of_target ht with hp | hp | hp
  · have ends : blockUnavailable b t = endService .stale none t := by
      unfold blockUnavailable
      rw [phase, hp]
    rw [ends]
    obtain ⟨idle, none, credits, sent⟩ := endService_idle .stale t service hl (by rw [hp]; decide)
    refine ⟨credits, sent, fun _ => ⟨idle, none⟩, fun h => ?_, fun h => ?_, fun h => absurd hp h⟩
    · exact absurd (hp.symm.trans h) (by decide)
    · exact absurd (hp.symm.trans h) (by decide)
  · have walk := blockUnavailable_walking (b := b) (phase.trans hp)
    have moved := (moved_blockUnavailable (b := b) (.inl (phase.trans hp))).congr_left service table
    have goesOn := phase_settle_walking (blockUnavailable b t) (by rw [walk]; exact phase.trans hp) (by
      rw [walk]
      exact List.ne_nil_of_mem ((mem_setInsert _ _ _).2 (.inl rfl)))
    have ended := settle_end (blockUnavailable b t)
    have kept : (blockUnavailable b t).rse.service =
          { s.rse.service with walkPos := (blockUnavailable b t).rse.service.walkPos } ∧
        (blockUnavailable b t).cju.resend = setInsert s.cju.resend b := by
      rw [walk, ← service, ← marks]
      exact ⟨rfl, rfl⟩
    generalize blockUnavailable b t = u at *
    obtain ⟨record, resend⟩ := kept
    have other : s.rse.service.phase ≠ .resending := by rw [hp]; decide
    refine ⟨?_, ?_, fun h => absurd (hp.symm.trans h) (by decide), fun _ => ⟨goesOn, fun k => ?_⟩, fun h => absurd h other,
      fun _ => ⟨u, ended, ?_, fun k => ?_, moved.considered⟩⟩
    · simp only [settle_keeps]
      rw [record]
    · simp only [settle_keeps]
      rw [record]
    · rw [settle_cju, resend, mem_setInsert]
    · rw [if_pos hp, record]
    · rw [record]
      simp [other]
  · have resends := blockUnavailable_resending (b := b) (phase.trans hp)
    have moved := (moved_blockUnavailable (b := b) (.inr (phase.trans hp))).congr_left service table
    have ended := settle_end (blockUnavailable b t)
    have kept : (blockUnavailable b t).rse.service =
          { s.rse.service with
            sendPos := b + 1
            tried := setInsert s.rse.service.tried b
            waiting := (blockUnavailable b t).rse.service.waiting } ∧
        (blockUnavailable b t).cju.resend = s.cju.resend := by
      rw [resends, ← service, ← marks]
      exact ⟨rfl, rfl⟩
    generalize blockUnavailable b t = u at *
    obtain ⟨record, resend⟩ := kept
    have other : s.rse.service.phase ≠ .walking := by rw [hp]; decide
    refine ⟨?_, ?_, fun h => absurd (hp.symm.trans h) (by decide), fun h => absurd h other, fun _ => ?_,
      fun _ => ⟨u, ended, ?_, fun k => ?_, moved.considered⟩⟩
    · simp only [settle_keeps]
      rw [record]
    · simp only [settle_keeps]
      rw [record]
    · rw [settle_cju, resend]
    · rw [if_neg other, record]
    · rw [record, mem_setInsert]
      simp [hp, or_comm]

/-- An UNCORRECTABLE word of a block that is read from the array ends the service (R153, R157). -/
theorem serverRead_unreadable (ht : serverTarget s = some b) (hl : s.rse.service.requester = some l) (h : Unreadable b s)
    {t : State} (hx : t = settle (serveBlock { s with mpu.pointer := p })) :
    t.rse.service.phase = .idle ∧ t.cju.resend = [] ∧ t.rse.service.sent = s.rse.service.sent := by
  subst hx
  obtain ⟨service, -⟩ := served_service b p s
  have active : s.rse.service.phase ≠ .idle := by
    rcases phase_of_target ht with hp | hp | hp
    all_goals rw [hp]; decide
  have acts : serveBlock { s with mpu.pointer := p } = endService .serverLost none (served b { s with mpu.pointer := p }) :=
    serveBlock_of_unreadable (s := { s with mpu.pointer := p }) ht h
  rw [acts]
  generalize served b { s with mpu.pointer := p } = u at *
  obtain ⟨idle, none, -, sent⟩ := endService_idle .serverLost u service hl active
  exact ⟨idle, none, sent⟩

end

/-- Settles O37: a block that is there, one that is unavailable, and one that cannot be read. -/
theorem serverSendsItsBlock : Obligations.ServerSendsItsBlock := by
  unfold Obligations.ServerSendsItsBlock
  refine ⟨serverTarget_eq_some_iff, fun p b l s hg ht hl => ?_⟩
  have run := exec_serverRead p hg
  generalize hx : settle (serveBlock { s with mpu.pointer := p }) = t at run
  obtain ⟨corrected, counts, sgu, lower, journal, wCur, cycle, dev, pulls⟩ := serverRead_rest ht hx.symm
  refine ⟨t, run, corrected, counts, sgu, lower, journal, wCur, cycle, dev, pulls, fun ws h => ?_,
    fun h => serverRead_unavailable ht hl h hx.symm,
    fun h => serverRead_unreadable ht hl h hx.symm⟩
  obtain ⟨credits, sent, queued, marks, u, ended, record, tried, considered⟩ := serverRead_sends ht hl h hx.symm
  exact ⟨credits, sent, queued, marks, u, ended, by rw [record, sent], tried, considered⟩

end Sys2Proof.Machine
end

section
/-! PROOFS. The work of a signing or re-signing grant on its block (R62, R63). -/

namespace Sys2Proof.Machine

open Sys2Proof

/-! ### Stored values (R57, R62) -/

/-- The words' values become their stored values. -/
def takeAll (ws : List (Nat × Word)) (s : State) : State := ws.foldl (fun s w => takeStored w.1 w.2 s) s

theorem takeAll_frame (ws : List (Nat × Word)) (s : State) : takeAll ws s = { s with mpu.mem := (takeAll ws s).mpu.mem } := by
  unfold takeAll
  induction ws generalizing s with
  | nil => rfl
  | cons w ws ih => exact ih (takeStored w.1 w.2 s)

theorem memGet_takeAll (as : List Nat) (value : Nat → Word) (s : State) (nd : as.Nodup) (x : Nat) :
    memGet (takeAll (as.map fun a => (a, value a)) s).mpu.mem x =
      if x ∈ as ∧ x < Config.words then normalWord { memGet s.mpu.mem x with stored := value x }
      else memGet s.mpu.mem x := by
  unfold takeAll
  induction as generalizing s with
  | nil => simp
  | cons a as ih =>
    obtain ⟨fresh, nd⟩ := List.nodup_cons.1 nd
    have first : memGet (takeStored a (value a) s).mpu.mem x =
        if a = x ∧ a < Config.words then normalWord { memGet s.mpu.mem a with stored := value a }
        else memGet s.mpu.mem x := memGet_memPut _ _ _ _
    rw [List.map_cons, List.foldl_cons, ih _ nd, first]
    by_cases hx : a = x
    · subst hx
      simp [fresh]
    · simp [hx, Ne.symm hx]

theorem normalWord_stored_fresh (v : Word) : normalWord { freshWord v with stored := v } = freshWord v := normalWord_fresh v

/-! ### The work of the grant -/

/-- The block read, corrected and counted, with its values stored (R62). -/
def passRead (b : Nat) (s : State) : State :=
  takeAll ((blockWords b).map fun a => (a, (readWord s a).value)) (scrubBlock findInPass b s)

/-- The signing sum after the block (R62). -/
def passSum (b : Nat) (d : Descriptor) (p : SigningPass) (s : State) : Nat :=
  (p.sum + ((blockWords b).map (fun a => wordTerm d (offsetIn d a) (readWord s a).value)).sum) % Config.p

/-- The UNCORRECTABLE words that the pass has met with the block (R165). -/
def badWords (b : Nat) (p : SigningPass) (s : State) : Nat :=
  min 65535 (p.bad + (blockWords b).countP (fun a => (readWord s a).cond == .uncorrectable))

section
variable {k i : Nat} {rest : List Nat} {pass : SigningPass} {r : Region} {s : State}

theorem signBlock_eq (hp : s.sgu.pass = some pass) (hk : pass.slots = k :: rest) (hr : slotRegion s k = some (i, r)) :
    signBlock s =
      if pass.block + 1 < r.desc.first + r.desc.count then
        { passRead pass.block s with
          sgu.pass := some ⟨pass.slots, pass.block + 1, passSum pass.block r.desc pass s, badWords pass.block pass s⟩ }
      else beginRegion rest (badWords pass.block pass s)
        (setSig k (passSum pass.block r.desc pass s) (passRead pass.block s)) := by
  have stored : ((blockWords pass.block).zip (readBlock s pass.block)).foldl (fun s w => takeStored w.1 w.2.value s)
      (scrubBlock findInPass pass.block s) = passRead pass.block s := by
    rw [zip_readBlock, List.foldl_map]
    unfold passRead takeAll
    rw [List.foldl_map]
  have sum : (pass.sum + (((blockWords pass.block).zip (readBlock s pass.block)).map
      (fun w => wordTerm r.desc (offsetIn r.desc w.1) w.2.value)).sum) % Config.p = passSum pass.block r.desc pass s := by
    rw [zip_readBlock, List.map_map]
    rfl
  have bad : min Config.count16Max (pass.bad + ((blockWords pass.block).zip (readBlock s pass.block)).countP
      (fun w => w.2.cond == .uncorrectable)) = badWords pass.block pass s := by
    rw [zip_readBlock, List.countP_map]
    rfl
  unfold signBlock
  rw [hp]
  dsimp only
  rw [hk]
  dsimp only
  rw [hr]
  dsimp only
  rw [stored, sum, bad]

end

section
variable {b : Nat} {s : State}

theorem passRead_frame (b : Nat) (s : State) :
    passRead b s = { s with
      rgt.entries := (scrubBlock findInPass b s).rgt.entries
      mpu.mem := (passRead b s).mpu.mem
      cju := { s.cju with
        repair := (scrubBlock findInPass b s).cju.repair, repairOverflow := (scrubBlock findInPass b s).cju.repairOverflow }
      ptu.turned := (scrubBlock findInPass b s).ptu.turned
      vtu := { s.vtu with
        permitted := (scrubBlock findInPass b s).vtu.permitted, level := (scrubBlock findInPass b s).vtu.level }
      rse.pull.clean := (scrubBlock findInPass b s).rse.pull.clean
      cmu := s.cmu.withEvents (scrubBlock findInPass b s).cmu } := by
  have frame := scrubBlock_frame findInPass unread_findInPass b s
  have stored := takeAll_frame ((blockWords b).map fun a => (a, (readWord s a).value)) (scrubBlock findInPass b s)
  rw [← passRead] at stored
  generalize scrubBlock findInPass b s = t at *
  generalize passRead b s = u at *
  rw [stored, frame]
  rfl

theorem passRead_scrub (b : Nat) (s : State) :
    (passRead b s).rgt = (scrubBlock findInPass b s).rgt ∧ (passRead b s).cmu = (scrubBlock findInPass b s).cmu ∧
      (passRead b s).vtu = (scrubBlock findInPass b s).vtu ∧ (passRead b s).rse = (scrubBlock findInPass b s).rse ∧
      (passRead b s).cju = (scrubBlock findInPass b s).cju := by
  have stored := takeAll_frame ((blockWords b).map fun a => (a, (readWord s a).value)) (scrubBlock findInPass b s)
  rw [← passRead] at stored
  rw [stored]
  exact ⟨rfl, rfl, rfl, rfl, rfl⟩

theorem passRead_table (b : Nat) (s : State) : tableOf (passRead b s) = tableOf s := by
  obtain ⟨rgt, -⟩ := passRead_scrub b s
  exact (tableOf_of_rgt rgt).trans (scrubBlock_table finds_findInPass b s)

/-- The array after the grant (R46, R57, R62). -/
theorem passRead_mem (b : Nat) (s : State) (a : Nat) :
    memGet (passRead b s).mpu.mem a =
      if blockOf a = b ∧ a < Config.words then
        if (readWord s a).cond = .correctable then freshWord (readWord s a).value
        else normalWord { memGet s.mpu.mem a with stored := (readWord s a).value }
      else memGet s.mpu.mem a := by
  unfold passRead
  rw [memGet_takeAll _ _ _ (blockWords_nodup b)]
  unfold scrubBlock
  rw [foldl_scrubWord_mem finds_findInPass _ _ (blockWords_nodup b)]
  simp only [mem_blockWords]
  by_cases hb : blockOf a = b ∧ a < Config.words
  · obtain ⟨block, inside⟩ := hb
    by_cases hc : (readWord s a).cond = .correctable
    · simp only [block, inside, hc, and_true, if_true]
      exact normalWord_stored_fresh _
    · simp only [block, inside, hc, and_true, and_false, if_true, if_false]
  · rw [if_neg hb, if_neg hb, if_neg fun ⟨h1, h2, _⟩ => hb ⟨h1, h2⟩]

/-! ### What a pass records and marks -/

/-- The findings of a pass do not touch the repair list. -/
theorem findInPass_cju (a : Nat) (s : State) : (findInPass a s).cju = s.cju := by
  unfold findInPass
  split
  · simp [countUncorrectable, modifyRegion]
  · rfl

theorem scrubWords_cju (as : List Nat) (s : State) : (as.foldl (fun s a => scrubWord findInPass a s) s).cju = s.cju := by
  induction as generalizing s with
  | nil => rfl
  | cons a as ih =>
    rw [List.foldl_cons, ih]
    cases hc : (readWord s a).cond with
    | good => rw [scrubWord_of_good a s _ hc]
    | correctable => rw [scrubWord_of_correctable a s _ hc]
    | uncorrectable => rw [scrubWord_of_uncorrectable a s _ hc, findInPass_cju]

theorem passRead_cju (b : Nat) (s : State) : (passRead b s).cju = s.cju := by
  obtain ⟨-, -, -, -, cju⟩ := passRead_scrub b s
  exact cju.trans (scrubWords_cju (blockWords b) s)

/-- The events of the block's findings are 17 at most, PERMIT's loss among them. -/
theorem records_passRead (b : Nat) (s : State) : Records Draws.ofFinding 17 s (passRead b s) := by
  obtain ⟨-, cmu, -, -, -⟩ := passRead_scrub b s
  obtain ⟨more, events, few, kinds⟩ := Draws.scrubWords findInPass Draws.findInPass (blockWords b) s
  have same := scrubWords_cju (blockWords b) s
  have length : (blockWords b).length = 16 := by simp [blockWords, Config.blockWords]
  have one := Bool.toNat_le s.vtu.permitted
  rw [same, length] at few
  exact ⟨more, by rw [cmu]; exact events, by omega, kinds⟩

/-- The clean flag of a slot is down. -/
def Unclean (k : Nat) (s : State) : Prop := s.rse.pull.clean.getLsbD k = false

theorem unclean_and {x y : BitVec 16} {k : Nat} (h : x.getLsbD k = false) : (x &&& y).getLsbD k = false := by
  rw [BitVec.getLsbD_and, h, Bool.false_and]

theorem unclean_markSuspect (k i : Nat) (loc : Bool) (s : State) (h : Unclean k s) : Unclean k (markSuspect i loc s) := by
  unfold markSuspect
  split
  · exact h
  · split
    · split
      · exact unclean_and h
      · exact h
    · exact h

theorem unclean_findInPass (k a : Nat) (s : State) (h : Unclean k s) : Unclean k (findInPass a s) := by
  have pull : ∀ i u, (suspectPermit i u).rse = u.rse := by simp
  unfold findInPass
  split
  · unfold Unclean
    rw [pull]
    exact unclean_markSuspect k _ _ _ h
  · exact h

theorem unclean_scrubWords (k : Nat) (as : List Nat) (s : State) (h : Unclean k s) :
    Unclean k (as.foldl (fun s a => scrubWord findInPass a s) s) := by
  induction as generalizing s with
  | nil => exact h
  | cons a as ih =>
    refine ih (scrubWord findInPass a s) ?_
    cases hc : (readWord s a).cond with
    | good => rwa [scrubWord_of_good a s _ hc]
    | correctable => rw [scrubWord_of_correctable a s _ hc]; exact h
    | uncorrectable => rw [scrubWord_of_uncorrectable a s _ hc]; exact unclean_findInPass k a s h

/-- A finding of a pass takes the clean flag of the region's slot down (R12, R149). -/
theorem unclean_of_findInPass {i a : Nat} {s : State} {r q : Region} (hd : s.dev ≠ .configuring)
    (hr : regionOf s (blockOf a) = some (i, q)) (hf : assocFind s.rgt.entries i = some r) (hs : r.desc.signed = true)
    (hk : r.desc.slot < 16) : Unclean r.desc.slot (findInPass a s) := by
  have pull : ∀ i u, (suspectPermit i u).rse = u.rse := by simp
  unfold findInPass Unclean
  rw [hr]
  dsimp only
  rw [pull]
  unfold markSuspect
  rw [if_neg (show (recordEvent _ (countUncorrectable i s)).dev ≠ .configuring from hd),
    show assocFind (recordEvent (.uncorrectable (some i) (byteAddr a) none) (countUncorrectable i s)).rgt.entries i = _ from
      assocFind_counted hf _]
  dsimp only
  rw [if_pos hs, BitVec.getLsbD_and, BitVec.getLsbD_not, BitVec.getLsbD_shiftLeft]
  simp [hk]

/-- A block with an UNCORRECTABLE word takes the clean flag of its region's slot down. -/
theorem unclean_passRead {i b : Nat} {r : Region} (hd : s.dev ≠ .configuring) (hr : regionOf s b = some (i, r))
    (hf : assocFind s.rgt.entries i = some r) (hs : r.desc.signed = true) (hk : r.desc.slot < 16)
    (bad : ∃ a ∈ blockWords b, (readWord s a).cond = .uncorrectable) : Unclean r.desc.slot (passRead b s) := by
  obtain ⟨a, ha, hc⟩ := bad
  obtain ⟨pre, post, -, split, reads⟩ := foldl_scrubWord_split finds_findInPass (blockWords b) (blockWords_nodup b) a ha s
  have before := Worsens.scrubWords findInPass Worsens.findInPass pre s
  obtain ⟨q', hq', hd', -⟩ := before.region i r hf
  obtain ⟨q, hq, -⟩ := regionOf_congr before.table hr
  have found := unclean_of_findInPass (a := a) (by rw [before.dev]; exact hd) (by rw [(mem_blockWords b a).1 ha, hq]) hq'
    (by rw [hd']; exact hs) (by rw [hd']; exact hk)
  obtain ⟨-, -, -, rse, -⟩ := passRead_scrub b s
  unfold Unclean scrubBlock at *
  rw [rse, split, scrubWord_of_uncorrectable a _ _ (by rw [reads, hc]), ← hd']
  exact unclean_scrubWords _ post _ found

end

end Sys2Proof.Machine
end

section
/-! PROOFS. The end of a signing pass (R165, R166) and of a re-signing pass (R149). -/

namespace Sys2Proof.Machine

open Sys2Proof

/-! ### What follows on the last block of a pass -/

/-- The array, the signatures and the counts stay, and no record is lost but to a refusal that extends it. -/
structure Follow (v t : State) : Prop where
  mpu : t.mpu = v.mpu
  sgu : t.sgu = v.sgu
  fingerprint : t.rgt.fingerprint = v.rgt.fingerprint
  counts : bare t.rgt.entries = bare v.rgt.entries
  events : ∀ r ∈ v.cmu.events, eventKind r.body ≠ 1 → r ∈ t.cmu.events

theorem Follow.refl (v : State) : Follow v v := ⟨rfl, rfl, rfl, rfl, fun _ h _ => h⟩

theorem Follow.settle {v t : State} (h : Follow v t) : Follow v (settle t) where
  mpu := by simp [h.mpu]
  sgu := by simp [h.sgu]
  fingerprint := by simp [h.fingerprint]
  counts := by simp [h.counts]
  events r hr hk := mem_events_settle t r hk (h.events r hr hk)

/-! ### The completion check (R149) -/

theorem bare_mended (es : List (Nat × Region)) : bare (mended es) = bare es := by
  unfold bare mended
  rw [List.map_map]
  refine List.map_congr_left fun e _ => ?_
  simp only [Function.comp]
  split <;> rfl

theorem records_failPull (cause : PullCause) (result : Option PullResult) (s : State) :
    ∃ n, Records (fun _ => True) n s (failPull cause result s) := by
  cases hl : s.rse.pull.server with
  | none =>
    have same : failPull cause result s = s := by
      unfold failPull
      rw [hl]
    exact ⟨0, .of_eq (by rw [same])⟩
  | some l =>
    have ended : Records (fun _ => True) 1 s (recordEvent
        (.pullEnded (peerPosition s.position l) result (some cause) s.rse.pull.received)
        (setAgreed false (clearPrev { s with rse.pull := s.rse.pull.failed }))) :=
      (Records.of_eq (n := 0) (t := setAgreed false (clearPrev { s with rse.pull := s.rse.pull.failed }))
        (by simp [clearPrev])).trans (.event _ _ trivial)
    rw [failPull_of_server l cause result s hl]
    exact ⟨_, (ended.trans (.setChan _ _ trivial)).trans (.testFull _ trivial fun _ => trivial)⟩

theorem follow_failPull (cause : PullCause) (result : Option PullResult) (s : State) : Follow s (failPull cause result s) := by
  obtain ⟨n, records⟩ := records_failPull cause result s
  exact ⟨by simp, by simp, by simp, by simp, fun r hr _ => records.mem hr⟩

theorem follow_succeedPull (f : PullEndFrame) (es : List SigEntry) (s : State) : Follow s (succeedPull f es s) := by
  cases hl : s.rse.pull.server with
  | none =>
    have same : succeedPull f es s = s := by
      unfold succeedPull
      rw [hl]
    rw [same]
    exact .refl s
  | some l =>
    have frame := succeedPull_frame l f es s hl
    refine ⟨by simp, by simp, by simp, ?_, fun r hr _ => ?_⟩
    · rw [frame]
      exact bare_mended _
    · rw [frame]
      exact mem_events_recordEvent _ { s with cju.cycle := f.tag } r hr

/-- The check ends the pull, or has no PULL_END to look at. -/
theorem completionCheck_cases (s : State) :
    completionCheck s = s ∨ (∃ f es, s.rse.pull.ending = some f ∧ f.entries = some es ∧
      ((∀ k, k < 16 → Claim.slotPasses s es k) ∧ completionCheck s = succeedPull f es s ∨
        completionCheck s = failPull .mismatch (some f.result) s)) := by
  cases he : s.rse.pull.ending with
  | none =>
    refine .inl ?_
    unfold completionCheck
    rw [he]
  | some f =>
    cases hf : f.entries with
    | none =>
      refine .inl ?_
      unfold completionCheck
      rw [he]
      dsimp only
      rw [hf]
    | some es =>
      refine .inr ⟨f, es, rfl, hf, ?_⟩
      by_cases pass : ∀ k, k < 16 → Claim.slotPasses s es k
      · exact .inl ⟨pass, completionCheck_of_passes f es s he hf pass⟩
      · push Not at pass
        exact .inr (completionCheck_of_fails f es s he hf pass)

theorem follow_completionCheck (s : State) : Follow s (completionCheck s) := by
  rcases completionCheck_cases s with same | ⟨f, es, -, -, ⟨-, same⟩ | same⟩
  · rw [same]
    exact .refl s
  · rw [same]
    exact follow_succeedPull f es s
  · rw [same]
    exact follow_failPull _ _ s

/-- A slot in use whose clean flag is down passes in no comparison (R149). -/
theorem not_slotPasses {k : Nat} {s : State} (es : List SigEntry) (used : slotRegion s k ≠ none) (h : Unclean k s) :
    ¬Claim.slotPasses s es k := by
  rintro ⟨e, -, ⟨-, unused⟩ | ⟨-, -, -, clean⟩⟩
  · exact used unused
  · exact Bool.false_ne_true (h.symm.trans clean)

/-- With such a slot the check leaves the regions as they are. -/
theorem completionCheck_rgt {k : Nat} {s : State} (hk : k < 16) (used : slotRegion s k ≠ none) (h : Unclean k s) :
    (completionCheck s).rgt = s.rgt := by
  rcases completionCheck_cases s with same | ⟨f, es, -, -, ⟨pass, -⟩ | same⟩
  · rw [same]
  · exact absurd (pass k hk) (not_slotPasses es used h)
  · rw [same]
    simp

/-- A slot passes alike where table, signatures and its clean flag are the same. -/
theorem slotPasses_congr {s t : State} (table : tableOf t = tableOf s) (sigs : t.sgu.sigs = s.sgu.sigs)
    (clean : t.rse.pull.clean = s.rse.pull.clean) (es : List SigEntry) (k : Nat) :
    Claim.slotPasses t es k ↔ Claim.slotPasses s es k := by
  have none : slotRegion t k = none ↔ slotRegion s k = none := by
    rw [← Option.isNone_iff_eq_none, ← Option.isNone_iff_eq_none, ← Option.not_isSome, ← Option.not_isSome,
      isSome_slotRegion table k]
  have sig : sigOf t k = sigOf s k := by rw [sigOf, sigOf, sigs]
  unfold Claim.slotPasses
  rw [ne_eq, none, sig, clean]

/-! ### The join (R165, R166) -/

/-- A peer runs ahead by its record. -/
def ahead (s : State) : Bool := runningAhead s.lkc.peers.one || runningAhead s.lkc.peers.two

/-- The start record of the join (R165). -/
def startRecord (bad : Nat) (s : State) : StartRecord :=
  ⟨s.rgt.fingerprint, bad, (s.rgt.entries.filter (fun e => e.2.desc.signed && e.2.suspect)).map Prod.fst, peersHeard s,
    ahead s, s.cmu.ms⟩

/-- The patrol's walk starts where it is enabled (R94). -/
def walkIfEnabled (s : State) : State := if s.ptu.enable then startWalk s else s

theorem walkIfEnabled_keeps (s : State) :
    (walkIfEnabled s).dev = s.dev ∧ (walkIfEnabled s).start = s.start ∧ (walkIfEnabled s).rgt = s.rgt ∧
      (walkIfEnabled s).mpu = s.mpu ∧ (walkIfEnabled s).sgu = s.sgu ∧ (walkIfEnabled s).cmu = s.cmu := by
  unfold walkIfEnabled
  split <;> simp

/-- The part that is RUNNING with its start record, before the channel has a state. -/
def joining (bad : Nat) (s : State) : State :=
  walkIfEnabled (setDev .running (recordEvent (.operationDone (if ahead s then .excluded else .ready) none)
    { s with start := some (startRecord bad s) }))

theorem join_eq (bad : Nat) (s : State) :
    join bad s =
      if ahead s then testFull (setChan (some .excluded) (joining bad s))
      else sortKept (enterReady (setAgreed true
        { joining bad s with vtu := { (joining bad s).vtu with closedSet := ownEntries (joining bad s) } })) := rfl

theorem joining_fields (bad : Nat) (s : State) :
    (joining bad s).dev = .running ∧ (joining bad s).start = some (startRecord bad s) ∧ (joining bad s).rgt = s.rgt ∧
      (joining bad s).mpu = s.mpu ∧ (joining bad s).sgu = s.sgu ∧
      (joining bad s).cmu.events = (recordEvent (.operationDone (if ahead s then .excluded else .ready) none)
        { s with start := some (startRecord bad s) }).cmu.events := by
  unfold joining
  simp [walkIfEnabled_keeps]

/-- What the join leaves. -/
theorem join_fields (bad : Nat) (s : State) :
    (join bad s).dev = .running ∧ (join bad s).start = some (startRecord bad s) ∧ (join bad s).rgt = s.rgt ∧
      (join bad s).mpu = s.mpu ∧ (join bad s).sgu = s.sgu ∧
      (∀ r ∈ (joining bad s).cmu.events, r ∈ (join bad s).cmu.events) ∧
      (ahead s = false → (join bad s).cju.chan = some .ready ∧ (join bad s).vtu.agreedBase = true) ∧
      (ahead s = true → (join bad s).cju.chan = some .excluded ∨ (join bad s).cju.chan = some .restoring) := by
  obtain ⟨dev, start, rgt, mpu, sgu, -⟩ := joining_fields bad s
  rw [join_eq]
  cases ha : ahead s with
  | true =>
    have moved : Records (fun _ => True) 1 (joining bad s) (setChan (some .excluded) (joining bad s)) := .setChan _ _ trivial
    have tested : Records (fun _ => True) 2 _ (testFull (setChan (some .excluded) (joining bad s))) :=
      .testFull _ trivial fun _ => trivial
    rw [if_pos rfl]
    refine ⟨by simp [dev], by simp [start], by simp [rgt], by simp [mpu], by simp [sgu],
      fun r hr => tested.mem (moved.mem hr), fun h => (Bool.false_ne_true h.symm).elim, fun _ => ?_⟩
    have frame := setChan_frame (some .excluded) (joining bad s)
    by_cases due : Claim.pullDue (setChan (some .excluded) (joining bad s))
    · obtain ⟨m, -, -, he⟩ := testFull_of_due _ due
      rw [he, startFull_frame]
      exact .inr rfl
    · rw [testFull_of_not_due _ due, frame]
      exact .inl rfl
  | false =>
    rw [if_neg Bool.false_ne_true]
    refine ⟨by simp [dev], by simp [start], by simp [rgt], by simp [mpu], by simp [sgu], fun r hr => ?_, fun _ => ?_,
      fun h => (Bool.false_ne_true h).elim⟩
    · simp only [sortKept_keeps]
      rw [enterReady_frame, setAgreed_frame]
      exact hr
    · simp only [sortKept_keeps]
      rw [enterReady_frame, setAgreed_frame]
      exact ⟨rfl, rfl⟩

theorem follow_join (bad : Nat) (s : State) : Follow s (join bad s) := by
  obtain ⟨-, -, -, -, -, joined⟩ := joining_fields bad s
  obtain ⟨-, -, rgt, mpu, sgu, events, -⟩ := join_fields bad s
  refine ⟨mpu, sgu, by rw [rgt], by rw [rgt], fun r hr _ => events r ?_⟩
  rw [joined]
  exact mem_events_recordEvent _ { s with start := some (startRecord bad s) } r hr

/-- The join is recorded (R165). -/
theorem event_join (bad : Nat) (s : State) (room : s.cmu.events.length < 64) :
    ∃ v ∈ (join bad s).cmu.events, v.body = .operationDone (if ahead s then .excluded else .ready) none := by
  obtain ⟨-, -, -, -, -, joined⟩ := joining_fields bad s
  obtain ⟨-, -, -, -, -, events, -⟩ := join_fields bad s
  obtain ⟨v, hv, body⟩ := exists_event_recordEvent (.operationDone (if ahead s then .excluded else .ready) none)
    { s with start := some (startRecord bad s) } room
  exact ⟨v, events v (joined ▸ hv), body⟩

/-- The positions of the HEARD peers (R165). -/
theorem getLsbD_peersHeard (s : State) (n : Nat) (hn : n < 3) :
    (peersHeard s).getLsbD n = true ↔ ∃ l, (s.lkc.peers.get l).heard = true ∧ peerPosition s.position l = n := by
  have one : ∀ l, ((if (s.lkc.peers.get l).heard then positionBit (peerPosition s.position l) else 0).getLsbD n = true ↔
      (s.lkc.peers.get l).heard = true ∧ peerPosition s.position l = n) := fun l => by
    cases (s.lkc.peers.get l).heard with
    | true => simp [getLsbD_positionBit _ n hn, eq_comm]
    | false => simp
  have both : (peersHeard s).getLsbD n = true ↔
      ((s.lkc.peers.get .one).heard = true ∧ peerPosition s.position .one = n) ∨
        ((s.lkc.peers.get .two).heard = true ∧ peerPosition s.position .two = n) := by
    rw [← one .one, ← one .two, ← Bool.or_eq_true, ← BitVec.getLsbD_or]
    rfl
  rw [both]
  constructor
  · rintro (h | h)
    · exact ⟨.one, h⟩
    · exact ⟨.two, h⟩
  · rintro ⟨l, h⟩
    cases l with
    | one => exact .inl h
    | two => exact .inr h

theorem runningAhead_iff (p : Peer) : runningAhead p = true ↔ p.heard = true ∧ p.matched = true ∧
    ∃ h, p.hello = some h ∧ h.fields.dev = .running ∧ h.fields.agreedBase = true := by
  unfold runningAhead
  cases p.hello with
  | none => simp
  | some h => simp [and_assoc]

end Sys2Proof.Machine
end

section
/-! PROOFS. The grants of the signing and of the re-signing pass (R62, R63, R149, R165, R166). -/

namespace Sys2Proof.Machine

open Sys2Proof

/-- A grant of a pass, and what follows once the pass has ended. -/
def passStep (E : State → State) (s : State) : State :=
  if (signBlock s).sgu.pass = none then settle (E (signBlock s)) else signBlock s

theorem exec_signingRead (p : Nat) (s : State) (hg : Claim.grants .signing p s) :
    exec .signingRead s =
      .next (passStep (join (passBad { s with mpu.pointer := p })) { s with mpu.pointer := p }) :=
  congrArg Host.Outcome.next (granted_of_grants .signing signingRead p s hg)

theorem exec_reSigningRead (p : Nat) (s : State) (hg : Claim.grants .resigning p s) :
    exec .reSigningRead s = .next (passStep completionCheck { s with mpu.pointer := p }) :=
  congrArg Host.Outcome.next (granted_of_grants .resigning reSigningRead p s hg)

/-- A pass that does not go on raises no clean flag. -/
theorem beginRegion_clean (slots : List Nat) (bad : Nat) (s : State) (h : (beginRegion slots bad s).sgu.pass = none) :
    (beginRegion slots bad s).rse.pull.clean = s.rse.pull.clean := by
  unfold beginRegion at h ⊢
  split
  · rfl
  case h_2 k rest =>
    cases hr : slotRegion s k with
    | none => simp
    | some e => simp [hr] at h

/-- What ends a pass leaves the array and the counts, and a region whose slot is not clean. -/
structure Ends (E : State → State) : Prop where
  follow : ∀ v, Follow v (E v)
  keeps : ∀ v k, k < 16 → slotRegion v k ≠ none → Unclean k v → (E v).rgt = v.rgt

theorem ends_join (bad : Nat) : Ends (join bad) where
  follow := follow_join bad
  keeps v _ _ _ _ := by
    obtain ⟨-, -, rgt, -⟩ := join_fields bad v
    exact rgt

theorem ends_completionCheck : Ends completionCheck where
  follow := follow_completionCheck
  keeps _ _ hk used clean := completionCheck_rgt hk used clean

theorem follow_passStep {E : State → State} (hE : Ends E) (s : State) : Follow (signBlock s) (passStep E s) := by
  unfold passStep
  split
  · exact (hE.follow _).settle
  · exact .refl _

section
variable {k i : Nat} {rest : List Nat} {pass : SigningPass} {r : Region} {s : State}

theorem signed_of_slotRegion (hr : slotRegion s k = some (i, r)) : r.desc.signed = true ∧ r.desc.slot = k := by
  simpa using List.find?_some hr

variable (hp : s.sgu.pass = some pass) (hk : pass.slots = k :: rest) (hr : slotRegion s k = some (i, r))
include hp hk hr

/-- The block's work shows of the grant. -/
theorem signBlock_view :
    (signBlock s).rgt = (passRead pass.block s).rgt ∧ (signBlock s).cmu = (passRead pass.block s).cmu ∧
      (signBlock s).mpu = (passRead pass.block s).mpu ∧
      ((signBlock s).sgu.pass = none → (signBlock s).rse.pull.clean = (passRead pass.block s).rse.pull.clean) := by
  rw [signBlock_eq hp hk hr]
  split
  · exact ⟨rfl, rfl, rfl, fun h => nomatch h⟩
  · refine ⟨by simp, by simp, by simp, fun h => ?_⟩
    exact beginRegion_clean rest _ _ h

section
variable {E : State → State} (hE : Ends E)
include hE

/-- The array after the grant. -/
theorem passStep_mpu :
    (passStep E s).mpu = { s.mpu with mem := (passStep E s).mpu.mem } ∧
      ∀ a, memGet (passStep E s).mpu.mem a = memGet (passRead pass.block s).mpu.mem a := by
  obtain ⟨-, -, mpu, -⟩ := signBlock_view hp hk hr
  have same := (follow_passStep hE s).mpu.trans mpu
  have frame := congrArg (fun u => u.mpu) (passRead_frame pass.block s)
  rw [same]
  exact ⟨frame, fun _ => rfl⟩

/-- The counts after the grant (R13). -/
theorem passStep_counts : Claim.countsWords pass.block s (passStep E s) := by
  obtain ⟨rgt, -⟩ := signBlock_view hp hk hr
  obtain ⟨scrubbed, -⟩ := passRead_scrub pass.block s
  obtain ⟨fingerprint, counts⟩ := countsWords_scrubBlock finds_findInPass pass.block s
  have follow := follow_passStep hE s
  refine ⟨?_, follow.counts.trans ?_⟩
  · rw [follow.fingerprint, rgt, scrubbed, fingerprint]
  · rw [rgt, scrubbed]
    exact counts

/-- An UNCORRECTABLE word leaves its region SUSPECT_UNLOCATED, with its event (R62, R63). -/
theorem passStep_bad (hd : s.dev ≠ .configuring) (h16 : k < 16) (hreg : regionOf s pass.block = some (i, r))
    (hf : assocFind s.rgt.entries i = some r) (a : Nat) (ha : a ∈ blockWords pass.block)
    (hc : (readWord s a).cond = .uncorrectable) :
    (∃ r', assocFind (passStep E s).rgt.entries i = some r' ∧ r'.desc = r.desc ∧ r'.state = .suspectUnlocated) ∧
      (s.cmu.events.length < 47 → ∃ v ∈ (passStep E s).cmu.events, v.body = .uncorrectable (some i) (4 * a) none) := by
  obtain ⟨hs, hslot⟩ := signed_of_slotRegion hr
  obtain ⟨rgt, cmu, -, clean⟩ := signBlock_view hp hk hr
  obtain ⟨scrubbed, records, -⟩ := passRead_scrub pass.block s
  have marked := marked_pass hd hreg hf hs ⟨a, ha, hc⟩
  have unclean := unclean_passRead hd hreg hf hs (by rw [hslot]; exact h16) ⟨a, ha, hc⟩
  rw [hslot] at unclean
  have stays : (passStep E s).rgt = (passRead pass.block s).rgt := by
    unfold passStep
    split
    case isTrue ended =>
      have table : tableOf (signBlock s) = tableOf s := (tableOf_of_rgt rgt).trans (passRead_table pass.block s)
      have used : slotRegion (signBlock s) k ≠ none := by
        have same := isSome_slotRegion table k
        rw [hr] at same
        exact Option.isSome_iff_ne_none.1 same
      simp only [settle_keeps]
      rw [hE.keeps _ k h16 used (by unfold Unclean; rw [clean ended]; exact unclean), rgt]
    case isFalse => exact rgt
  refine ⟨?_, fun room => ?_⟩
  · obtain ⟨r', hr', hd', state⟩ := marked.region
    exact ⟨r', by rw [stays, scrubbed]; exact hr', hd', state⟩
  · obtain ⟨v, hv, body⟩ := event_pass hreg (by omega) a ha hc
    exact ⟨v, (follow_passStep hE s).events v (by rw [cmu, records]; exact hv) (by simp [body, eventKind]), body⟩

omit hE in
/-- Below the last block of the region the pass goes on (R62). -/
theorem passStep_goesOn (more : pass.block + 1 < r.desc.first + r.desc.count) :
    (passStep E s).sgu.sigs = s.sgu.sigs ∧ (passStep E s).dev = s.dev ∧ (passStep E s).cju.chan = s.cju.chan ∧
      (passStep E s).sgu.pass =
        some ⟨pass.slots, pass.block + 1, passSum pass.block r.desc pass s, badWords pass.block pass s⟩ := by
  have acts := signBlock_eq hp hk hr
  rw [if_pos more] at acts
  have goesOn : passStep E s = signBlock s := if_neg (by rw [acts]; exact fun h => nomatch h)
  have cju := passRead_cju pass.block s
  rw [goesOn, acts, passRead_frame]
  exact ⟨rfl, rfl, rfl, rfl⟩

/-- After the last block the sum is the running signature (R62). -/
theorem passStep_sigs (last : ¬pass.block + 1 < r.desc.first + r.desc.count) :
    (passStep E s).sgu.sigs = s.sgu.sigs.set k (passSum pass.block r.desc pass s) := by
  have acts := signBlock_eq hp hk hr
  rw [if_neg last] at acts
  have sgu : (passRead pass.block s).sgu = s.sgu := congrArg (fun u => u.sgu) (passRead_frame pass.block s)
  rw [(follow_passStep hE s).sgu, acts]
  simp only [beginRegion_keeps]
  unfold setSig
  rw [sgu]

omit hE in
/-- The pass goes on to the next region (R62). -/
theorem passStep_next (last : ¬pass.block + 1 < r.desc.first + r.desc.count) (j : Nat) (more : List Nat)
    (hrest : rest = j :: more) (used : slotRegion s j ≠ none) :
    ∃ f, (passStep E s).sgu.pass = some ⟨rest, f, 0, badWords pass.block pass s⟩ ∧
      ∀ e, slotRegion s j = some e → f = e.2.desc.first := by
  have acts := signBlock_eq hp hk hr
  rw [if_neg last, hrest] at acts
  obtain ⟨rgt, -⟩ := signBlock_view hp hk hr
  obtain ⟨d, hd⟩ := Option.ne_none_iff_exists'.1 used
  have table : tableOf (passRead pass.block s) = tableOf s := passRead_table pass.block s
  have found : ∃ e, slotRegion (setSig k (passSum pass.block r.desc pass s) (passRead pass.block s)) j = some e ∧
      e.2.desc = d.2.desc := by
    have mapped : ∀ u, (slotRegion u j).map (fun e => (e.1, e.2.desc)) =
        (tableOf u).find? (fun e => e.2.signed && e.2.slot == j) := fun u => by
      unfold slotRegion tableOf
      rw [List.find?_map]
      rfl
    have same := (mapped (passRead pass.block s)).trans ((congrArg _ table).trans (mapped s).symm)
    rw [hd, Option.map_some] at same
    obtain ⟨e, he, both⟩ := Option.map_eq_some_iff.1 same
    exact ⟨e, he, congrArg Prod.snd both⟩
  obtain ⟨e, he, desc⟩ := found
  have begun := beginRegion_pass j more (badWords pass.block pass s) _ e he
  rw [← acts] at begun
  have goesOn : passStep E s = signBlock s := if_neg (by rw [begun]; exact fun h => nomatch h)
  rw [goesOn, begun, hrest]
  refine ⟨_, rfl, fun x hx => ?_⟩
  rw [hd] at hx
  cases hx
  rw [desc]

end

end

/-! ### The last block of the last region -/

/-- The part whose pass has ended. -/
def passDone (k : Nat) (pass : SigningPass) (r : Region) (s : State) : State :=
  { passRead pass.block s with sgu := ⟨s.sgu.sigs.set k (passSum pass.block r.desc pass s), none⟩ }

theorem passDone_fields (k : Nat) (pass : SigningPass) (r : Region) (s : State) :
    tableOf (passDone k pass r s) = tableOf s ∧ (passDone k pass r s).rgt.fingerprint = s.rgt.fingerprint ∧
      (passDone k pass r s).lkc = s.lkc ∧ (passDone k pass r s).position = s.position ∧
      (passDone k pass r s).cmu.ms = s.cmu.ms ∧ (passDone k pass r s).cju = s.cju ∧
      (passDone k pass r s).rse.pull = { s.rse.pull with clean := (passDone k pass r s).rse.pull.clean } ∧
      Records Draws.ofFinding 17 s (passDone k pass r s) := by
  have table := passRead_table pass.block s
  have frame := passRead_frame pass.block s
  have cju := passRead_cju pass.block s
  have records := records_passRead pass.block s
  unfold passDone
  generalize passRead pass.block s = t at *
  refine ⟨(tableOf_of_rgt (s := t) rfl).trans table, ?_, ?_, ?_, ?_, cju, ?_, records⟩
  all_goals
    dsimp only
    rw [frame]
  rfl

theorem passBad_eq {pass : SigningPass} {s : State} (hp : s.sgu.pass = some pass) : passBad s = badWords pass.block pass s := by
  unfold passBad badWords readBlock
  rw [hp]
  dsimp only
  rw [List.countP_map]
  rfl

/-- A block in order changes nothing that the comparison looks at. -/
theorem passDone_quiet (k : Nat) {pass : SigningPass} (r : Region) {s : State}
    (good : ∀ a ∈ blockWords pass.block, (readWord s a).cond ≠ .uncorrectable) :
    (passDone k pass r s).rse = s.rse ∧ (passDone k pass r s).cmu = s.cmu := by
  obtain ⟨-, cmu, -, rse, -⟩ := passRead_scrub pass.block s
  have quiet := scrubBlock_quiet findInPass pass.block s good
  exact ⟨rse.trans (congrArg (fun u => u.rse) quiet), cmu.trans (congrArg (fun u => u.cmu) quiet)⟩

/-- The join from a part whose pass has ended (R165, R166). -/
theorem settle_join (bad : Nat) (v s : State) (fingerprint : v.rgt.fingerprint = s.rgt.fingerprint) (lkc : v.lkc = s.lkc)
    (position : v.position = s.position) (ms : v.cmu.ms = s.cmu.ms) (pass : v.sgu.pass = none)
    (few : v.cmu.events.length ≤ s.cmu.events.length + 17) {t : State} (ht : t = settle (join bad v)) :
    t.dev = .running ∧ t.sgu.pass = none ∧
      t.start = some ⟨s.rgt.fingerprint, bad,
        (t.rgt.entries.filter (fun e => e.2.desc.signed && e.2.state != .normal)).map Prod.fst, peersHeard s, ahead s,
        s.cmu.ms⟩ ∧
      (s.cmu.events.length < 47 → ∃ v ∈ t.cmu.events,
        v.body = .operationDone (if ahead s then .excluded else .ready) none) ∧
      (ahead s = false → t.cju.chan = some .ready ∧ t.vtu.agreedBase = true) ∧
      (ahead s = true → t.cju.chan = some .excluded ∨ t.cju.chan = some .restoring) := by
  have event := event_join bad v
  obtain ⟨dev, start, rgt, -, sgu, -, ready, excluded⟩ := join_fields bad v
  have same : ahead v = ahead s := by
    unfold ahead
    rw [lkc]
  have heard : peersHeard v = peersHeard s := by
    unfold peersHeard
    rw [lkc, position]
  rw [same] at ready excluded event
  unfold startRecord at start
  rw [same, heard, fingerprint, ms] at start
  rw [← rgt] at start
  generalize join bad v = w at *
  subst ht
  simp only [settle_keeps]
  refine ⟨dev, by rw [sgu, pass], start, fun room => ?_, ready, excluded⟩
  obtain ⟨x, hx, body⟩ := event (by omega)
  exact ⟨x, mem_events_settle _ x (by simp [body, eventKind]) hx, body⟩

section
variable {k i : Nat} {pass : SigningPass} {r : Region} {s : State} (hp : s.sgu.pass = some pass) (hk : pass.slots = [k])
  (hr : slotRegion s k = some (i, r)) (last : ¬pass.block + 1 < r.desc.first + r.desc.count)
include hp hk hr last

theorem passStep_ended (E : State → State) : passStep E s = settle (E (passDone k pass r s)) := by
  have acts := signBlock_eq hp hk hr
  have sgu : (passRead pass.block s).sgu = s.sgu := congrArg (fun u => u.sgu) (passRead_frame pass.block s)
  rw [if_neg last] at acts
  have done : signBlock s = passDone k pass r s := by
    rw [acts]
    unfold passDone
    rw [← sgu]
    rfl
  unfold passStep
  rw [done]
  exact if_pos rfl

/-- The join after the signing pass (R165, R166). -/
theorem signing_joins : passStep (join (passBad s)) s = settle (join (badWords pass.block pass s) (passDone k pass r s)) := by
  rw [passStep_ended hp hk hr last, passBad_eq hp]

/-- The completion check after the pass, where its last block is in order (R149). -/
theorem reSigning_compares (good : ∀ a ∈ blockWords pass.block, (readWord s a).cond ≠ .uncorrectable) {l : Link}
    {f : PullEndFrame} {es : List SigEntry} (server : s.rse.pull.server = some l) (ending : s.rse.pull.ending = some f)
    (entries : f.entries = some es) {t : State} (ht : t = passStep completionCheck s) :
    ((∀ j, j < 16 → Claim.slotPasses { s with sgu.sigs := t.sgu.sigs } es j) → Claim.pullSucceeds 1 l f es s t) ∧
      ((∃ j, j < 16 ∧ ¬Claim.slotPasses { s with sgu.sigs := t.sgu.sigs } es j) →
        Claim.pullFails 1 l .mismatch (some f.result) s t) := by
  obtain ⟨rse, cmu⟩ := passDone_quiet k r good
  obtain ⟨table, -, lkc, position, ms, cju, -⟩ := passDone_fields k pass r s
  have sigs : t.sgu.sigs = (passDone k pass r s).sgu.sigs := by
    rw [ht, passStep_ended hp hk hr last, ((follow_completionCheck _).settle).sgu]
  have pass' : (passDone k pass r s).sgu.pass = none := rfl
  have alike : ∀ j, Claim.slotPasses (passDone k pass r s) es j ↔ Claim.slotPasses { s with sgu.sigs := t.sgu.sigs } es j :=
    slotPasses_congr (s := { s with sgu.sigs := t.sgu.sigs }) table sigs.symm (by rw [rse]) es
  rw [passStep_ended hp hk hr last] at ht
  have records : Records (fun _ => True) 0 s (passDone k pass r s) := .of_eq (by rw [cmu])
  generalize passDone k pass r s = v at *
  refine ⟨fun all => ?_, fun ⟨j, hj, fails⟩ => ?_⟩
  · rw [ht, completionCheck_of_passes f es v (by rw [rse, ending]) entries fun j hj => (alike j).2 (all j hj)]
    exact pullSucceeds_settle 1 0 _ l f es s v (by rw [rse, server]) (by rw [rse]) (by rw [cju])
      table (by rw [rse]) position pass' records (by decide)
  · rw [ht, completionCheck_of_fails f es v (by rw [rse, ending]) entries ⟨j, hj, fun h => fails ((alike j).1 h)⟩]
    exact pullFails_settle 1 0 _ l .mismatch (some f.result) s v (by rw [rse, server]) (by rw [rse]) (by rw [rse]) position
      (by rw [cju]) records (by decide)

/-- The completion check fails after an UNCORRECTABLE word (R149). -/
theorem reSigning_fails (bad : ∃ a ∈ blockWords pass.block, (readWord s a).cond = .uncorrectable) (hd : s.dev ≠ .configuring)
    (h16 : k < 16) (hreg : regionOf s pass.block = some (i, r)) (hf : assocFind s.rgt.entries i = some r) {l : Link}
    {f : PullEndFrame} {es : List SigEntry} (server : s.rse.pull.server = some l) (ending : s.rse.pull.ending = some f)
    (entries : f.entries = some es) : Claim.pullFails 18 l .mismatch (some f.result) s (passStep completionCheck s) := by
  obtain ⟨hs, hslot⟩ := signed_of_slotRegion hr
  obtain ⟨table, -, -, position, -, cju, pull, records⟩ := passDone_fields k pass r s
  have unclean : Unclean k (passDone k pass r s) := by
    have down := unclean_passRead hd hreg hf hs (by rw [hslot]; exact h16) bad
    rw [hslot] at down
    exact down
  have used : slotRegion (passDone k pass r s) k ≠ none := by
    have same := isSome_slotRegion table k
    rw [hr] at same
    exact Option.isSome_iff_ne_none.1 same
  rw [passStep_ended hp hk hr last]
  generalize passDone k pass r s = v at *
  rw [completionCheck_of_fails f es v (by rw [pull, ending]) entries ⟨k, h16, not_slotPasses es used unclean⟩]
  exact pullFails_settle 18 17 _ l .mismatch (some f.result) s v (by rw [pull, server]) (by rw [pull]) (by rw [pull]) position
    (by rw [cju]) records (by decide)

end

section
variable {c : Instr} {g : Grant} {p k i : Nat} {rest : List Nat} {pass : SigningPass} {r : Region} {s : State}

/-- The step of a grant of a pass. -/
theorem exec_pass (hc : c = .signingRead ∧ g = .signing ∨ c = .reSigningRead ∧ g = .resigning) (hg : Claim.grants g p s) :
    ∃ E, Ends E ∧ exec c s = .next (passStep E { s with mpu.pointer := p }) ∧
      (c = .signingRead → E = join (passBad { s with mpu.pointer := p })) ∧
      (c = .reSigningRead → E = completionCheck) := by
  rcases hc with ⟨rfl, rfl⟩ | ⟨rfl, rfl⟩
  · exact ⟨_, ends_join _, exec_signingRead p s hg, fun _ => rfl, fun h => by cases h⟩
  · refine ⟨completionCheck, ends_completionCheck, exec_reSigningRead p s hg, ?_, fun _ => rfl⟩
    intro h
    cases h

end

/-- Settles O40: the block, what stays of the pass, and the join or the comparison that ends it. -/
theorem signingSumsItsBlock : Obligations.SigningSumsItsBlock := by
  unfold Obligations.SigningSumsItsBlock
  refine ⟨fun d i v => by rw [wordTerm, weight_eq, Config.p], runningAhead_iff, fun c g p k rest pass i r s hc hg hp hk hr => ?_⟩
  obtain ⟨E, hE, run, joins, compares⟩ := exec_pass hc hg
  obtain ⟨mpu, array⟩ := passStep_mpu (s := { s with mpu.pointer := p }) hp hk hr hE
  have counts := passStep_counts (s := { s with mpu.pointer := p }) hp hk hr hE
  have bad := passStep_bad (s := { s with mpu.pointer := p }) hp hk hr hE
  have goesOn := passStep_goesOn (s := { s with mpu.pointer := p }) (E := E) hp hk hr
  have sigs := passStep_sigs (s := { s with mpu.pointer := p }) hp hk hr hE
  have next := passStep_next (s := { s with mpu.pointer := p }) (E := E) hp hk hr
  have mem := passRead_mem pass.block { s with mpu.pointer := p }
  generalize ht : passStep E { s with mpu.pointer := p } = t at *
  refine ⟨t, run, mpu, counts, fun a ha => ?_, fun a ha inside => ?_, fun hd h16 hreg hf a ha hc => bad hd h16 hreg hf a ha hc,
    ⟨goesOn, sigs, next, fun hc none last => ?_⟩, fun hc none last l f es server ending entries => ⟨fun good => ?_, fun good => ?_, fun found hd h16 hreg hf => ?_⟩⟩
  · rw [array, mem, if_neg fun h => ha h.1]
  · rw [array, mem, if_pos ⟨ha, inside⟩]
    rfl
  · subst none
    obtain ⟨-, fingerprint, lkc, position, ms, -, -, records⟩ := passDone_fields k pass r { s with mpu.pointer := p }
    have few := records.length_le
    have pass' : (passDone k pass r { s with mpu.pointer := p }).sgu.pass = none := rfl
    rw [joins hc, signing_joins (s := { s with mpu.pointer := p }) hp hk hr last] at ht
    generalize passDone k pass r { s with mpu.pointer := p } = v at *
    obtain ⟨dev, ended, start, event, ready, excluded⟩ := settle_join _ v s fingerprint lkc position ms pass' few ht.symm
    refine ⟨dev, ended, ⟨_, start, rfl, rfl, rfl, fun n hn => getLsbD_peersHeard s n hn, rfl, rfl, event⟩, fun one two => ?_,
      fun either => excluded (by simpa [ahead] using either)⟩
    exact ready (by simp [ahead, one, two])
  · subst none
    obtain ⟨succeeds, -⟩ := reSigning_compares (s := { s with mpu.pointer := p }) (t := t) hp hk hr last good server ending entries
      (by rw [← ht, compares hc])
    exact succeeds
  · subst none
    obtain ⟨-, fails⟩ := reSigning_compares (s := { s with mpu.pointer := p }) (t := t) hp hk hr last good server ending entries
      (by rw [← ht, compares hc])
    exact fails
  · subst none
    have fails := reSigning_fails (s := { s with mpu.pointer := p }) hp hk hr last found hd h16 hreg hf server ending entries
    rw [← compares hc, ht] at fails
    exact fails

end Sys2Proof.Machine
end

section
/-! PROOFS. What the writes of a requester's buffer find (R46). -/

namespace Sys2Proof.Machine

open Sys2Proof

/-! ### Overwriting without a finding -/

/-- An old word is reported only in a signed region and outside CONFIGURING (R46). -/
theorem findOverwritten_idle (a : Nat) (s : State) (h : signedBlock s (blockOf a) = false ∨ s.dev = .configuring) :
    findOverwritten a s = s := by
  unfold findOverwritten
  cases hr : regionOf s (blockOf a) with
  | none => rfl
  | some e =>
    refine if_neg fun ⟨hs, hd⟩ => ?_
    rcases h with h | h
    · unfold signedBlock at h
      rw [hr] at h
      exact Bool.false_ne_true (h.symm.trans hs)
    · exact hd h

theorem signedBlock_congr {s t : State} (h : tableOf t = tableOf s) (b : Nat) : signedBlock t b = signedBlock s b := by
  unfold signedBlock
  cases hr : regionOf s b with
  | none => rw [regionOf_eq_none_congr h hr]
  | some e =>
    obtain ⟨q, hq, hd⟩ := regionOf_congr h (i := e.1) (r := e.2) hr
    rw [hq]
    exact congrArg Descriptor.signed hd

theorem writeWord_rgt (a : Nat) (o v : Word) (s : State) : (writeWord a o v s).rgt = s.rgt ∧
    (writeWord a o v s).vtu = s.vtu ∧ (writeWord a o v s).cmu = s.cmu ∧ (writeWord a o v s).rse = s.rse := by
  simp

/-- A word is overwritten without a finding. -/
theorem overwriteWord_quiet (a : Nat) (v : Word) (s : State)
    (h : (readWord s a).cond = .uncorrectable → signedBlock s (blockOf a) = false ∨ s.dev = .configuring) :
    overwriteWord a v s = writeWord a (readWord s a).value v s := by
  unfold overwriteWord
  dsimp only
  split
  · rw [findOverwritten_idle a s (h ‹_›)]
  · rfl

theorem readWord_overwriteWord (a x : Nat) (v : Word) (s : State) (h : a ≠ x) :
    readWord (overwriteWord a v s) x = readWord s x :=
  readWord_of_mem (by rw [overwriteWord_mem, memGet_memPut_fresh, if_neg fun hc => h hc.1])

theorem readWord_overwriteAll (ws : List (Nat × Word)) (x : Nat) (s : State) (h : x ∉ ws.map Prod.fst) :
    readWord (overwriteAll ws s) x = readWord s x := readWord_of_mem (memGet_overwriteAll ws s x h)

theorem overwriteAll_idle (b : Nat) (ws : List (Nat × Word)) (s : State) (nd : (ws.map Prod.fst).Nodup)
    (hb : ∀ w ∈ ws, blockOf w.1 = b)
    (h : (∃ w ∈ ws, (readWord s w.1).cond = .uncorrectable) → signedBlock s b = false ∨ s.dev = .configuring) :
    (overwriteAll ws s).rgt = s.rgt ∧ (overwriteAll ws s).vtu = s.vtu ∧ (overwriteAll ws s).cmu = s.cmu ∧
      (overwriteAll ws s).rse = s.rse := by
  induction ws generalizing s with
  | nil => exact ⟨rfl, rfl, rfl, rfl⟩
  | cons w ws ih =>
    obtain ⟨fresh, nd⟩ := List.nodup_cons.1 nd
    have word : overwriteWord w.1 w.2 s = writeWord w.1 (readWord s w.1).value w.2 s :=
      overwriteWord_quiet _ _ _ fun hc => by
        rw [hb w List.mem_cons_self]
        exact h ⟨w, List.mem_cons_self, hc⟩
    obtain ⟨rgt', vtu', cmu', rse'⟩ := writeWord_rgt w.1 (readWord s w.1).value w.2 s
    have table : tableOf (overwriteWord w.1 w.2 s) = tableOf s := tableOf_overwriteWord w.1 w.2 s
    obtain ⟨rgt, vtu, cmu, rse⟩ := ih (overwriteWord w.1 w.2 s) nd (fun x hx => hb x (List.mem_cons_of_mem w hx))
      fun ⟨x, hx, hc⟩ => by
        have other : w.1 ≠ x.1 := fun he => fresh (he ▸ List.mem_map.2 ⟨x, hx, rfl⟩)
        rw [readWord_overwriteWord _ _ _ _ other] at hc
        rw [signedBlock_congr table]
        simpa using h ⟨x, List.mem_cons_of_mem w hx, hc⟩
    rw [word] at rgt vtu cmu rse
    unfold overwriteAll at rgt vtu cmu rse ⊢
    rw [List.foldl_cons, word]
    exact ⟨rgt.trans rgt', vtu.trans vtu', cmu.trans cmu', rse.trans rse'⟩

/-! ### Overwriting with findings -/

/-- The region has been struck by a finding of overwriting, and PERMIT is off (R12, R46, R137). -/
structure Struck (i : Nat) (r : Region) (s : State) : Prop where
  region : assocFind s.rgt.entries i = some { r with state := .suspectUnlocated }
  all : AllSuspect i s
  permitted : s.vtu.permitted = false

theorem AllSuspect.markSuspect {i : Nat} {s : State} (h : AllSuspect i s) (j : Nat) (loc : Bool) :
    AllSuspect i (markSuspect j loc s) := by
  unfold Machine.markSuspect
  split
  · exact h
  · split
    · split
      · intro e he hi
        obtain ⟨x, hx, rfl⟩ := List.mem_map.1 he
        by_cases hj : x.1 = j
        · rw [if_pos hj]
          exact suspect_of_called loc x.2
        · rw [if_neg hj] at hi ⊢
          exact h x hx hi
      · exact h
    · exact h

section
variable {b i : Nat} {q r : Region} {s : State}

/-- What a finding of overwriting does in a signed region. -/
theorem findOverwritten_of_signed {a : Nat} (hr : regionOf s (blockOf a) = some (i, q)) (hs : q.desc.signed = true)
    (hd : s.dev ≠ .configuring) :
    findOverwritten a s =
      suspectPermit i (markSuspect i false (recordEvent (.uncorrectable (some i) (byteAddr a) none) s)) := by
  unfold findOverwritten
  rw [hr]
  exact if_pos ⟨hs, hd⟩

theorem struck_of_finding {a : Nat} {r' : Region} (hr : regionOf s (blockOf a) = some (i, q)) (hd : s.dev ≠ .configuring)
    (hq : q.desc = r.desc) (hs : r.desc.signed = true) (hf : assocFind s.rgt.entries i = some r')
    (same : { r' with state := .suspectUnlocated } = { r with state := .suspectUnlocated }) :
    Struck i r (findOverwritten a s) := by
  obtain ⟨desc, -⟩ := Region.mk.inj same
  have signed : r'.desc.signed = true := by rw [desc]; exact hs
  rw [findOverwritten_of_signed hr (by rw [hq]; exact hs) hd]
  have dev : (recordEvent (.uncorrectable (some i) (byteAddr a) none) s).dev ≠ .configuring := hd
  have region : assocFind (recordEvent (.uncorrectable (some i) (byteAddr a) none) s).rgt.entries i = some r' := hf
  generalize recordEvent (.uncorrectable (some i) (byteAddr a) none) s = u at *
  have marked := markSuspect_of_signed i false u r' dev region signed
  rw [calledState_false, same] at marked
  have table : (suspectPermit i (markSuspect i false u)).rgt = (markSuspect i false u).rgt := by simp
  refine ⟨by rw [table, marked], (allSuspect_markSuspect i false u r' dev region signed).of_rgt table, ?_⟩
  exact suspectPermit_of_suspect i _ { r with state := .suspectUnlocated } marked hs (by simp)

theorem Struck.writeWord (h : Struck i r s) (a : Nat) (o v : Word) : Struck i r (writeWord a o v s) := by
  obtain ⟨rgt, vtu, -⟩ := writeWord_rgt a o v s
  exact ⟨by rw [rgt, h.region], h.all.of_rgt rgt, by rw [vtu, h.permitted]⟩

/-- A region that overwriting meets: untouched, or struck already. -/
def Met (i : Nat) (r : Region) (s : State) : Prop := assocFind s.rgt.entries i = some r ∨ Struck i r s

section
variable {w : Nat × Word} (hw : blockOf w.1 = b) (hr : regionOf s b = some (i, q)) (hq : q.desc = r.desc)
  (hs : r.desc.signed = true) (hd : s.dev ≠ .configuring)
include hw hr hq hs hd

theorem struck_of_uncorrectable (h : Met i r s) (hc : (readWord s w.1).cond = .uncorrectable) :
    Struck i r (overwriteWord w.1 w.2 s) := by
  have region : regionOf s (blockOf w.1) = some (i, q) := by rw [hw, hr]
  have struck : Struck i r (findOverwritten w.1 s) := by
    rcases h with fresh | struck
    · exact struck_of_finding region hd hq hs fresh rfl
    · exact struck_of_finding region hd hq hs struck.region rfl
  unfold overwriteWord
  dsimp only
  rw [if_pos hc]
  exact struck.writeWord _ _ _

theorem Struck.overwriteWord (h : Struck i r s) : Struck i r (overwriteWord w.1 w.2 s) := by
  by_cases hc : (readWord s w.1).cond = .uncorrectable
  · exact struck_of_uncorrectable hw hr hq hs hd (.inr h) hc
  · rw [overwriteWord_quiet _ _ _ fun h => absurd h hc]
    exact h.writeWord _ _ _

theorem Met.overwriteWord (h : Met i r s) : Met i r (overwriteWord w.1 w.2 s) := by
  by_cases hc : (readWord s w.1).cond = .uncorrectable
  · exact .inr (struck_of_uncorrectable hw hr hq hs hd h hc)
  · rcases h with fresh | struck
    · obtain ⟨rgt, -⟩ := writeWord_rgt w.1 (readWord s w.1).value w.2 s
      refine .inl ?_
      rw [overwriteWord_quiet _ _ _ fun h => absurd h hc, rgt, fresh]
    · exact .inr (struck.overwriteWord hw hr hq hs hd)

end

/-- A property that each word's overwriting keeps is kept by all of them. -/
theorem overwriteAll_induction {P : State → Prop} (ws : List (Nat × Word)) (hb : ∀ w ∈ ws, blockOf w.1 = b)
    (step : ∀ (w : Nat × Word) u q, blockOf w.1 = b → tableOf u = tableOf s → u.dev = s.dev → regionOf u b = some (i, q) → q.desc = r.desc →
      P u → P (overwriteWord w.1 w.2 u)) (hr : regionOf s b = some (i, r)) (u : State) (table : tableOf u = tableOf s)
    (dev : u.dev = s.dev) (h : P u) : P (overwriteAll ws u) := by
  induction ws generalizing u with
  | nil => exact h
  | cons w ws ih =>
    obtain ⟨q, hq, hd⟩ := regionOf_congr table hr
    exact ih (fun x hx => hb x (List.mem_cons_of_mem w hx)) (overwriteWord w.1 w.2 u)
      ((tableOf_overwriteWord w.1 w.2 u).trans table) (by simpa using dev)
      (step w u q (hb w List.mem_cons_self) table dev hq hd h)

variable (hr : regionOf s b = some (i, r)) (hs : r.desc.signed = true) (hd : s.dev ≠ .configuring)
include hr

/-- The writes up to one of the words, and after it. -/
theorem overwriteAll_split (ws : List (Nat × Word)) (nd : (ws.map Prod.fst).Nodup) (w : Nat × Word) (hw : w ∈ ws) :
    ∃ pre post, ws = pre ++ w :: post ∧
      overwriteAll ws s = overwriteAll post (overwriteWord w.1 w.2 (overwriteAll pre s)) ∧
      readWord (overwriteAll pre s) w.1 = readWord s w.1 ∧
      ∃ q, regionOf (overwriteAll pre s) b = some (i, q) ∧ q.desc = r.desc := by
  obtain ⟨pre, post, rfl⟩ := List.append_of_mem hw
  rw [List.map_append, List.map_cons, List.nodup_append] at nd
  obtain ⟨-, -, apart⟩ := nd
  have fresh : w.1 ∉ pre.map Prod.fst := fun hp => apart w.1 hp w.1 List.mem_cons_self rfl
  refine ⟨pre, post, rfl, ?_, readWord_overwriteAll pre w.1 s fresh, regionOf_congr (tableOf_overwriteAll pre s) hr⟩
  unfold overwriteAll
  rw [List.foldl_append, List.foldl_cons]

include hs hd

/-- An UNCORRECTABLE word strikes its region (R46). -/
theorem struck_overwriteAll (ws : List (Nat × Word)) (nd : (ws.map Prod.fst).Nodup) (hb : ∀ w ∈ ws, blockOf w.1 = b)
    (hf : assocFind s.rgt.entries i = some r) (bad : ∃ w ∈ ws, (readWord s w.1).cond = .uncorrectable) :
    Struck i r (overwriteAll ws s) := by
  obtain ⟨w, hw, hc⟩ := bad
  obtain ⟨pre, post, rfl, split, reads, q, hq, desc⟩ := overwriteAll_split hr ws nd w hw
  have inPre : ∀ x ∈ pre, blockOf x.1 = b := fun x hx => hb x (List.mem_append_left _ hx)
  have inPost : ∀ x ∈ post, blockOf x.1 = b := fun x hx => hb x (List.mem_append_right _ (List.mem_cons_of_mem w hx))
  have before : Met i r (overwriteAll pre s) := overwriteAll_induction pre inPre
    (fun x u q hx _ dev hq hqd h => h.overwriteWord hx hq hqd hs (by rw [dev]; exact hd)) hr s rfl rfl (.inl hf)
  have table := tableOf_overwriteAll pre s
  have dev : (overwriteAll pre s).dev = s.dev := by simp
  have bad : (readWord (overwriteAll pre s) w.1).cond = .uncorrectable := by rw [reads, hc]
  rw [split]
  generalize overwriteAll pre s = u at *
  have struck := struck_of_uncorrectable (hb w hw) hq desc hs (by rw [dev]; exact hd) before bad
  have table' : tableOf (overwriteWord w.1 w.2 u) = tableOf s := (tableOf_overwriteWord w.1 w.2 u).trans table
  have dev' : (overwriteWord w.1 w.2 u).dev = s.dev := by simpa using dev
  exact overwriteAll_induction post inPost
    (fun x u q hx _ dev hq hqd h => h.overwriteWord hx hq hqd hs (by rw [dev]; exact hd)) hr _ table' dev' struck

/-- Each UNCORRECTABLE word has its event (R46). -/
theorem event_overwriteAll (ws : List (Nat × Word)) (nd : (ws.map Prod.fst).Nodup) (hb : ∀ w ∈ ws, blockOf w.1 = b)
    (few : ws.length ≤ 16) (room : s.cmu.events.length < 47) (w : Nat × Word) (hw : w ∈ ws)
    (hc : (readWord s w.1).cond = .uncorrectable) :
    ∃ v ∈ (overwriteAll ws s).cmu.events, v.body = .uncorrectable (some i) (4 * w.1) none := by
  obtain ⟨pre, post, rfl, split, reads, q, hq, desc⟩ := overwriteAll_split hr ws nd w hw
  rw [List.length_append, List.length_cons] at few
  have before := (Spends.overwriteAll pre s).records.length_le
  have dev : (overwriteAll pre s).dev ≠ .configuring := by simpa using hd
  have region : regionOf (overwriteAll pre s) (blockOf w.1) = some (i, q) := by rw [hb w hw, hq]
  have bad : (readWord (overwriteAll pre s) w.1).cond = .uncorrectable := by rw [reads, hc]
  rw [split]
  generalize overwriteAll pre s = u at *
  obtain ⟨v, hv, body⟩ := exists_event_recordEvent (.uncorrectable (some i) (byteAddr w.1) none) u (by omega)
  have found : v ∈ (overwriteWord w.1 w.2 u).cmu.events := by
    unfold overwriteWord
    dsimp only
    rw [if_pos bad, findOverwritten_of_signed region (by rw [desc]; exact hs) dev]
    simp only [writeWord_keeps]
    exact ((Draws.markSuspect i false _).trans (Draws.suspectPermit i _)).records.mem hv
  exact ⟨v, (Spends.overwriteAll post _).records.mem found, body⟩

end

end Sys2Proof.Machine
end

section
/-! PROOFS. A requester's grant writes its oldest buffer (R58, R60, R146, R148, R149). -/

namespace Sys2Proof.Machine

open Sys2Proof

/-! ### What overwriting leaves of the pull and of the array's unit -/

theorem pull_eq_of_fields {p q : Pull} (phase : p.phase = q.phase) (kind : p.kind = q.kind) (server : p.server = q.server)
    (target : p.target = q.target) (regionSet : p.regionSet = q.regionSet) (buffers : p.buffers = q.buffers)
    (received : p.received = q.received) (timer : p.timer = q.timer) (attempts : p.attempts = q.attempts)
    (ending : p.ending = q.ending) : p = { q with clean := p.clean } := by
  cases p
  cases q
  simp_all

theorem overwriteAll_pull (ws : List (Nat × Word)) (s : State) :
    (overwriteAll ws s).rse.pull = { s.rse.pull with clean := (overwriteAll ws s).rse.pull.clean } := by
  apply pull_eq_of_fields <;> simp

theorem mpu_eq_of_fields {m n : Mpu} (slots : m.slots = n.slots) (pointer : m.pointer = n.pointer)
    (writeBack : m.writeBack = n.writeBack) (initOp : m.initOp = n.initOp) : m = { n with mem := m.mem } := by
  cases m
  cases n
  simp_all

theorem overwriteAll_mpu (ws : List (Nat × Word)) (s : State) :
    (overwriteAll ws s).mpu = { s.mpu with mem := (overwriteAll ws s).mpu.mem } := by
  apply mpu_eq_of_fields <;> simp

/-- The words of a buffer are words of its block. -/
theorem blockOf_of_mem_blockWrites {b : Nat} {ws : List Word} {w : Nat × Word} (h : w ∈ blockWrites b ws) :
    blockOf w.1 = b := (mem_blockWords b w.1).1 (List.of_mem_zip h).1

theorem length_blockWrites (b : Buffer) (len : b.words.length = 16) : (blockWrites b.block b.words).length = 16 := by
  simp [blockWrites, blockWords, len, Config.blockWords]

/-- A full buffer has a word for every address of its block. -/
theorem exists_mem_blockWrites {b : Buffer} (len : b.words.length = 16) {a : Nat} (ha : a ∈ blockWords b.block) :
    ∃ v, (a, v) ∈ blockWrites b.block b.words := by
  have firsts : (blockWrites b.block b.words).map Prod.fst = blockWords b.block :=
    List.map_fst_zip (by simp [blockWords, len, Config.blockWords])
  rw [← firsts] at ha
  obtain ⟨⟨x, v⟩, hw, rfl⟩ := List.mem_map.1 ha
  exact ⟨v, hw⟩

/-! ### The state after the write, before the checks -/

/-- W_PREV with the block of a DELTA pull (R146). -/
def wPrevWith (b : Buffer) (s : State) : List Nat :=
  if s.rse.pull.kind = some .delta then setInsert s.cju.wPrev b.block else s.cju.wPrev

/-- The part that has written the buffer and returned its credit. -/
def writtenOut (b : Buffer) (rest : List Buffer) (l : Link) (s : State) : State :=
  sendCtrl (.credit 1) l
    { overwriteAll (blockWrites b.block b.words) s with
      cju := { s.cju with wPrev := wPrevWith b s }
      rse := { (overwriteAll (blockWrites b.block b.words) s).rse with
        pull := { (overwriteAll (blockWrites b.block b.words) s).rse.pull with buffers := rest } } }

section
variable {b : Buffer} {rest : List Buffer} {l : Link} {s : State}

theorem writeBuffer_eq (hb : s.rse.pull.buffers = b :: rest) (hl : s.rse.pull.server = some l) :
    writeBuffer s = pullProgress (writtenOut b rest l s) := by
  have kind : (overwriteAll (blockWrites b.block b.words) s).rse.pull.kind = s.rse.pull.kind := by simp
  have cju : (overwriteAll (blockWrites b.block b.words) s).cju = s.cju := by simp
  unfold writeBuffer writtenOut wPrevWith
  rw [hb, hl]
  dsimp only
  rw [← cju]
  split <;> rfl

theorem mem_wPrevWith (k : Nat) :
    k ∈ wPrevWith b s ↔ k ∈ s.cju.wPrev ∨ k = b.block ∧ s.rse.pull.kind = some .delta := by
  unfold wPrevWith
  split
  case isTrue hk => rw [mem_setInsert, and_iff_left hk, or_comm]
  case isFalse hk => rw [iff_comm, or_iff_left fun h => hk h.2]

/-- What the write leaves beside the array, the findings and the credit. -/
theorem writtenOut_frame : writtenOut b rest l s =
    { overwriteAll (blockWrites b.block b.words) s with
      cju := { s.cju with wPrev := wPrevWith b s }
      rse.pull := { s.rse.pull with buffers := rest, clean := (overwriteAll (blockWrites b.block b.words) s).rse.pull.clean }
      lkc.tx := (writtenOut b rest l s).lkc.tx } := by
  unfold writtenOut
  rw [sendCtrl_frame, overwriteAll_pull]

/-- The credit waits on the server's link. -/
theorem writtenOut_tx (hp : s.position ≠ 3) :
    (writtenOut b rest l s).lkc.tx.get l =
      { s.lkc.tx.get l with ctrl := queueCtrl (.credit 1) (s.lkc.tx.get l).ctrl } := by
  unfold writtenOut
  rw [sendCtrl_tx _ _ _ (by simpa using hp), PerLink.get_put, if_pos rfl]
  dsimp only
  simp only [overwriteAll_keeps]

/-- Writing changes nothing that a HELLO tells (R113). -/
theorem helloFields_writtenOut : helloFields (writtenOut b rest l s) = helloFields s := by
  rw [writtenOut_frame]
  simp [helloFields, serving]

/-- The credit's frame begins where the link can begin one. -/
theorem tx_settle_writtenOut (hp : s.position ≠ 3) (idle : s.rse.service.phase = .idle) :
    (settle (writtenOut b rest l s)).lkc.tx.get l =
      beginFrame s { s.lkc.tx.get l with ctrl := queueCtrl (.credit 1) (s.lkc.tx.get l).ctrl } := by
  have service : (writtenOut b rest l s).rse.service = s.rse.service := by
    rw [writtenOut_frame]
    simp
  have position : (writtenOut b rest l s).position = s.position := by
    rw [writtenOut_frame]
    simp
  have sent : sentFingerprint (writtenOut b rest l s) = sentFingerprint s := by
    rw [writtenOut_frame]
    simp [sentFingerprint]
  have hello := helloFields_writtenOut (b := b) (rest := rest) (l := l) (s := s)
  have tx := writtenOut_tx (b := b) (rest := rest) (l := l) hp
  generalize writtenOut b rest l s = v at *
  rw [settle_of_idle v (by rw [service, idle]), kick_tx _ (by simpa [position] using hp)]
  simp only [releaseHeld_lkc, tx]
  refine beginFrame_congr ?_ (fun c => ?_) _
  · rw [← sent]
    simp [sentFingerprint]
  · cases c with
    | hello =>
      refine congrArg FrameBody.hello ?_
      rw [← hello]
      simp [helloFields, serving]
    | vote | pull | credit | pullEnd => rfl

/-! ### The checks after the last buffer (R148, R149) -/

/-- What the checks see of the part: its signatures, regions and clean flags as the write has left them. -/
def shown (b : Buffer) (v s : State) : State :=
  { s with
    sgu.sigs := v.sgu.sigs
    cju.wPrev := wPrevWith b s
    rgt.entries := v.rgt.entries
    rse.pull.clean := v.rse.pull.clean }

section
variable {f : PullEndFrame} {es : List SigEntry}

theorem completing_writtenOut (hl : s.rse.pull.server = some l) (hp : s.rse.pull.phase = .completing)
    (pass : s.sgu.pass = none) (he : s.rse.pull.ending = some f) (hf : f.entries = some es) :
    Completing l f es (shown b (writtenOut b [] l s) s) (writtenOut b [] l s) := by
  have frame := writtenOut_frame (b := b) (rest := []) (l := l) (s := s)
  have signing : (overwriteAll (blockWrites b.block b.words) s).sgu.pass = none := by simpa using pass
  have position : (overwriteAll (blockWrites b.block b.words) s).position = s.position := by simp
  generalize writtenOut b [] l s = v at *
  generalize overwriteAll (blockWrites b.block b.words) s = o at *
  generalize v.lkc.tx = tx at frame
  subst frame
  exact ⟨hl, he, hf, hp, rfl, signing, rfl, rfl, rfl, rfl, fun _ _ => rfl, rfl, rfl, rfl, position, rfl, rfl⟩

end

/-- With a SUSPECT slot the clean flags are not looked at. -/
theorem buffersWritten_of_suspect {room k : Nat} {f : PullEndFrame} {es : List SigEntry} {u t : State} {e : Nat × Region}
    (hk : k < 16) (he : slotRegion u k = some e) (hs : e.2.state ≠ .normal) (c : BitVec 16)
    (h : Claim.buffersWritten room l f es u t) : Claim.buffersWritten room l f es { u with rse.pull.clean := c } t := by
  obtain ⟨tag, count, suspect, -⟩ := h
  exact ⟨tag, count, suspect, fun _ _ clean => absurd (clean k e hk he) hs⟩

theorem buffers_failPull (cause : PullCause) (result : Option PullResult) (s : State) (h : s.rse.pull.buffers = []) :
    (failPull cause result s).rse.pull.buffers = [] := by
  cases hl : s.rse.pull.server with
  | none =>
    unfold failPull
    rw [hl]
    exact h
  | some l =>
    rw [failPull_of_server l cause result s hl]
    by_cases due : Claim.pullDue (failedPull l cause result s)
    · obtain ⟨m, -, -, he⟩ := testFull_of_due _ due
      rw [he, startFull_frame]
      rfl
    · rw [testFull_of_not_due _ due, failedPull_frame]
      rfl

theorem buffers_completionCheck (s : State) (h : s.rse.pull.buffers = []) : (completionCheck s).rse.pull.buffers = [] := by
  rcases completionCheck_cases s with same | ⟨f, es, -, -, ⟨-, same⟩ | same⟩
  · rw [same, h]
  · rw [same]
    cases hl : s.rse.pull.server with
    | none =>
      unfold succeedPull
      rw [hl]
      exact h
    | some l =>
      rw [succeedPull_frame l f es s hl]
      exact h
  · rw [same]
    exact buffers_failPull _ _ s h

/-- The checks leave no buffer full. -/
theorem buffers_pullProgress (s : State) (h : s.rse.pull.buffers = []) : (pullProgress s).rse.pull.buffers = [] := by
  unfold pullProgress
  split
  · split
    · split
      · exact buffers_failPull _ _ s h
      · split
        · exact buffers_failPull _ _ s h
        · split
          · exact buffers_completionCheck s h
          · rw [beginRegion_frame]
            exact h
    · exact h
  · exact h

theorem permitted_failPull (cause : PullCause) (result : Option PullResult) (s : State) (h : s.vtu.permitted = false) :
    (failPull cause result s).vtu.permitted = false := by
  cases hl : s.rse.pull.server with
  | none =>
    unfold failPull
    rw [hl]
    exact h
  | some l =>
    have failed : (failedPull l cause result s).vtu.permitted = false := by
      rw [failedPull_frame]
      exact (congrArg Vtu.permitted (Vtu.toChan_off { s.vtu with agreedBase := false } _ _ h)).trans h
    rw [failPull_of_server l cause result s hl]
    by_cases due : Claim.pullDue (failedPull l cause result s)
    · obtain ⟨m, -, -, he⟩ := testFull_of_due _ due
      rw [he, startFull_frame]
      exact (congrArg Vtu.permitted (Vtu.toChan_off _ _ _ failed)).trans failed
    · rw [testFull_of_not_due _ due, failed]

/-- The checks take no record away. -/
theorem events_pullProgress (s : State) (r : Record) (hr : r ∈ s.cmu.events) (hk : eventKind r.body ≠ 1) :
    r ∈ (pullProgress s).cmu.events := by
  unfold pullProgress
  split
  · split
    · split
      · exact (follow_failPull _ _ s).events r hr hk
      · split
        · exact (follow_failPull _ _ s).events r hr hk
        · split
          · exact (follow_completionCheck s).events r hr hk
          · rw [beginRegion_frame]
            exact hr
    · exact hr
  · exact hr

/-- With a SUSPECT slot the checks leave the regions and PERMIT as they are. -/
theorem pullProgress_of_suspect {k : Nat} {e : Nat × Region} (hk : k < 16) (he : slotRegion s k = some e)
    (hs : e.2.state ≠ .normal) (off : s.vtu.permitted = false) :
    (pullProgress s).rgt.entries = s.rgt.entries ∧ (pullProgress s).vtu.permitted = false := by
  have slots : slotsWith s Region.suspect ≠ [] := fun h => hs ((slotsWith_suspect_eq_nil_iff s).1 h k e hk he)
  unfold pullProgress
  split
  · split
    · split
      · exact ⟨by simp, permitted_failPull _ _ s off⟩
      · split
        · exact ⟨by simp, permitted_failPull _ _ s off⟩
        · split
          · exact absurd ‹_› slots
          · rw [beginRegion_frame]
            exact ⟨rfl, off⟩
    · exact ⟨rfl, off⟩
  · exact ⟨rfl, off⟩

theorem slotRegion_of_tableOf {s t : State} {n i : Nat} {r : Region} (h : tableOf t = tableOf s)
    (hr : slotRegion s n = some (i, r)) : ∃ q, slotRegion t n = some (i, q) ∧ q.desc = r.desc := by
  have mapped : ∀ u, (slotRegion u n).map (fun e => (e.1, e.2.desc)) =
      (tableOf u).find? (fun e => e.2.signed && e.2.slot == n) := fun u => by
    unfold slotRegion tableOf
    rw [List.find?_map]
    rfl
  have same := mapped t
  rw [h, ← mapped s, hr] at same
  obtain ⟨⟨j, q⟩, hq, he⟩ := Option.map_eq_some_iff.1 same
  obtain ⟨rfl, desc⟩ := Prod.mk.inj he
  exact ⟨q, hq, desc⟩

/-! ### The grant (R146) -/

theorem exec_requesterWrite (p : Nat) (hg : Claim.grants .requesterWrite p s) (hb : s.rse.pull.buffers = b :: rest)
    (hl : s.rse.pull.server = some l) :
    exec .requesterWrite s = .next (settle (pullProgress (writtenOut b rest l { s with mpu.pointer := p }))) := by
  have work := writeBuffer_eq (s := { s with mpu.pointer := p }) hb hl
  rw [← work]
  exact congrArg Host.Outcome.next (granted_of_grants .requesterWrite (fun s => settle (writeBuffer s)) p s hg)

/-- The block has its words, with their accounts (R39, R58, R60). -/
theorem written_settle : Claim.wrote ((blockWords b.block).zip b.words) s (settle (pullProgress (writtenOut b rest l s))) ∧
    Claim.accounted b.block ((blockWords b.block).zip b.words) s (settle (pullProgress (writtenOut b rest l s))) ∧
    (settle (pullProgress (writtenOut b rest l s))).mpu =
      { s.mpu with mem := (settle (pullProgress (writtenOut b rest l s))).mpu.mem } := by
  have nd := nodup_blockWrites b.block b.words
  have wrote := wrote_overwriteAll (blockWrites b.block b.words) s nd
  have accounted := accounted_overwriteAll b.block (blockWrites b.block b.words) s nd
    fun w hw => blockOf_of_mem_blockWrites hw
  have mpu := overwriteAll_mpu (blockWrites b.block b.words) s
  have mem : (writtenOut b rest l s).mpu = (overwriteAll (blockWrites b.block b.words) s).mpu := by rw [writtenOut_frame]
  have sgu : (writtenOut b rest l s).sgu = (overwriteAll (blockWrites b.block b.words) s).sgu := by rw [writtenOut_frame]
  have ptu : (writtenOut b rest l s).ptu = (overwriteAll (blockWrites b.block b.words) s).ptu := by rw [writtenOut_frame]
  generalize writtenOut b rest l s = v at *
  refine ⟨wrote_congr wrote (by simp [mem]), accounted_congr accounted (by simp [sgu]) ?_, ?_⟩
  · have ptu' : (settle (pullProgress v)).ptu = v.ptu := by simp
    rw [ptu', ptu]
  simp only [settle_keeps, pullProgress_keeps, mem]
  exact mpu

/-- While buffers may still come or wait, nothing but the credit follows (R146). -/
theorem goesOn_settle (hp : s.position ≠ 3)
    (more : s.rse.pull.phase = .receiving ∨ s.rse.pull.phase = .completing ∧ rest ≠ []) :
    (settle (pullProgress (writtenOut b rest l s))).rse.pull = { s.rse.pull with
      buffers := rest, clean := (settle (pullProgress (writtenOut b rest l s))).rse.pull.clean } ∧
    (serving s = false → (settle (pullProgress (writtenOut b rest l s))).lkc.tx.get l =
      beginFrame s { s.lkc.tx.get l with ctrl := queueCtrl (.credit 1) (s.lkc.tx.get l).ctrl }) ∧
    (∀ k, k ∈ (settle (pullProgress (writtenOut b rest l s))).cju.wPrev ↔
      k ∈ s.cju.wPrev ∨ k = b.block ∧ s.rse.pull.kind = some .delta) ∧
    (settle (pullProgress (writtenOut b rest l s))).cju.chan = s.cju.chan ∧
    (settle (pullProgress (writtenOut b rest l s))).cju.cycle = s.cju.cycle ∧
    (settle (pullProgress (writtenOut b rest l s))).cju.journal = s.cju.journal ∧
    (settle (pullProgress (writtenOut b rest l s))).sgu.pass = s.sgu.pass := by
  have pull : (writtenOut b rest l s).rse.pull =
      { s.rse.pull with buffers := rest, clean := (writtenOut b rest l s).rse.pull.clean } := by
    rw [writtenOut_frame]
  have cju : (writtenOut b rest l s).cju = { s.cju with wPrev := wPrevWith b s } := by rw [writtenOut_frame]
  have pass : (writtenOut b rest l s).sgu.pass = s.sgu.pass := by
    rw [writtenOut_frame]
    simp
  have quiet : pullProgress (writtenOut b rest l s) = writtenOut b rest l s := by
    refine if_neg fun ⟨completing, done, _⟩ => ?_
    rw [pull] at completing done
    rcases more with receiving | ⟨-, left⟩
    · exact absurd (receiving.symm.trans completing) (by decide)
    · exact left done
  rw [quiet]
  refine ⟨?_, fun idle => tx_settle_writtenOut hp (by simpa [serving] using idle), fun k => ?_, ?_⟩
  · simp only [settle_keeps]
    exact pull
  · simp only [settle_keeps, cju]
    exact mem_wPrevWith k
  · simp [cju, pass]

section
variable {f : PullEndFrame} {es : List SigEntry}

/-- The last buffer, where the write has no finding (R148). -/
theorem lastBuffer_quiet (hl : s.rse.pull.server = some l) (hp : s.rse.pull.phase = .completing) (pass : s.sgu.pass = none)
    (he : s.rse.pull.ending = some f) (hf : f.entries = some es)
    (quiet : ¬((∃ a ∈ blockWords b.block, (readWord s a).cond = .uncorrectable) ∧ signedBlock s b.block = true ∧
      s.dev ≠ .configuring)) :
    Claim.buffersWritten 1 l f es
      { s with
        sgu.sigs := (settle (pullProgress (writtenOut b [] l s))).sgu.sigs
        cju.wPrev := wPrevWith b s } (settle (pullProgress (writtenOut b [] l s))) := by
  have clean : (∃ w ∈ blockWrites b.block b.words, (readWord s w.1).cond = .uncorrectable) →
      signedBlock s b.block = false ∨ s.dev = .configuring := by
    rintro ⟨w, hw, hc⟩
    by_contra hn
    push Not at hn
    obtain ⟨signed, dev⟩ := hn
    exact quiet ⟨⟨w.1, (List.of_mem_zip hw).1, hc⟩, by simpa using signed, dev⟩
  obtain ⟨rgt, -, cmu, rse⟩ := overwriteAll_idle b.block (blockWrites b.block b.words) s (nodup_blockWrites _ _)
    (fun w hw => blockOf_of_mem_blockWrites hw) clean
  have completing := completing_writtenOut (b := b) hl hp pass he hf
  have rgt' : (writtenOut b [] l s).rgt = s.rgt := by rw [writtenOut_frame, rgt]
  have cmu' : (writtenOut b [] l s).cmu = s.cmu := by rw [writtenOut_frame, cmu]
  have clean' : (writtenOut b [] l s).rse.pull.clean = s.rse.pull.clean := by rw [writtenOut_frame, rse]
  generalize writtenOut b [] l s = v at *
  have same : shown b v s = { s with sgu.sigs := v.sgu.sigs, cju.wPrev := wPrevWith b s } := by
    unfold shown
    rw [rgt', clean']
  rw [same] at completing
  have sigs : (settle (pullProgress v)).sgu.sigs = v.sgu.sigs := by simp
  have done := buffersWritten_settle 1 0 (fun _ => True) l f es _ v completing (.of_eq (by rw [cmu'])) (Nat.le_refl 1)
  rw [sigs]
  exact done

/-- The last buffer, where it overwrites an UNCORRECTABLE word of a signed region (R46, R148). -/
theorem lastBuffer_struck {i : Nat} {r : Region} (len : b.words.length = 16) (hl : s.rse.pull.server = some l)
    (hp : s.rse.pull.phase = .completing) (pass : s.sgu.pass = none) (he : s.rse.pull.ending = some f)
    (hf : f.entries = some es) (bad : ∃ a ∈ blockWords b.block, (readWord s a).cond = .uncorrectable)
    (signed : signedBlock s b.block = true) (hd : s.dev ≠ .configuring) (hr : regionOf s b.block = some (i, r))
    (hi : assocFind s.rgt.entries i = some r) (hs : slotRegion s r.desc.slot = some (i, r)) (hk : r.desc.slot < 16) :
    assocFind (settle (pullProgress (writtenOut b [] l s))).rgt.entries i = some { r with state := .suspectUnlocated } ∧
    (settle (pullProgress (writtenOut b [] l s))).vtu.permitted = false ∧
    (s.cmu.events.length < 47 → ∀ a ∈ blockWords b.block, (readWord s a).cond = .uncorrectable →
      ∃ v ∈ (settle (pullProgress (writtenOut b [] l s))).cmu.events, v.body = .uncorrectable (some i) (4 * a) none) ∧
    Claim.buffersWritten 18 l f es
      { s with
        sgu.sigs := (settle (pullProgress (writtenOut b [] l s))).sgu.sigs
        cju.wPrev := wPrevWith b s
        rgt.entries := (settle (pullProgress (writtenOut b [] l s))).rgt.entries }
      (settle (pullProgress (writtenOut b [] l s))) := by
  have hsig : r.desc.signed = true := by
    unfold signedBlock at signed
    rw [hr] at signed
    exact signed
  have nd := nodup_blockWrites b.block b.words
  have inBlock : ∀ w ∈ blockWrites b.block b.words, blockOf w.1 = b.block := fun w hw => blockOf_of_mem_blockWrites hw
  have length := length_blockWrites b len
  have struck := struck_overwriteAll hr hsig hd _ nd inBlock hi
    (let ⟨a, ha, hc⟩ := bad; let ⟨v, hv⟩ := exists_mem_blockWrites len ha; ⟨(a, v), hv, hc⟩)
  have event := event_overwriteAll hr hsig hd _ nd inBlock (Nat.le_of_eq length)
  have spent := (Spends.overwriteAll (blockWrites b.block b.words) s).records
  rw [length] at spent
  obtain ⟨q, hq, desc⟩ := slotRegion_of_tableOf (tableOf_overwriteAll (blockWrites b.block b.words) s) hs
  have suspect : q.state ≠ .normal := by
    simpa [Region.suspect] using struck.all (i, q) (List.mem_of_find?_eq_some hq) rfl
  have completing := completing_writtenOut (b := b) hl hp pass he hf
  have rgt : (writtenOut b [] l s).rgt = (overwriteAll (blockWrites b.block b.words) s).rgt := by rw [writtenOut_frame]
  have vtu : (writtenOut b [] l s).vtu = (overwriteAll (blockWrites b.block b.words) s).vtu := by rw [writtenOut_frame]
  have cmu : (writtenOut b [] l s).cmu = (overwriteAll (blockWrites b.block b.words) s).cmu := by rw [writtenOut_frame]
  generalize overwriteAll (blockWrites b.block b.words) s = o at *
  generalize writtenOut b [] l s = v at *
  have slot : slotRegion v r.desc.slot = some (i, q) := by rw [slotRegion_congr (s := o) (by rw [rgt]), hq]
  obtain ⟨kept, off⟩ := pullProgress_of_suspect hk slot suspect (by rw [vtu, struck.permitted])
  have entries : (settle (pullProgress v)).rgt.entries = v.rgt.entries := by simpa using kept
  have sigs : (settle (pullProgress v)).sgu.sigs = v.sgu.sigs := by simp
  have done := buffersWritten_settle 18 17 notDecision l f es _ v completing
    (spent.trans (.of_eq (n := 0) (by rw [cmu]))) (Nat.le_refl 18)
  refine ⟨by rw [entries, rgt, struck.region], by simpa using off, fun room a ha hc => ?_, ?_⟩
  · obtain ⟨w, hw⟩ := exists_mem_blockWrites len ha
    obtain ⟨e, he, body⟩ := event room (a, w) hw hc
    have kind : eventKind e.body ≠ 1 := by simp [body, eventKind]
    exact ⟨e, mem_events_settle _ e kind (events_pullProgress v e (by rw [cmu]; exact he) kind), body⟩
  · rw [sigs, entries]
    exact buffersWritten_of_suspect (u := shown b v s) hk ((slotRegion_congr (s := v) rfl _).trans slot) suspect s.rse.pull.clean done

end

end

/-- Settles O38: a requester's grant writes its oldest buffer, and with the last one the checks of R148 follow. -/
theorem requesterWritesItsBuffer : Obligations.RequesterWritesItsBuffer := by
  intro p b rest l s hg hb hl len _ hp
  have run := exec_requesterWrite p hg hb hl
  have array := written_settle (b := b) (rest := rest) (l := l) (s := { s with mpu.pointer := p })
  have goesOn := goesOn_settle (b := b) (rest := rest) (l := l) (s := { s with mpu.pointer := p }) hp
  have frame := writtenOut_frame (b := b) (rest := rest) (l := l) (s := { s with mpu.pointer := p })
  have written : (writtenOut b rest l { s with mpu.pointer := p }).rse.pull.buffers = rest := by rw [frame]
  have quiet := fun f es completing pass he hf => lastBuffer_quiet (b := b) (l := l) (f := f) (es := es)
    (s := { s with mpu.pointer := p }) hl completing pass he hf
  have struck := fun f es i r completing pass he hf => lastBuffer_struck (b := b) (l := l) (f := f) (es := es) (i := i) (r := r)
    (s := { s with mpu.pointer := p }) len hl completing pass he hf
  have empty : rest = [] → (settle (pullProgress (writtenOut b rest l { s with mpu.pointer := p }))).rse.pull.buffers = [] :=
    fun last => by simpa using buffers_pullProgress _ (written.trans last)
  obtain ⟨wrote, accounted, mpu⟩ := array
  clear frame written
  refine ⟨_, run, ?_⟩
  by_cases last : rest = []
  · subst last
    generalize settle (pullProgress (writtenOut b [] l { s with mpu.pointer := p })) = t at *
    exact ⟨wrote, accounted, mpu, goesOn, fun completing _ pass f es he hf =>
      ⟨empty rfl, quiet f es completing pass he hf,
        fun ⟨bad, signed, hd⟩ i r hr hi hs hk => struck f es i r completing pass he hf bad signed hd hr hi hs hk⟩⟩
  · generalize settle (pullProgress (writtenOut b rest l { s with mpu.pointer := p })) = t at *
    exact ⟨wrote, accounted, mpu, goesOn, fun _ h => absurd h last⟩

end Sys2Proof.Machine
end

section
/-! PROOFS. What PERMIT, the channel, the pull and the service stand on (R69, R136, R139), and the laws that rest on it: the
repair list, the RESEND marks, the vote table and the decision completed at a rollback. `Stands s t` says it of `t`, with each
of the other laws where it stood in `s`. -/

namespace Sys2Proof.Machine

open Sys2Proof

/-- The channel states of the serving condition (R151). -/
def serveState (c : Option ChannelState) : Bool := permitState c || c == some .rollingBack

/-- The channel states in which the vote table keeps the two most recent frames (R123). -/
def recentState (c : Option ChannelState) : Bool :=
  c == none || c == some .catchup || c == some .excluded || c == some .restoring

theorem servingCondition_iff (s : State) :
    servingCondition s = true ↔ s.dev = .running ∧ s.vtu.agreedBase = true ∧ serveState s.cju.chan = true := by
  unfold servingCondition serveState permitState
  split <;> simp_all

theorem keepsRecent_eq (s : State) : keepsRecent s = recentState s.cju.chan := by
  unfold keepsRecent recentState
  cases s.cju.chan with
  | none => rfl
  | some c => cases c <;> rfl

theorem chan_cases (c : ChannelState) :
    permitState (some c) = true ∨ c = .rollingBack ∨ c = .catchup ∨ c = .excluded ∨ c = .restoring := by
  cases c <;> simp [permitState]

/-! ### What the laws see of the table -/

theorem vitalBlock_eq (s : State) (b : Nat) :
    vitalBlock s b = (((tableOf s).find? (fun e => e.2.covers b)).map (fun e => e.2.kind == .vital)).getD false := by
  rw [← regionOf_desc]
  unfold vitalBlock
  cases regionOf s b <;> rfl

theorem setRegions_eq (s : State) (slots : BitVec 16) :
    setRegions s slots = ((tableOf s).map Prod.snd).filter (fun d => d.signed && slots.getLsbD d.slot) := by
  simp [setRegions, tableOf, Function.comp_def]

theorem vitalBlock_congr {s t : State} (h : tableOf t = tableOf s) (b : Nat) : vitalBlock t b = vitalBlock s b := by
  rw [vitalBlock_eq, vitalBlock_eq, h]

theorem setRegions_congr {s t : State} (h : tableOf t = tableOf s) (slots : BitVec 16) :
    setRegions t slots = setRegions s slots := by
  rw [setRegions_eq, setRegions_eq, h]

/-! ### The laws clause by clause -/

theorem repairLaw_iff (s : State) :
    repairLaw s = true ↔ s.cju.repair.length ≤ Config.repairMax ∧ s.cju.repair.Nodup ∧
      (∀ b ∈ s.cju.repair, vitalBlock s b = true) ∧ (s.dev = .configuring → s.cju.repair = []) := by
  simp only [repairLaw, Bool.and_eq_true, decide_eq_true_eq, List.all_eq_true, Bool.or_eq_true, bne_iff_ne,
    List.isEmpty_iff, and_assoc, ← imp_iff_not_or, ne_eq]

theorem inServedSet_iff (s : State) (b : Nat) :
    inServedSet s b = true ↔ s.rse.service.kind = some .full ∧
      ∃ d ∈ setRegions s s.rse.service.regionSet, d.covers b = true := by
  simp [inServedSet]

theorem resendLaw_iff (s : State) :
    resendLaw s = true ↔ (∀ b ∈ s.cju.resend, s.rse.service.phase ≠ .idle ∧ inServedSet s b = true) ∧
      (s.rse.service.phase = .walking → ∀ b, s.rse.service.walkPos = some (.block b) → inServedSet s b = true) := by
  simp only [resendLaw, Bool.and_eq_true, List.all_eq_true, Bool.or_eq_true, bne_iff_ne, serving, ne_eq,
    ← imp_iff_not_or]
  refine and_congr Iff.rfl (imp_congr_right fun _ => ?_)
  cases h : s.rse.service.walkPos with
  | none => simp
  | some w => cases w <;> simp

theorem framesLaw_iff (s : State) (l : List VoteFrame) :
    framesLaw s l = true ↔ l.length ≤ 2 ∧
      (recentState s.cju.chan = true ∨
        (∀ f ∈ l, f.cycle = voteCycle s ∨ f.cycle = voteCycle s + 1) ∧ (l.map VoteFrame.cycle).Nodup) := by
  simp [framesLaw, keepsRecent_eq]

theorem voteLaw_iff (s : State) : voteLaw s = true ↔ ∀ l, framesLaw s (s.vtu.table.get l) = true := by
  simp only [voteLaw, Bool.and_eq_true]
  exact ⟨fun h l => by cases l <;> simp [PerLink.get, h], fun h => ⟨h .one, h .two⟩⟩

theorem decidingLaw_iff (s : State) :
    decidingLaw s = true ↔ s.vtu.deciding = none ∨ s.cju.chan = some .rollingBack := by
  simp [decidingLaw]

/-- What `Stands` says apart from the serving condition. -/
structure Bare (s t : State) : Prop where
  channel : t.dev = .running ↔ t.cju.chan.isSome = true
  permit : t.vtu.permitted = true → permitState t.cju.chan = true ∧ anySuspect t = false
  voted : t.vtu.permitted = true → ∃ d, t.vtu.last = some d ∧ memberRank d.outcome = true
  level : t.vtu.level = true → t.vtu.permitted = true
  pulled : t.rse.pull.phase ≠ .idle → t.cju.chan = some .catchup ∨ t.cju.chan = some .restoring
  ending : t.rse.pull.ending ≠ none → t.rse.pull.phase = .completing
  server : t.rse.pull.phase ≠ .idle → t.rse.pull.server.isSome = true
  requester : t.rse.service.phase ≠ .idle → t.rse.service.requester.isSome = true
  pass : t.sgu.pass ≠ none → t.dev = .signing ∨ t.rse.pull.phase = .completing
  repair : repairLaw s = true → repairLaw t = true
  resend : resendLaw s = true → resendLaw t = true
  vote : voteLaw s = true → voteLaw t = true
  deciding : decidingLaw s = true → decidingLaw t = true

/-- PERMIT and what it rests on hold of `t`, and each law beside it where it held of `s`. -/
structure Stands (s t : State) : Prop extends Bare s t where
  served : t.rse.service.phase ≠ .idle → servingCondition t = true

/-- The fields that `Stands` looks at, the table apart. -/
def standView (s : State) :=
  (s.dev, s.cju.chan, s.vtu.permitted, s.vtu.level, s.vtu.last, s.vtu.agreedBase, s.rse.service.phase,
    s.rse.service.requester, s.rse.service.kind, s.rse.service.regionSet, s.rse.service.walkPos, s.rse.pull.phase,
    s.rse.pull.server, s.rse.pull.ending, s.sgu.pass, s.cju.repair, s.cju.resend, s.vtu.table, s.cju.cycle,
    s.vtu.deciding)

/-- The fields that `Stands` looks at are equal, and while PERMIT is on no region is newly SUSPECT. -/
structure Still (t u : State) : Prop where
  view : standView u = standView t
  table : tableOf u = tableOf t
  suspect : u.vtu.permitted = true → anySuspect u = true → anySuspect t = true

/-- A step that leaves the table and the fields that `Stands` looks at. -/
theorem Still.of {t u : State} (h : (standView u, u.rgt.entries) = (standView t, t.rgt.entries)) : Still t u := by
  obtain ⟨hv, he⟩ := Prod.mk.inj h
  exact ⟨hv, by simp only [tableOf, he], by simp only [anySuspect, he]; exact fun _ h => h⟩

theorem Still.refl (t : State) : Still t t := ⟨rfl, rfl, fun _ h => h⟩

theorem Still.permitted {t u : State} (h : Still t u) : u.vtu.permitted = t.vtu.permitted :=
  congrArg (fun v => v.2.2.1) h.view

theorem Still.trans {t u v : State} (h : Still t u) (k : Still u v) : Still t v :=
  ⟨k.view.trans h.view, k.table.trans h.table, fun hp hs => h.suspect (k.permitted ▸ hp) (k.suspect hp hs)⟩

/-! ### Congruence of the laws -/

theorem repairLaw_congr {t u : State} (hd : u.dev = t.dev) (ht : tableOf u = tableOf t) (hr : u.cju.repair = t.cju.repair) :
    repairLaw u = repairLaw t := by
  have hv : vitalBlock u = vitalBlock t := funext (vitalBlock_congr ht)
  simp only [repairLaw, hd, hr, hv]

theorem inServedSet_congr {t u : State} (ht : tableOf u = tableOf t) (hk : u.rse.service.kind = t.rse.service.kind)
    (hr : u.rse.service.regionSet = t.rse.service.regionSet) (b : Nat) : inServedSet u b = inServedSet t b := by
  simp only [inServedSet, hk, hr, setRegions_congr ht]

theorem resendLaw_congr {t u : State} (ht : tableOf u = tableOf t) (hp : u.rse.service.phase = t.rse.service.phase)
    (hk : u.rse.service.kind = t.rse.service.kind) (hr : u.rse.service.regionSet = t.rse.service.regionSet)
    (hw : u.rse.service.walkPos = t.rse.service.walkPos) (hm : u.cju.resend = t.cju.resend) :
    resendLaw u = resendLaw t := by
  simp only [resendLaw, serving, inServedSet_congr ht hk hr, hp, hw, hm]

theorem voteLaw_congr {t u : State} (hc : u.cju.chan = t.cju.chan) (hv : u.cju.cycle = t.cju.cycle)
    (ht : u.vtu.table = t.vtu.table) : voteLaw u = voteLaw t := by
  simp only [voteLaw, framesLaw, keepsRecent, voteCycle, hc, hv, ht]

theorem servingCondition_congr {t u : State} (hd : u.dev = t.dev) (hc : u.cju.chan = t.cju.chan)
    (ha : u.vtu.agreedBase = t.vtu.agreedBase) : servingCondition u = servingCondition t := by
  simp only [servingCondition, hd, hc, ha]

theorem Bare.still {s t u : State} (h : Bare s t) (q : Still t u) : Bare s u := by
  obtain ⟨view, table, suspect⟩ := q
  simp only [standView, Prod.mk.injEq] at view
  obtain ⟨dev, chan, permitted, level, last, agreed, phase, requester, kind, regionSet, walkPos, pulling, server, ending,
    pass, repair, resend, frames, cycle, deciding⟩ := view
  constructor <;>
    simp only [dev, chan, permitted, level, last, phase, requester, pulling, server, ending, pass,
      repairLaw_congr dev table repair, resendLaw_congr table phase kind regionSet walkPos resend,
      voteLaw_congr chan cycle frames, decidingLaw, deciding]
  case permit =>
    intro hp
    refine ⟨(h.permit hp).1, ?_⟩
    rw [Bool.eq_false_iff]
    exact fun hu => Bool.eq_false_iff.1 (h.permit hp).2 (suspect (permitted ▸ hp) hu)
  case channel => exact h.channel
  case voted => exact h.voted
  case level => exact h.level
  case pulled => exact h.pulled
  case ending => exact h.ending
  case server => exact h.server
  case requester => exact h.requester
  case pass => exact h.pass
  case repair => exact h.repair
  case resend => exact h.resend
  case vote => exact h.vote
  case deciding => exact h.deciding

theorem Stands.still {s t u : State} (h : Stands s t) (q : Still t u) : Stands s u :=
  { h.toBare.still q with
    served := by
      have view := q.view
      simp only [standView, Prod.mk.injEq] at view
      obtain ⟨dev, chan, -, -, -, agreed, phase, -⟩ := view
      rw [phase, servingCondition_congr dev chan agreed]
      exact h.served }

/-! ### Operations that leave it all -/

theorem still_recordEvent (b : EventBody) (t : State) : Still t (recordEvent b t) := .of rfl

theorem still_recordRefusal (r : AccessReason) (i : Initiator) (a : Nat) (g : Option Nat) (t : State) :
    Still t (recordRefusal r i a g t) := by
  unfold recordRefusal
  (repeat' split)
  · exact .of rfl
  · exact still_recordEvent _ _
  · exact still_recordEvent _ _

theorem still_sendCtrl (f : CtrlFrame) (l : Link) (t : State) : Still t (sendCtrl f l t) := by
  unfold sendCtrl
  split <;> exact .of rfl

theorem still_sendBoth (f : CtrlFrame) (t : State) : Still t (sendBoth f t) :=
  (still_sendCtrl f .one t).trans (still_sendCtrl f .two _)

theorem still_helloTrigger (t : State) : Still t (helloTrigger t) := still_sendBoth .hello t

theorem still_kick (t : State) : Still t (kick t) := by
  rw [kick_eq]
  exact .of rfl

theorem still_foldl {α : Type} (f : State → α → State) (hf : ∀ u a, Still u (f u a)) (l : List α) (t : State) :
    Still t (l.foldl f t) := by
  induction l generalizing t with
  | nil => exact .of rfl
  | cons a l ih => exact (hf t a).trans (ih _)

theorem still_judge (w : Bool) (x : Transfer) (t : State) : Still t (judge w x t).1 := by
  have accepted : Still t (acceptWrite x t) := by
    unfold acceptWrite raiseHold
    (repeat' split) <;> exact .of rfl
  unfold judge
  (repeat' split)
  · exact (still_recordRefusal _ _ _ _ _).trans (.of (by rfl))
  · exact .of rfl
  · exact accepted.trans (.of (by rfl))
  · exact .of rfl
  · exact .of rfl
  · exact .of rfl

theorem still_arrive (x : Transfer) (t : State) : Still t (arrive x t) := by
  unfold arrive
  (repeat' split)
  · exact .of rfl
  · exact .of rfl
  · exact still_judge _ _ _
  · exact (still_judge _ _ _).trans (.of (by rfl))

theorem still_releaseHeld (t : State) : Still t (releaseHeld t) := by
  have one : ∀ (u : State) (h : Held), Still u (releaseOne h u) := by
    intro u h
    unfold releaseOne
    (repeat' split)
    · exact (still_judge _ _ _).trans (.of (by rfl))
    · exact (still_judge _ _ _).trans (.of (by rfl))
    · exact .of rfl
  unfold releaseHeld
  split
  · exact .of rfl
  · exact still_foldl _ one _ _

theorem still_leaveQueue (gone stay : List PwqEntry) (t : State) : Still t (leaveQueue gone stay t) := by
  unfold leaveQueue lowerHold
  split <;> exact .of rfl

/-- A change of a region that keeps its descriptor and its state. -/
theorem still_modifyRegion (index : Nat) (f : Region → Region) (hd : ∀ r, (f r).desc = r.desc)
    (hs : ∀ r, (f r).state = r.state) (t : State) : Still t (modifyRegion index f t) where
  view := rfl
  table := map_modify_desc _ _ _ hd
  suspect _ h := by
    simp only [anySuspect, modifyRegion, assocModify, List.any_map, List.any_eq_true] at h ⊢
    obtain ⟨e, he, h⟩ := h
    refine ⟨e, he, ?_⟩
    by_cases hi : e.1 = index <;> simpa [hi, hd, hs, Region.suspect] using h

theorem still_setSig (slot v : Nat) (t : State) : Still t (setSig slot v t) := .of rfl

theorem still_accountWrite (a : Nat) (old new : Word) (t : State) : Still t (accountWrite a old new t) := by
  unfold accountWrite
  simp only []
  (repeat' split) <;> exact .of rfl

theorem still_writeWord (a : Nat) (old new : Word) (t : State) : Still t (writeWord a old new t) :=
  Still.trans (u := storeWord a new t) (.of rfl) (still_accountWrite _ _ _ _)

theorem still_linkErrorEvent (l : Link) (r : LinkReason) (a : Option Nat) (t : State) :
    Still t (linkErrorEvent l r a t) := by
  unfold linkErrorEvent
  simp only []
  split
  · exact .of rfl
  · exact Still.trans (.of (by rfl)) (still_recordEvent _ _)

theorem still_forgetTried (t : State) : Still t (forgetTried t) := by
  unfold forgetTried
  split <;> exact .of rfl

theorem still_creditTimer (t : State) : Still t (creditTimer t) := by
  unfold creditTimer
  split <;> exact .of rfl

theorem still_mendRegions (t : State) : Still t (mendRegions t) where
  view := rfl
  table := by
    simp only [tableOf, mendRegions, List.map_map]
    exact List.map_congr_left fun e _ => by by_cases he : e.2.desc.signed = true <;> simp [he]
  suspect _ h := by
    simp only [anySuspect, mendRegions, List.any_map, List.any_eq_true, Function.comp_apply] at h
    obtain ⟨e, -, h⟩ := h
    by_cases he : e.2.desc.signed = true <;> simp [he, Region.suspect] at h

end Sys2Proof.Machine
end

section
/-! PROOFS. The walk over the operations for `Stands`: the states that change together, the findings, the service and the pull. -/

namespace Sys2Proof.Machine

open Sys2Proof

/-! ### What operations make of the state -/

@[simp] theorem setChan_chan (c : Option ChannelState) (t : State) : (setChan c t).cju.chan = c := by simp

theorem setAgreed_agreedBase (b : Bool) (t : State) : (setAgreed b t).vtu.agreedBase = b := by simp

theorem dropPermit_vtu_of_level (c : PermitCause) (t : State) (hl : t.vtu.level = true → t.vtu.permitted = true) :
    (dropPermit c t).vtu = { t.vtu with permitted := false, level := false } := by
  have low : (t.vtu.level && !t.vtu.permitted) = false := by
    cases hv : t.vtu.level with
    | false => rfl
    | true => simp [hl hv]
  rw [dropPermit_vtu, Vtu.dropped, low]

/-- `t` with PERMIT off and low. -/
def lowered (t : State) : State := { t with vtu := { t.vtu with permitted := false, level := false } }

/-- A PERMIT that is lost is off and low, and nothing else that `Stands` looks at moves. -/
theorem still_dropPermit (c : PermitCause) (t : State) (hl : t.vtu.level = true → t.vtu.permitted = true) :
    Still (lowered t) (dropPermit c t) := by
  have hv := dropPermit_vtu_of_level c t hl
  refine .of ?_
  simp only [standView, lowered, hv, dropPermit_keeps]

/-- `t` with another channel state: PERMIT is lost outside the states of R136. -/
def chanTo (c : Option ChannelState) (t : State) : State :=
  let u := { t with cju.chan := c }
  if permitState c then u else lowered u

theorem still_setChan (c : Option ChannelState) (t : State) (hl : t.vtu.level = true → t.vtu.permitted = true)
    (hne : t.cju.chan ≠ c) : Still (chanTo c t) (setChan c t) := by
  unfold setChan chanTo
  simp only [if_neg hne]
  split
  · exact still_helloTrigger _
  · have hello : Still { t with cju.chan := c } (helloTrigger { t with cju.chan := c }) := still_helloTrigger _
    refine Still.trans ?_ (still_dropPermit .state _ (by simpa using hl))
    refine .of ?_
    simp [standView, lowered]

theorem setChan_permitted (c : Option ChannelState) (t : State) (h : t.vtu.permitted = false) :
    (setChan c t).vtu.permitted = false := by
  unfold setChan
  simp only []
  split
  · exact h
  · split
    · simpa using h
    · simp [dropPermit, h]

/-- `t` without its service. -/
def unserved (t : State) : State :=
  { t with
    cju.resend := []
    rse.service := { t.rse.service with phase := .idle, timer := none, tried := [], waiting := false } }

theorem still_modifyTx (l : Link) (f : Transmitter → Transmitter) (t : State) : Still t (modifyTx l f t) := .of rfl

theorem still_endService (r : PullResult) (es : Option (List SigEntry)) (t : State)
    (hp : t.rse.service.phase ≠ .idle) (hr : t.rse.service.requester.isSome = true) :
    Still (unserved t) (endService r es t) := by
  obtain ⟨l, hl⟩ := Option.isSome_iff_exists.1 hr
  have hs : serving t = true := by simpa [serving] using hp
  unfold endService
  rw [hl]
  simp only [hs, if_true]
  refine Still.trans ?_ ((still_helloTrigger _).trans (still_recordEvent _ _))
  refine .of ?_
  simp [standView, unserved]

namespace Bare

variable {s t : State}

theorem lower (h : Bare s t) : Bare s (lowered t) :=
  { h with
    permit := fun hp => nomatch hp
    voted := fun hp => nomatch hp
    level := fun hp => nomatch hp }

theorem unserve (h : Bare s t) : Stands s (unserved t) :=
  { h with
    requester := fun hp => absurd rfl hp
    resend := fun _ => (resendLaw_iff _).2 ⟨fun _ hb => (nomatch hb), fun hp => (nomatch hp)⟩
    served := fun hp => absurd rfl hp }

end Bare

namespace Stands

variable {s t : State}

theorem lower (h : Stands s t) : Stands s (lowered t) := { h.toBare.lower with served := h.served }

theorem dropPermit (h : Stands s t) (c : PermitCause) : Stands s (dropPermit c t) := h.lower.still (still_dropPermit c t h.level)

theorem recordEvent (h : Stands s t) (b : EventBody) : Stands s (recordEvent b t) := h.still (still_recordEvent b t)

theorem sendCtrl (h : Stands s t) (f : CtrlFrame) (l : Link) : Stands s (sendCtrl f l t) := h.still (still_sendCtrl f l t)

theorem not_serving (h : Stands s t) (hc : serveState t.cju.chan = false) : t.rse.service.phase = .idle := by
  by_contra hp
  have := ((servingCondition_iff t).1 (h.served hp)).2.2
  rw [hc] at this
  cases this

theorem not_pulling (h : Stands s t) (h1 : t.cju.chan ≠ some .catchup) (h2 : t.cju.chan ≠ some .restoring) :
    t.rse.pull.phase = .idle := by
  by_contra hp
  exact (h.pulled hp).elim h1 h2

theorem running (h : Stands s t) {c : ChannelState} (hc : t.cju.chan = some c) : t.dev = .running :=
  h.channel.2 (by simp [hc])

theorem no_chan (h : Stands s t) (hd : t.dev ≠ .running) : t.cju.chan = none := by
  have := mt h.channel.2 hd
  simpa using this

/-- Outside RUNNING nothing of the channel goes on. -/
theorem off (h : Stands s t) (hd : t.dev ≠ .running) :
    t.cju.chan = none ∧ t.vtu.permitted = false ∧ t.rse.service.phase = .idle ∧ t.rse.pull.phase = .idle := by
  have hc := h.no_chan hd
  refine ⟨hc, ?_, h.not_serving (by rw [hc]; rfl), h.not_pulling (by simp [hc]) (by simp [hc])⟩
  by_contra hp
  have := (h.permit (by simpa using hp)).1
  rw [hc] at this
  cases this

end Stands

theorem voteLaw_chan (t : State) (c : Option ChannelState) (d : Option Deciding)
    (hc : recentState c = true ∨ recentState t.cju.chan = false) (h : voteLaw t = true) :
    voteLaw (chanTo c { t with vtu.deciding := d }) = true := by
  rw [voteLaw_iff] at h ⊢
  intro l
  have hl := (framesLaw_iff _ _).1 (h l)
  have hframes : (chanTo c { t with vtu.deciding := d }).vtu.table = t.vtu.table := by
    unfold chanTo lowered
    split <;> rfl
  have hchan : (chanTo c { t with vtu.deciding := d }).cju = { t.cju with chan := c } := by
    unfold chanTo lowered
    split <;> rfl
  rw [framesLaw_iff, hframes, voteCycle, hchan]
  refine ⟨hl.1, ?_⟩
  rcases hc with hc | hc
  · exact Or.inl hc
  · exact Or.inr (hl.2.resolve_left (by simp [hc]))

namespace Stands

variable {s t : State}

/-- The channel moves to a state in which its service and its pull may go on, with the decision that is being completed. -/
theorem toChan (h : Stands s t) (c : ChannelState) (d : Option Deciding) (hd : t.dev = .running)
    (hs : t.rse.service.phase ≠ .idle → serveState (some c) = true)
    (hp : t.rse.pull.phase ≠ .idle → c = .catchup ∨ c = .restoring)
    (hv : voteLaw t = true → voteLaw (chanTo (some c) { t with vtu.deciding := d }) = true)
    (hr : decidingLaw t = true → d = none ∨ c = .rollingBack) :
    Stands s (chanTo (some c) { t with vtu.deciding := d }) := by
  have moved : (permitState (some c) = true →
      Stands s { t with cju.chan := some c, vtu.deciding := d }) ∧
      Stands s (lowered { t with cju.chan := some c, vtu.deciding := d }) := by
    have vote : voteLaw s = true → voteLaw { t with cju.chan := some c, vtu.deciding := d } = true := fun h1 => by
      have h2 := hv (h.vote h1)
      unfold chanTo at h2
      split at h2 <;> exact h2
    have deciding : decidingLaw s = true → decidingLaw { t with cju.chan := some c, vtu.deciding := d } = true :=
      fun h1 => (decidingLaw_iff _).2 ((hr (h.deciding h1)).imp id (congrArg some))
    have served : t.rse.service.phase ≠ .idle →
        servingCondition { t with cju.chan := some c, vtu.deciding := d } = true := fun h1 => by
      have h2 := (servingCondition_iff t).1 (h.served h1)
      exact (servingCondition_iff _).2 ⟨hd, h2.2.1, hs h1⟩
    have pulled : t.rse.pull.phase ≠ .idle → some c = some .catchup ∨ some c = some .restoring :=
      fun h1 => (hp h1).imp (congrArg some) (congrArg some)
    refine ⟨fun hpc => ?_, ?_⟩
    · exact { h with
        channel := ⟨fun _ => rfl, fun _ => hd⟩
        permit := fun h1 => ⟨hpc, (h.permit h1).2⟩
        vote := vote, deciding := deciding, served := served, pulled := pulled }
    · exact { h.lower with
        channel := ⟨fun _ => rfl, fun _ => hd⟩
        permit := fun h1 => nomatch h1
        vote := vote, deciding := deciding, served := served, pulled := pulled }
  unfold chanTo
  simp only []
  split
  · exact moved.1 (by assumption)
  · exact moved.2

/-- The channel state takes a value for which the kept frames are in place, while no decision waits for a rollback that is
left. -/
theorem setChan_of (h : Stands s t) (c : ChannelState) (hd : t.dev = .running)
    (hs : t.rse.service.phase ≠ .idle → serveState (some c) = true)
    (hp : t.rse.pull.phase ≠ .idle → c = .catchup ∨ c = .restoring)
    (hv : voteLaw t = true → voteLaw (chanTo (some c) t) = true)
    (hr : t.cju.chan = some .rollingBack → t.vtu.deciding = none ∨ c = .rollingBack) :
    Stands s (setChan (some c) t) := by
  by_cases hne : t.cju.chan = some c
  · have same : Machine.setChan (some c) t = t := by simp [Machine.setChan, hne]
    rw [same]
    exact h
  · refine (h.toChan c t.vtu.deciding hd hs hp hv fun hl => ?_).still (still_setChan _ _ h.level hne)
    exact ((decidingLaw_iff t).1 hl).elim Or.inl hr

/-- The channel state takes a value without leaving the states that keep the most recent frames. -/
theorem setChan (h : Stands s t) (c : ChannelState) (hd : t.dev = .running)
    (hs : t.rse.service.phase ≠ .idle → serveState (some c) = true)
    (hp : t.rse.pull.phase ≠ .idle → c = .catchup ∨ c = .restoring)
    (hv : recentState (some c) = true ∨ recentState t.cju.chan = false)
    (hr : t.cju.chan = some .rollingBack → t.vtu.deciding = none ∨ c = .rollingBack) :
    Stands s (Machine.setChan (some c) t) :=
  h.setChan_of c hd hs hp (voteLaw_chan t _ t.vtu.deciding hv) hr

/-- A rollback begins with the decision that waits for it (R130). -/
theorem setChan_rolling (h : Stands s t) (d : Deciding) (hc : t.cju.chan = some .voting) :
    Stands s (Machine.setChan (some .rollingBack) { t with vtu.deciding := some d }) := by
  refine (h.toChan .rollingBack (some d) (h.running hc) (fun _ => rfl) (fun hp => ?_)
    (voteLaw_chan t _ _ (Or.inr (by rw [hc]; rfl))) fun _ => Or.inr rfl).still
    (still_setChan _ { t with vtu.deciding := some d } h.level (by simp [hc]))
  exact absurd (h.not_pulling (by simp [hc]) (by simp [hc])) hp

/-- The agreed base comes to be. -/
theorem setAgreed_true (h : Stands s t) : Stands s (setAgreed true t) := by
  unfold Machine.setAgreed
  split
  · exact h
  · refine Stands.still (t := { t with vtu.agreedBase := true }) ?_ (still_helloTrigger _)
    exact
      { h with
        served := fun hp => by
          have := (servingCondition_iff t).1 (h.served hp)
          exact (servingCondition_iff _).2 ⟨this.1, rfl, this.2.2⟩ }

/-- The agreed base is lost while no service is active. -/
theorem setAgreed_idle (h : Stands s t) (b : Bool) (hp : t.rse.service.phase = .idle) : Stands s (setAgreed b t) := by
  unfold Machine.setAgreed
  split
  · exact h
  · refine Stands.still (t := { t with vtu.agreedBase := b }) ?_ (still_helloTrigger _)
    exact { h with served := fun hn => absurd hp hn }

theorem endService (h : Stands s t) (r : PullResult) (es : Option (List SigEntry)) : Stands s (endService r es t) := by
  by_cases hp : t.rse.service.phase = .idle
  · rw [endService_of_idle r es t hp]
    exact h
  · exact h.toBare.unserve.still (still_endService r es t hp (h.requester hp))

end Stands

theorem phase_endService (r : PullResult) (es : Option (List SigEntry)) (t : State)
    (hr : t.rse.service.phase ≠ .idle → t.rse.service.requester.isSome = true) :
    (endService r es t).rse.service.phase = .idle :=
  endService_phase r es t fun hs => hr (by simpa [serving] using hs)

namespace Stands

variable {s t : State}

/-- The agreed base is lost, and a service with it (R157). -/
theorem loseAgreed (h : Stands s t) : Stands s (endIfLost (Machine.setAgreed false t)) := by
  have lost : servingCondition (Machine.setAgreed false t) = false := by
    cases hc : servingCondition (Machine.setAgreed false t) with
    | false => rfl
    | true =>
      have := ((servingCondition_iff _).1 hc).2.1
      rw [setAgreed_agreedBase] at this
      cases this
  unfold endIfLost
  rw [lost]
  by_cases hp : t.rse.service.phase = .idle
  · exact (h.setAgreed_idle false hp).endService _ _
  · have bare : Bare s (Machine.setAgreed false t) := by
      unfold Machine.setAgreed
      split
      · exact h.toBare
      · exact Bare.still (t := { t with vtu.agreedBase := false }) { h with } (still_helloTrigger _)
    exact bare.unserve.still (still_endService _ _ _ (by simpa using hp) (by simpa using h.requester hp))

end Stands

theorem loseAgreed_phase (t : State) (hr : t.rse.service.phase ≠ .idle → t.rse.service.requester.isSome = true) :
    (endIfLost (setAgreed false t)).rse.service.phase = .idle := by
  unfold endIfLost
  split
  · rename_i hc
    have := ((servingCondition_iff _).1 hc).2.1
    rw [setAgreed_agreedBase] at this
    cases this
  · exact phase_endService _ _ _ (by simpa using hr)

/-! ### Findings -/

/-- A finding either changes nothing, or calls a state for the signed region at the index. -/
theorem markSuspect_cases (index : Nat) (located : Bool) (t : State) :
    markSuspect index located t = t ∨
      ∃ r, t.dev ≠ .configuring ∧ assocFind t.rgt.entries index = some r ∧ r.desc.signed = true ∧
        (markSuspect index located t).rgt.entries =
          assocModify t.rgt.entries index (fun r => { r with state := calledState located r.state }) ∧
        standView (markSuspect index located t) = standView t := by
  unfold markSuspect
  split
  · exact Or.inl rfl
  · rename_i hc
    split
    · rename_i r hf
      split
      · rename_i hs
        exact Or.inr ⟨r, hc, hf, hs, rfl, rfl⟩
      · exact Or.inl rfl
    · exact Or.inl rfl

theorem still_countCorrected (index : Nat) (t : State) : Still t (countCorrected index t) := by
  unfold countCorrected
  refine still_modifyRegion _ _ ?_ ?_ _ <;> exact fun _ => rfl

theorem still_countUncorrectable (index : Nat) (t : State) : Still t (countUncorrectable index t) := by
  unfold countUncorrectable
  refine still_modifyRegion _ _ ?_ ?_ _ <;> exact fun _ => rfl

namespace Stands

variable {s t : State}

theorem suspectPermit (h : Stands s t) (index : Nat) : Stands s (suspectPermit index t) := by
  unfold Machine.suspectPermit
  (repeat' split)
  · exact h.dropPermit _
  · exact h
  · exact h

/-- A region becomes SUSPECT and PERMIT is lost; an event may be recorded in between. -/
theorem suspected (h : Stands s t) (index : Nat) (located : Bool) (x : State)
    (hx : (standView x, x.rgt.entries) = (standView (markSuspect index located t), (markSuspect index located t).rgt.entries)) :
    Stands s (Machine.suspectPermit index x) := by
  by_cases hm : markSuspect index located t = t
  · rw [hm] at hx
    exact (h.still (.of hx)).suspectPermit index
  · obtain ⟨r, -, hf, hs, he, hv⟩ := (markSuspect_cases index located t).resolve_left hm
    obtain ⟨hx1, hx2⟩ := Prod.mk.inj hx
    rw [he] at hx2
    rw [hv] at hx1
    have dropped : Machine.suspectPermit index x = Machine.dropPermit (.suspect index) x := by
      unfold Machine.suspectPermit
      rw [hx2, assocFind_modify, if_pos rfl, hf]
      simp [hs, Region.suspect, calledState_ne]
    have hl : x.vtu.level = true → x.vtu.permitted = true := by
      simp only [standView, Prod.mk.injEq] at hx1
      rw [hx1.2.2.1, hx1.2.2.2.1]
      exact h.level
    rw [dropped]
    refine (h.lower.still ⟨?_, ?_, fun hp => absurd hp Bool.false_ne_true⟩).still (still_dropPermit _ x hl)
    · simp only [standView, Prod.mk.injEq] at hx1
      simp only [standView, lowered, Prod.mk.injEq]
      tauto
    · simp only [tableOf, lowered, hx2]
      exact map_modify_desc _ _ _ fun _ => rfl

/-- A block of a VITAL region joins the repair list (R88). -/
theorem repairAppend (h : Stands s t) (b : Nat) (hd : t.dev ≠ .configuring) (hv : vitalBlock t b = true)
    (hn : b ∉ t.cju.repair) (hr : t.cju.repair.length < Config.repairMax) :
    Stands s { t with cju.repair := t.cju.repair ++ [b] } :=
  { h with
    repair := fun hs => by
      obtain ⟨-, nodup, vital, -⟩ := (repairLaw_iff t).1 (h.repair hs)
      refine (repairLaw_iff _).2 ⟨?_, ?_, ?_, fun hc => absurd hc hd⟩
      · simpa using hr
      · exact List.nodup_append.2 ⟨nodup, List.nodup_singleton _, fun a ha c hc hac => by
          rw [hac, List.mem_singleton.1 hc] at ha
          exact hn ha⟩
      · intro c hc
        rcases List.mem_append.1 hc with hc | hc
        · exact vital c hc
        · rw [List.mem_singleton.1 hc]
          exact hv }

theorem offerRepair (h : Stands s t) (index a : Nat) (hd : t.dev ≠ .configuring)
    (hv : vitalBlock t (blockOf a) = true) : Stands s (offerRepair index a t) := by
  unfold Machine.offerRepair
  simp only []
  (repeat' split)
  · exact h.suspected index true _ rfl
  · rename_i hn hr
    exact (h.repairAppend _ hd hv hn hr).suspected index true _ rfl
  · exact Stands.suspected (t := { t with cju.repairOverflow := true }) (h.still (.of rfl)) index false _ rfl
  · exact Stands.suspected (t := { t with cju.repairOverflow := true }) (h.still (.of rfl)) index false _ rfl

theorem findUncorrectable (h : Stands s t) (ini : Option Initiator) (a : Nat) :
    Stands s (findUncorrectable ini a t) := by
  unfold Machine.findUncorrectable
  split
  · rename_i index r hr
    have counted : Still t (Machine.recordEvent (.uncorrectable (some index) (byteAddr a) ini) (countUncorrectable index t)) :=
      (still_countUncorrectable index t).trans (still_recordEvent _ _)
    unfold damaged
    (repeat' split)
    · exact h.still counted
    · rename_i hd _ hk
      refine (h.still counted).offerRepair _ _ hd ?_
      rw [vitalBlock_congr counted.table]
      simp [vitalBlock, hr, hk]
    · exact (h.still counted).suspected index false _ rfl
    · exact h.still counted
  · exact h.recordEvent _

theorem findInPass (h : Stands s t) (a : Nat) : Stands s (findInPass a t) := by
  unfold Machine.findInPass
  split
  · rename_i index r hr
    exact (h.still ((still_countUncorrectable index t).trans (still_recordEvent _ _))).suspected index false _ rfl
  · exact h

theorem findOverwritten (h : Stands s t) (a : Nat) : Stands s (findOverwritten a t) := by
  unfold Machine.findOverwritten
  (repeat' split)
  · exact (h.recordEvent _).suspected _ false _ rfl
  · exact h
  · exact h

theorem foldl {α : Type} (f : State → α → State) (hf : ∀ u a, Stands s u → Stands s (f u a)) (l : List α)
    (h : Stands s t) : Stands s (l.foldl f t) := by
  induction l generalizing t with
  | nil => exact h
  | cons a l ih => exact ih (hf t a h)

theorem scrubBlock (h : Stands s t) (found : Nat → State → State) (hf : ∀ a u, Stands s u → Stands s (found a u))
    (b : Nat) : Stands s (scrubBlock found b t) := by
  refine h.foldl _ (fun u a hu => ?_) _
  unfold scrubWord
  simp only []
  (repeat' split)
  · exact hu
  · exact hu.still (Still.trans (u := storeWord a (readWord u a).value u) (.of rfl)
      (still_countCorrected _ _))
  · exact hu.still (.of rfl)
  · exact hf _ _ hu

theorem overwriteAll (h : Stands s t) (ws : List (Nat × Word)) : Stands s (overwriteAll ws t) := by
  refine h.foldl _ (fun u a hu => ?_) _
  unfold overwriteWord
  simp only []
  split
  · exact (hu.findOverwritten _).still (still_writeWord _ _ _ _)
  · exact hu.still (still_writeWord _ _ _ _)

/-! ### The service -/

/-- An active service goes on in another phase than the walk. -/
theorem movePhase (h : Stands s t) (r : Service) (ht : t.rse.service.phase ≠ .idle) (hw : r.phase ≠ .walking)
    (hi : r.phase ≠ .idle) (hq : r.requester = t.rse.service.requester) (hk : r.kind = t.rse.service.kind)
    (hs : r.regionSet = t.rse.service.regionSet) : Stands s { t with rse.service := r } :=
  { h with
    requester := fun _ => by
      dsimp only
      rw [hq]
      exact h.requester ht
    resend := fun hl => by
      have law := (resendLaw_iff t).1 (h.resend hl)
      refine (resendLaw_iff _).2 ⟨fun b hb => ⟨hi, ?_⟩, fun hp => absurd hp hw⟩
      have := (law.1 b hb).2
      rwa [← inServedSet_congr (t := t) (u := { t with rse.service := r }) rfl hk hs] at this
    served := fun _ => h.served ht }

theorem walkEnds (h : Stands s t) : Stands s (walkEnds t) := by
  unfold Machine.walkEnds
  split
  · rename_i hc
    exact h.movePhase _ (by simp [hc.1]) (by simp) (by simp) rfl rfl rfl
  · exact h

theorem marksReturn (h : Stands s t) : Stands s (marksReturn t) := by
  unfold Machine.marksReturn
  split
  · rename_i hc
    exact h.movePhase _ (by simp [hc.1]) (by simp) (by simp) rfl rfl rfl
  · exact h

theorem nothingLeft (h : Stands s t) : Stands s (nothingLeft t) := by
  unfold Machine.nothingLeft
  split
  · rename_i hc
    exact h.movePhase { t.rse.service with phase := .finishing } (by rcases hc with hc | hc <;> simp [hc.1]) (by simp)
      (by simp) rfl rfl rfl
  · exact h

theorem finishService (h : Stands s t) : Stands s (finishService t) := by
  unfold Machine.finishService
  (repeat' split)
  · exact h.endService _ _
  · exact h
  · exact h

theorem settle (h : Stands s t) : Stands s (settle t) :=
  ((((h.still (still_releaseHeld t)).walkEnds.marksReturn.nothingLeft.finishService).still (still_creditTimer _))).still
    (still_kick _)

end Stands

/-- The walk visits blocks of the region set only. -/
theorem covers_of_walkFrom {s : State} {slots : BitVec 16} {low b : Nat} (h : walkFrom s slots low = .block b) :
    ∃ d ∈ setRegions s slots, d.covers b = true := by
  unfold walkFrom at h
  split at h <;> cases h
  case h_1 hn =>
    obtain ⟨-, inside, -⟩ := (nextBlock_eq_some_iff _ _ _).1 hn
    exact inside

namespace Stands

variable {s t : State}

/-- A service starts while none is active, in the serving condition (R152). -/
theorem newService (h : Stands s t) (l : Link) (f : PullFrame) (hp : t.rse.service.phase = .idle)
    (hc : servingCondition t = true) : Stands s { t with rse.service := newService t l f } := by
  have requester : (Machine.newService t l f).requester.isSome = true := by
    unfold Machine.newService
    split <;> rfl
  refine { h with requester := fun _ => requester, served := fun _ => hc, resend := fun hl => ?_ }
  have law := (resendLaw_iff t).1 (h.resend hl)
  refine (resendLaw_iff _).2 ⟨fun b hb => absurd hp (law.1 b hb).1, fun hw b hb => ?_⟩
  unfold Machine.newService at hw hb
  split at hw
  · cases hw
  · rename_i hk
    simp only [hk] at hb
    rw [inServedSet_iff]
    unfold Machine.newService
    simp only [hk]
    have walk : walkFrom t f.regionSet 0 = .block b := Option.some.inj hb
    exact ⟨trivial, covers_of_walkFrom walk⟩

theorem takePull (h : Stands s t) (l : Link) (f : PullFrame) : Stands s (takePull l f t) := by
  unfold Machine.takePull
  split
  · exact (h.sendCtrl _ _).recordEvent _
  · rename_i hr
    have taken : serving t = false ∧ servingCondition t = true := by
      unfold pullRefusal at hr
      simp only [] at hr
      split at hr
      · cases hr
      · split at hr
        · cases hr
        · simp_all
    have hp : t.rse.service.phase = .idle := by simpa [serving] using taken.1
    exact ((h.newService l f hp taken.2).still (still_helloTrigger _)).recordEvent _

theorem takeCredit (h : Stands s t) (l : Link) (n : Byte) : Stands s (takeCredit l n t) := by
  unfold Machine.takeCredit
  split
  · exact h.still (.of rfl)
  · exact h

/-- The walk position moves on inside the region set, or the send position does. -/
theorem afterBlock (h : Stands s t) (b : Nat)
    (hk : resendLaw s = true → t.rse.service.phase = .walking → t.rse.service.kind = some .full) :
    Stands s (afterBlock b t) := by
  unfold Machine.afterBlock
  split
  · rename_i hw
    refine { h with resend := fun hl => ?_ }
    have law := (resendLaw_iff t).1 (h.resend hl)
    refine (resendLaw_iff _).2 ⟨law.1, fun _ c hc => (inServedSet_iff _ _).2 ⟨hk hl hw, ?_⟩⟩
    exact covers_of_walkFrom (Option.some.inj hc)
  · exact h.still (.of rfl)

end Stands

end Sys2Proof.Machine
end

section
/-! PROOFS. The walk for `Stands` over the pulls and the vote. -/

namespace Sys2Proof.Machine

open Sys2Proof

/-! ### Frames in their slots (R122, R123) -/

/-- One frame at most for v and one for v + 1. -/
def Placed (v : BitVec 32) (l : List VoteFrame) : Prop :=
  (∀ f ∈ l, f.cycle = v ∨ f.cycle = v + 1) ∧ (l.map VoteFrame.cycle).Nodup

theorem Placed.length_le {v : BitVec 32} {l : List VoteFrame} (h : Placed v l) : l.length ≤ 2 := by
  have sub : l.map VoteFrame.cycle ⊆ [v, v + 1] := by
    intro c hc
    obtain ⟨f, hf, rfl⟩ := List.mem_map.1 hc
    simpa using h.1 f hf
  simpa using (List.subperm_of_subset h.2 sub).length_le

theorem Placed.filter {v : BitVec 32} {l : List VoteFrame} (h : Placed v l) (p : VoteFrame → Bool) :
    Placed v (l.filter p) :=
  ⟨fun f hf => h.1 f (List.mem_of_mem_filter hf), h.2.sublist (List.filter_sublist.map _)⟩

theorem Placed.placeFrame {v : BitVec 32} {l : List VoteFrame} (h : Placed v l) (f : VoteFrame)
    (hf : f.cycle = v ∨ f.cycle = v + 1) : Placed v (placeFrame f l) := by
  refine ⟨fun g hg => ?_, ?_⟩
  · rcases List.mem_append.1 hg with hg | hg
    · exact h.1 g (List.mem_of_mem_filter hg)
    · rw [List.mem_singleton.1 hg]
      exact hf
  · unfold Machine.placeFrame
    rw [List.map_append, List.nodup_append]
    refine ⟨(h.filter _).2, List.nodup_singleton _, fun a ha b hb hab => ?_⟩
    obtain ⟨g, hg, rfl⟩ := List.mem_map.1 ha
    have ne := (List.mem_filter.1 hg).2
    simp only [List.map_cons, List.map_nil, List.mem_singleton] at hb
    rw [hab, hb] at ne
    simp at ne

theorem Placed.sortFrames (v : BitVec 32) (l : List VoteFrame) : Placed v (sortFrames v l) := by
  have sorted : ∀ fs acc : List VoteFrame, (∀ f ∈ fs, f.cycle = v ∨ f.cycle = v + 1) → Placed v acc →
      Placed v (fs.foldl (fun t f => Machine.placeFrame f t) acc) := by
    intro fs
    induction fs with
    | nil => exact fun _ _ h => h
    | cons f fs ih =>
      intro acc hfs hacc
      exact ih _ (fun g hg => hfs g (List.mem_cons_of_mem _ hg)) (hacc.placeFrame f (hfs f List.mem_cons_self))
  refine sorted _ _ (fun f hf => ?_) ⟨fun _ hf => (nomatch hf), List.nodup_nil⟩
  simpa using (List.mem_filter.1 hf).2

theorem framesLaw_of_placed {s : State} {l : List VoteFrame} (h : Placed (voteCycle s) l) : framesLaw s l = true :=
  (framesLaw_iff _ _).2 ⟨h.length_le, Or.inr h⟩

theorem sortKept_table (t : State) (l : Link) :
    (sortKept t).vtu.table.get l = sortFrames (voteCycle t) (t.vtu.table.get l) := by
  cases l <;> rfl

/-- Sorted frames have their slots whatever the channel state is. -/
theorem voteLaw_of_placed {t : State} (h : ∀ l, Placed (voteCycle t) (t.vtu.table.get l)) : voteLaw t = true :=
  (voteLaw_iff t).2 fun l => framesLaw_of_placed (h l)

/-- A HELLO is sent whatever frames are kept. -/
theorem helloTrigger_table (x : PerLink (List VoteFrame)) (t : State) :
    helloTrigger { t with vtu.table := x } = { helloTrigger t with vtu.table := x } := by
  have sent : ∀ l u, sendCtrl .hello l { u with vtu.table := x } = { sendCtrl .hello l u with vtu.table := x } := by
    intro l u
    unfold sendCtrl
    split <;> rfl
  exact (congrArg (sendCtrl .hello .two) (sent .one t)).trans (sent .two _)

/-- Sorting the kept frames and entering READY are independent of one another. -/
theorem sortKept_enterReady (t : State) : sortKept (enterReady t) = enterReady (sortKept t) := by
  unfold sortKept enterReady setChan
  simp only [permitState, if_true, emptyJournal]
  split
  · rfl
  · exact (helloTrigger_table _ _).symm.trans (by simp [voteCycle])

theorem sortKept_setAgreed (b : Bool) (t : State) : sortKept (setAgreed b t) = setAgreed b (sortKept t) := by
  unfold sortKept setAgreed
  simp only []
  split
  · rfl
  · exact (helloTrigger_table _ _).symm.trans (by simp [voteCycle])

/-- Sorted frames stay in place when the channel state moves. -/
theorem voteLaw_chanTo_of_placed {t : State} (c : Option ChannelState)
    (h : ∀ l, Placed (voteCycle t) (t.vtu.table.get l)) : voteLaw (chanTo c t) = true := by
  refine voteLaw_of_placed fun l => ?_
  have same : (chanTo c t).vtu.table = t.vtu.table ∧ (chanTo c t).cju.cycle = t.cju.cycle := by
    unfold chanTo lowered
    split <;> exact ⟨rfl, rfl⟩
  rw [voteCycle, same.1, same.2]
  exact h l

namespace Stands

variable {s t : State}

theorem no_pass (h : Stands s t) (hd : t.dev = .running) (hp : t.rse.pull.phase ≠ .completing) : t.sgu.pass = none := by
  by_contra hn
  rcases h.pass hn with hs | hs
  · rw [hd] at hs
    cases hs
  · exact hp hs

/-! ### Pulls -/

theorem clearPrev (h : Stands s t) : Stands s (clearPrev t) := h.still (.of rfl)

/-- A pull begins while none is active, in its channel state (R142, R143). -/
theorem beginPull (h : Stands s t) (k : PullKind) (l : Link) (f : PullFrame)
    (hc : t.cju.chan = some .catchup ∨ t.cju.chan = some .restoring) (hp : t.rse.pull.phase = .idle) :
    Stands s (beginPull k l f t) := by
  have hd : t.dev = .running := h.channel.2 (by rcases hc with hc | hc <;> simp [hc])
  have pass := h.no_pass hd (by simp [hp])
  unfold Machine.beginPull
  refine (Stands.sendCtrl ?_ _ _).recordEvent _
  exact
    { h with
      pulled := fun _ => hc
      ending := fun he => absurd rfl he
      server := fun _ => rfl
      pass := fun hn => absurd pass hn }

theorem startDelta (h : Stands s t) (l : Link) (hc : t.cju.chan = some .catchup) (hp : t.rse.pull.phase = .idle) :
    Stands s (startDelta l t) := h.clearPrev.beginPull _ _ _ (Or.inl hc) hp

/-- A FULL pull starts in EXCLUDED, or in READY without an agreed base (R143, R144). -/
theorem startFull (h : Stands s t) (l : Link) (hd : t.dev = .running) (hs : t.rse.service.phase = .idle)
    (hp : t.rse.pull.phase = .idle) (hr : t.cju.chan ≠ some .rollingBack) : Stands s (startFull l t) := by
  refine Stands.beginPull ?_ _ _ _ (Or.inr (setChan_chan _ _)) (by simpa using hp)
  exact h.clearPrev.setChan .restoring hd (fun hn => absurd hs hn) (fun _ => Or.inr rfl) (Or.inl rfl)
    (fun hc => absurd hc hr)

theorem testFull (h : Stands s t) : Stands s (testFull t) := by
  unfold Machine.testFull
  (repeat' split)
  · rename_i hc _ l _
    exact h.startFull l (h.running hc.1) (h.not_serving (by rw [hc.1]; rfl))
      (h.not_pulling (by simp [hc.1]) (by simp [hc.1])) (by simp [hc.1])
  · exact h
  · exact h

/-- A pull that fails leaves none, and EXCLUDED (R150). -/
theorem failPull (h : Stands s t) (c : PullCause) (r : Option PullResult) (hp : t.rse.pull.phase ≠ .idle)
    (hn : t.sgu.pass = none) : Stands s (failPull c r t) := by
  have hc := h.pulled hp
  have hd : t.dev = .running := h.channel.2 (by rcases hc with hc | hc <;> simp [hc])
  have hs : t.rse.service.phase = .idle := h.not_serving (by rcases hc with hc | hc <;> rw [hc] <;> rfl)
  unfold Machine.failPull
  split
  · rename_i l _
    have idle : Stands s
        { t with
          rse.pull :=
            { t.rse.pull with
              phase := .idle, buffers := [], timer := none, attempts := min 3 (t.rse.pull.attempts + 1), ending := none } } :=
      { h with
        pulled := fun hp => absurd rfl hp
        ending := fun hp => absurd rfl hp
        server := fun hp => absurd rfl hp
        pass := fun hp => absurd hn hp }
    refine ((((idle.clearPrev).setAgreed_idle false hs).recordEvent _).setChan .excluded ?_ ?_ ?_ (Or.inl rfl) ?_).testFull
    · simpa using hd
    · simp [hs, Machine.clearPrev]
    · simp [Machine.clearPrev]
    · rcases hc with hc | hc <;> simp [hc, Machine.clearPrev]
  · exact h

/-- The kept frames are sorted where the channel enters READY with an agreed base. -/
theorem ready_sorted (h : Stands s (sortKept t)) (hd : t.dev = .running) (hs : t.rse.service.phase = .idle)
    (hp : t.rse.pull.phase = .idle) (hr : t.cju.chan ≠ some .rollingBack) :
    Stands s (enterReady (Machine.setAgreed true (sortKept t))) := by
  have emptied : Stands s (emptyJournal (Machine.setAgreed true (sortKept t))) := h.setAgreed_true.still (.of rfl)
  refine emptied.setChan_of .ready ?_ ?_ ?_ (fun _ => voteLaw_chanTo_of_placed _ fun l => ?_) ?_
  · simpa [sortKept, emptyJournal] using hd
  · simp [sortKept, emptyJournal, hs]
  · simp [sortKept, emptyJournal, hp]
  · have table : (emptyJournal (Machine.setAgreed true (sortKept t))).vtu.table = (sortKept t).vtu.table ∧
        voteCycle (emptyJournal (Machine.setAgreed true (sortKept t))) = voteCycle t := by
      simp [emptyJournal, voteCycle, sortKept]
    rw [table.1, table.2, sortKept_table]
    exact Placed.sortFrames _ _
  · intro hc
    exact absurd (by simpa [sortKept, emptyJournal] using hc) hr

/-- A pull that succeeds leaves none, and READY with the kept frames sorted (R149). -/
theorem succeedPull (h : Stands s t) (f : PullEndFrame) (es : List SigEntry) (hp : t.rse.pull.phase ≠ .idle)
    (hn : t.sgu.pass = none) : Stands s (succeedPull f es t) := by
  have hc := h.pulled hp
  have hd : t.dev = .running := h.channel.2 (by rcases hc with hc | hc <;> simp [hc])
  have hs : t.rse.service.phase = .idle := h.not_serving (by rcases hc with hc | hc <;> rw [hc] <;> rfl)
  have hf : permitState t.cju.chan = false := by rcases hc with hc | hc <;> rw [hc] <;> rfl
  unfold Machine.succeedPull
  split
  · simp only []
    refine Stands.recordEvent ?_ _
    rw [sortKept_enterReady, sortKept_setAgreed]
    have mended : ∀ (c : Cju) (v : List SigEntry) (p : Pull), c.chan = t.cju.chan → c.resend = t.cju.resend →
        c.repair = [] → p.phase = .idle → p.ending = none →
        Stands s (sortKept { Machine.mendRegions t with cju := c, vtu.closedSet := v, rse.pull := p }) := by
      intro c v p chan resend repair idle ending
      have mended := h.still (still_mendRegions t)
      refine
        { mended with
          channel := by simpa [chan] using h.channel
          permit := fun h1 => ?permit
          pulled := fun h1 => absurd idle h1
          ending := fun h1 => absurd ending h1
          server := fun h1 => absurd idle h1
          pass := fun h1 => absurd hn h1
          repair := fun _ => ?repair
          resend := fun h1 => ?resend
          vote := fun _ => voteLaw_of_placed fun l => ?vote
          deciding := fun h1 => ?deciding
          served := fun h1 => absurd hs h1 }
      case permit =>
        have h2 := (h.permit h1).1
        rw [hf] at h2
        cases h2
      case repair => exact (repairLaw_iff _).2 (by simp [repair])
      case resend =>
        have h2 := mended.resend h1
        rw [resendLaw_iff] at h2 ⊢
        exact ⟨fun b hb => h2.1 b (resend ▸ hb), h2.2⟩
      case vote =>
        rw [sortKept_table]
        exact Placed.sortFrames _ _
      case deciding =>
        have h2 := (decidingLaw_iff _).1 (h.deciding h1)
        rw [decidingLaw_iff]
        exact h2.imp id fun h3 => by rcases hc with hc | hc <;> rw [hc] at h3 <;> cases h3
    refine Stands.ready_sorted (mended _ _ _ ?_ ?_ ?_ ?_ ?_) hd hs ?_ (by rcases hc with hc | hc <;> simp [hc]) <;> rfl
  · exact h

end Stands
end Sys2Proof.Machine
end

section
/-! PROOFS. The walk for `Stands` over the passes, the received blocks and the vote. -/

namespace Sys2Proof.Machine

open Sys2Proof

/-- Without a full buffer the grant of a pull has no effect. -/
theorem writeBuffer_of_none {t : State}
    (h : ¬∃ b rest l, t.rse.pull.buffers = b :: rest ∧ t.rse.pull.server = some l) : writeBuffer t = t := by
  unfold writeBuffer
  split
  case h_1 b rest l hb hl => exact absurd ⟨b, rest, l, hb, hl⟩ h
  case h_2 => rfl

/-- Without a region to sign the grant of a pass has no effect. -/
theorem signBlock_of_no_pass {t : State}
    (h : ¬∃ p k rest e, t.sgu.pass = some p ∧ p.slots = k :: rest ∧ slotRegion t k = some e) : signBlock t = t := by
  unfold signBlock
  split
  · split
    · split
      · exact absurd ⟨_, _, _, _, ‹_›, ‹_›, ‹_›⟩ h
      · rfl
    · rfl
  · rfl

/-- The grant of a pass leaves the device state. -/
theorem signBlock_dev (t : State) : (signBlock t).dev = t.dev := by
  by_cases hs : ∃ p k rest e, t.sgu.pass = some p ∧ p.slots = k :: rest ∧ slotRegion t k = some e
  · obtain ⟨p, k, rest, ⟨i, r⟩, hp, hk, hr⟩ := hs
    have read : (passRead p.block t).dev = t.dev := by rw [passRead_frame]
    rw [signBlock_eq hp hk hr]
    split
    · exact read
    · rw [beginRegion_frame]
      exact read
  · rw [signBlock_of_no_pass hs]

namespace Stands

variable {s t : State}

/-! ### Passes and the end of a pull -/

/-- A pass stands in SIGNING, or while a pull is COMPLETING. -/
theorem passTo (h : Stands s t) (o : Option SigningPass)
    (ho : o ≠ none → t.dev = .signing ∨ t.rse.pull.phase = .completing) : Stands s { t with sgu.pass := o } :=
  { h with pass := ho }

theorem beginRegion (h : Stands s t) (slots : List Nat) (bad : Nat)
    (ho : t.dev = .signing ∨ t.rse.pull.phase = .completing) : Stands s (beginRegion slots bad t) := by
  unfold Machine.beginRegion
  split
  · exact h.passTo none fun hn => absurd rfl hn
  · rename_i k rest
    split
    · rename_i e _
      exact (h.passTo (some ⟨k :: rest, e.2.desc.first, 0, bad⟩) fun _ => ho).still (.of rfl)
    · exact h.passTo none fun hn => absurd rfl hn

theorem completionCheck (h : Stands s t) (hn : t.sgu.pass = none) : Stands s (completionCheck t) := by
  unfold Machine.completionCheck
  split
  · rename_i f hf
    have hp : t.rse.pull.phase ≠ .idle := by simp [h.ending (by simp [hf])]
    (repeat' split)
    · exact h.succeedPull _ _ hp hn
    · exact h.failPull _ _ hp hn
    · exact h
  · exact h

theorem passRead (h : Stands s t) (b : Nat) : Stands s (passRead b t) := by
  have scrubbed : Stands s (Machine.scrubBlock Machine.findInPass b t) := h.scrubBlock _ (fun _ _ hu => hu.findInPass _) b
  unfold Machine.passRead
  rw [takeAll_frame]
  exact scrubbed.still (.of rfl)

theorem signBlock (h : Stands s t) : Stands s (signBlock t) := by
  by_cases hs : ∃ p k rest e, t.sgu.pass = some p ∧ p.slots = k :: rest ∧ slotRegion t k = some e
  · obtain ⟨p, k, rest, ⟨i, r⟩, hp, hk, hr⟩ := hs
    have read := h.passRead p.block
    have ho := h.pass (by simp [hp])
    rw [signBlock_eq hp hk hr]
    have frame := passRead_frame p.block t
    have dev : (Machine.passRead p.block t).dev = t.dev := by rw [frame]
    have phase : (Machine.passRead p.block t).rse.pull.phase = t.rse.pull.phase := by rw [frame]
    generalize Machine.passRead p.block t = u at read dev phase
    rw [← dev, ← phase] at ho
    split
    · exact read.passTo _ fun _ => ho
    · exact Stands.beginRegion (read.still (still_setSig _ _ _)) _ _ ho
  · rw [signBlock_of_no_pass hs]
    exact h

theorem takeBlock (h : Stands s t) (l : Link) (f : BlockFrame) : Stands s (takeBlock l f t) := by
  unfold Machine.takeBlock
  simp only []
  have timed : Stands s { t with rse.pull.timer := some t.times.pullSilence } := h.still (.of rfl)
  (repeat' split)
  · exact h.still (.of rfl)
  · exact timed.still (still_linkErrorEvent _ _ _ _)
  · exact timed.still (still_linkErrorEvent _ _ _ _)
  · exact h

theorem pullProgress (h : Stands s t) : Stands s (pullProgress t) := by
  unfold Machine.pullProgress
  split
  · rename_i hc
    have hp : t.rse.pull.phase ≠ .idle := by simp [hc.1]
    (repeat' split)
    · exact h.failPull _ _ hp hc.2.2
    · exact h.failPull _ _ hp hc.2.2
    · exact h.completionCheck hc.2.2
    · exact h.beginRegion _ _ (Or.inr hc.1)
    · exact h
  · exact h

theorem takePullEnd (h : Stands s t) (l : Link) (f : PullEndFrame) : Stands s (takePullEnd l f t) := by
  unfold Machine.takePullEnd
  split
  · rename_i hc
    have hp : t.rse.pull.phase ≠ .idle := by simp [hc.1]
    have hd : t.dev = .running := h.channel.2 (by rcases h.pulled hp with h1 | h1 <;> simp [h1])
    split
    · refine Stands.pullProgress ?_
      exact
        { h with
          pulled := fun _ => h.pulled hp
          ending := fun _ => rfl
          server := fun _ => h.server hp
          pass := fun _ => Or.inr rfl }
    · exact h.failPull _ _ hp (h.no_pass hd (by simp [hc.1]))
  · exact h

theorem writeBuffer (h : Stands s t) : Stands s (writeBuffer t) := by
  by_cases hw : ∃ b rest l, t.rse.pull.buffers = b :: rest ∧ t.rse.pull.server = some l
  · obtain ⟨b, rest, l, hb, hl⟩ := hw
    have written := h.overwriteAll (blockWrites b.block b.words)
    rw [writeBuffer_eq hb hl]
    have cju : (Machine.overwriteAll (blockWrites b.block b.words) t).cju = t.cju := by simp
    refine Stands.pullProgress (Stands.sendCtrl (written.still (.of ?_)) _ _)
    simp only [standView, cju]
  · rw [writeBuffer_of_none hw]
    exact h

/-! ### The vote -/

/-- The marks set behind the walk are blocks of the served set (R156). -/
theorem markResend (h : Stands s t) : Stands s (markResend t) := by
  unfold Machine.markResend
  split
  · rename_i hc
    refine { h with resend := fun hl => ?_ }
    have law := (resendLaw_iff t).1 (h.resend hl)
    refine (resendLaw_iff _).2 ⟨fun b hb => ?_, law.2⟩
    rcases (mem_setUnion _ _ _).1 hb with hb | hb
    · exact law.1 b hb
    · refine ⟨by simpa [serving] using hc.1, (inServedSet_iff _ _).2 ⟨hc.2, ?_⟩⟩
      have covered := (List.mem_filter.1 hb).2
      simp only [Bool.and_eq_true, List.any_eq_true] at covered
      exact covered.1
  · exact h

/-- The cycle closes with the CURRENT slots empty: what was NEXT is CURRENT (R122, R128). -/
theorem advance (h : Stands s t) (own : VoteFrame)
    (he : ∀ l, ∀ f ∈ t.vtu.table.get l, f.cycle ≠ voteCycle t) : Stands s (advance own t) := by
  refine { h with vote := fun hl => ?_ }
  have law := (voteLaw_iff t).1 (h.vote hl)
  refine (voteLaw_iff _).2 fun l => ?_
  have hf := (framesLaw_iff _ _).1 (law l)
  refine (framesLaw_iff _ _).2 ⟨hf.1, hf.2.imp id fun hp => ⟨fun f hm => Or.inl ?_, hp.2⟩⟩
  exact (hp.1 f hm).resolve_left (he l f hm)

theorem staleDelta (h : Stands s t) : Stands s (staleDelta t) := by
  unfold Machine.staleDelta
  split
  · exact h.endService _ _
  · exact h

/-- The channel enters READY out of a state in which it votes. -/
theorem enterReady (h : Stands s t) (hd : t.dev = .running) (hp : t.rse.pull.phase = .idle)
    (hv : recentState t.cju.chan = false) (hr : t.cju.chan = some .rollingBack → t.vtu.deciding = none) :
    Stands s (enterReady t) := by
  have emptied : Stands s (emptyJournal t) := h.still (.of rfl)
  exact emptied.setChan .ready hd (fun _ => rfl) (fun hn => absurd hp hn) (Or.inr hv) fun hc => Or.inl (hr hc)

/-- The slots of v + 1 are emptied, or those of v. -/
theorem filterFrames (h : Stands s t) (p : VoteFrame → Bool) (timer : Option Nat) :
    Stands s
      { t with
        vtu :=
          { t.vtu with timer := timer, table := ⟨t.vtu.table.one.filter p, t.vtu.table.two.filter p⟩ } } := by
  refine { h with vote := fun hl => ?_ }
  have law := (voteLaw_iff t).1 (h.vote hl)
  have kept : ∀ l, framesLaw t l = true → framesLaw t (l.filter p) = true := fun l hl => by
    rw [framesLaw_iff] at hl ⊢
    exact ⟨(List.length_filter_le _ _).trans hl.1, hl.2.imp id fun hp => (Placed.filter (v := voteCycle t) hp p)⟩
  exact (voteLaw_iff _).2 fun l => by cases l with
    | one => exact kept _ (law .one)
    | two => exact kept _ (law .two)

theorem emptyNext (h : Stands s t) : Stands s (emptyNext t) := h.filterFrames _ t.vtu.timer

theorem takeFrames (h : Stands s t) : Stands s (takeFrames t) := h.filterFrames _ none

end Stands

/-- What `completeDecision` starts from: the decision is taken, or its rollback is over. -/
structure Decided (s t : State) (o : VoteOutcome) : Prop extends Stands s t where
  running : t.dev = .running
  votes : recentState t.cju.chan = false
  settled : t.cju.chan = some .rollingBack → t.vtu.deciding = none
  lost : memberRank o = false → t.vtu.permitted = false
  emptied : o ≠ .collectiveAbandon → o ≠ .excluded → o ≠ .outvoted →
    ∀ l, ∀ f ∈ t.vtu.table.get l, f.cycle ≠ voteCycle t

namespace Decided

variable {s t : State} {o : VoteOutcome}

theorem idle (h : Decided s t o) : t.rse.pull.phase = .idle :=
  h.toStands.not_pulling (fun hc => by simpa [recentState, hc] using h.votes) fun hc => by
    simpa [recentState, hc] using h.votes

end Decided

@[simp] theorem enterReady_chan (t : State) : (enterReady t).cju.chan = some .ready := setChan_chan _ _

theorem enterReady_permitted (t : State) (h : t.vtu.permitted = false) : (enterReady t).vtu.permitted = false :=
  setChan_permitted _ _ h

/-- What an outcome leaves: the channel stands, PERMIT stays off where the outcome keeps it off, and OUTVOTED is in CATCHUP. -/
structure Applied (s t : State) (o : VoteOutcome) : Prop extends Stands s t where
  lost : memberRank o = false → t.vtu.permitted = false
  caught : o = .outvoted → t.cju.chan = some .catchup ∧ t.rse.pull.phase = .idle

/-- The event of a decision leaves it all. -/
theorem still_recorded (d : Decision) (t : State) : Still { t with vtu.last := some d } (recordDecision d t) := by
  unfold recordDecision
  dsimp only
  split
  · split
    · exact .of rfl
    · exact still_recordEvent _ _
  · exact still_recordEvent _ _

theorem stands_decision {s t : State} (h : Stands s t) (own : VoteFrame) (frames : PerLink (Option VoteFrame))
    (d : Decision) (hr : t.vtu.permitted = true → memberRank d.outcome = true) :
    Stands s (recordDecision d (setViews own frames (reconsiderMarks t))) := by
  have viewed : Stands s (setViews own frames (reconsiderMarks t)) := h.still (.of rfl)
  have decided : Stands s { setViews own frames (reconsiderMarks t) with vtu.last := some d } :=
    { viewed with voted := fun hp => ⟨d, rfl, hr hp⟩ }
  exact decided.still (still_recorded d _)

/-- PERMIT comes on with a member decision and is recorded with it. -/
theorem stands_raised {s t : State} (h : Stands s t) (hc : t.cju.chan = some .ready) (hs : anySuspect t = false)
    (own : VoteFrame) (frames : PerLink (Option VoteFrame)) (d : Decision) (hr : memberRank d.outcome = true) :
    Stands s (recordDecision d (setViews own frames (reconsiderMarks (raisePermit t)))) := by
  unfold raisePermit
  split
  · exact stands_decision h own frames d fun _ => hr
  · have decided : Stands s { t with vtu := { t.vtu with permitted := true, level := true, last := some d } } :=
      { h with
        permit := fun _ => ⟨by dsimp only; rw [hc]; rfl, hs⟩
        voted := fun _ => ⟨d, rfl, hr⟩
        level := fun _ => rfl }
    refine decided.still (Still.trans ?_ (still_recorded d (setViews own frames
      (reconsiderMarks { t with vtu := { t.vtu with permitted := true, level := true } }))))
    exact .of rfl

namespace Decided

variable {s t : State} {o : VoteOutcome}

/-- The channel state after the frame of a cycle has been judged. -/
theorem entered (h : Decided s t o) (own : VoteFrame) (he : o ≠ .collectiveAbandon) (hx : o ≠ .excluded)
    (hv : o ≠ .outvoted) : Stands s (Machine.staleDelta (Machine.advance own t)) :=
  (h.toStands.advance own (h.emptied he hx hv)).staleDelta

theorem member (h : Decided s t o) (own : VoteFrame) (ho : memberRank o = true) :
    Stands s (Machine.enterReady (Machine.setAgreed true (Machine.staleDelta (Machine.advance own (markResend t))))) := by
  have ne : o ≠ .collectiveAbandon ∧ o ≠ .excluded ∧ o ≠ .outvoted := by cases o <;> simp_all [memberRank]
  refine (Stands.setAgreed_true (Stands.staleDelta (Stands.advance h.toStands.markResend own ?_))).enterReady ?_ ?_ ?_ ?_
  · simpa [voteCycle] using h.emptied ne.1 ne.2.1 ne.2.2
  · simpa [Machine.advance] using h.running
  · simpa [Machine.advance] using h.idle
  · simpa [Machine.advance] using h.votes
  · simpa [Machine.advance] using h.settled

theorem applied (h : Decided s t o) (own : VoteFrame) (ho : memberRank o = false) : Applied s (applyOutcome o own t) o := by
  have lost := h.lost ho
  cases o with
  | member3 => cases ho
  | member2 => cases ho
  | collectiveAbandon =>
    refine ⟨Stands.enterReady h.toStands.emptyNext ?_ ?_ ?_ ?_, fun _ => enterReady_permitted _ (by simpa using lost),
      fun hn => by cases hn⟩
    · simpa using h.running
    · simpa using h.idle
    · simpa using h.votes
    · simpa using h.settled
  | outvoted =>
    have chan : (outvotedOutcome t).cju.chan = some .catchup := setChan_chan _ _
    refine ⟨(h.toStands.endService _ _).setChan .catchup ?_ ?_ (fun _ => Or.inl rfl) (Or.inl rfl) ?_,
      fun _ => setChan_permitted _ _ (by simpa using lost), fun _ => ⟨chan, ?_⟩⟩
    · simpa using h.running
    · exact fun hn => absurd (phase_endService _ _ _ h.requester) hn
    · intro hc
      exact Or.inl (by simpa using h.settled (by simpa using hc))
    · simpa [applyOutcome, outvotedOutcome] using h.idle
  | excluded =>
    have cleared : Stands s (clearPrev (emptyJournal t)) := h.toStands.still (.of rfl)
    refine ⟨cleared.loseAgreed.setChan .excluded ?_ ?_ ?_ (Or.inl rfl) ?_, fun _ => setChan_permitted _ _ (by simpa using lost),
      fun hn => by cases hn⟩
    · simpa using h.running
    · exact fun hn => absurd (loseAgreed_phase (clearPrev (emptyJournal t)) h.requester) hn
    · intro hn
      exact absurd (by simpa using h.idle) hn
    · intro hc
      exact Or.inl (by simpa using h.settled (by simpa using hc))
  | noQuorum =>
    unfold applyOutcome noQuorumOutcome
    dsimp only
    split
    · have stale := h.entered own (by simp) (by simp) (by simp)
      refine ⟨stale.loseAgreed.enterReady ?_ ?_ ?_ ?_, fun _ => enterReady_permitted _ (by simpa [Machine.advance] using lost),
        fun hn => by cases hn⟩
      · simpa [Machine.advance] using h.running
      · simpa [Machine.advance] using h.idle
      · simpa [Machine.advance] using h.votes
      · simpa [Machine.advance] using h.settled
    · refine ⟨h.toStands.emptyNext.loseAgreed.enterReady ?_ ?_ ?_ ?_, fun _ => enterReady_permitted _ (by simpa using lost),
        fun hn => by cases hn⟩
      · simpa using h.running
      · simpa using h.idle
      · simpa using h.votes
      · simpa using h.settled

theorem complete (h : Decided s t o) (server : Option Link) (own : VoteFrame) (frames : PerLink (Option VoteFrame)) :
    Stands s (completeDecision o server own frames t) := by
  unfold completeDecision
  simp only []
  cases ho : memberRank o with
  | true =>
    have member := h.member own ho
    have recorded : Stands s (recordDecision ⟨o, voteCycle t, agreeingSet t.position own frames, t.cmu.ms⟩
        (setViews own frames (reconsiderMarks (memberOutcome own t)))) := by
      unfold memberOutcome
      simp only []
      split
      · refine stands_decision member own frames _ fun _ => ho
      · rename_i hs
        exact stands_raised member (enterReady_chan _) (by simpa using hs) own frames _ ho
    cases o with
    | member3 | member2 => exact recorded
    | collectiveAbandon | outvoted | excluded | noQuorum => cases ho
  | false =>
    have applied := h.applied own ho
    have recorded := stands_decision applied.toStands own frames
      ⟨o, voteCycle t, agreeingSet t.position own frames, t.cmu.ms⟩ (fun hp => by rw [applied.lost ho] at hp; cases hp)
    unfold afterDecision
    split
    · refine recorded.startDelta _ ?_ ?_
      · simpa using (applied.caught rfl).1
      · simpa using (applied.caught rfl).2
    · exact recorded.testFull
    · exact recorded

end Decided

namespace Stands

variable {s t : State}

theorem rollbackCheck (h : Stands s t) : Stands s (rollbackCheck t) := by
  refine h.foldl _ (fun u e hu => ?_) _
  unfold checkRegion
  simp only []
  (repeat' split)
  · exact hu.suspected e.1 false _ rfl
  · exact hu
  · exact hu

theorem not_permitted (h : Stands s t) (hc : permitState t.cju.chan = false) : t.vtu.permitted = false := by
  by_contra hp
  have := (h.permit (by simpa using hp)).1
  rw [hc] at this
  cases this

theorem finishDecisionRollback (h : Stands s t) (d : Deciding) (hc : t.cju.chan = some .rollingBack) :
    Stands s (finishDecisionRollback d t) := by
  unfold Machine.finishDecisionRollback
  simp only []
  have checked := h.rollbackCheck
  have chan : (Machine.rollbackCheck t).cju.chan = some .rollingBack := by simpa using hc
  generalize Machine.rollbackCheck t = u at checked chan
  have off := checked.not_permitted (by rw [chan]; rfl)
  have post : ∀ f : VoteFrame, Stands s { u with vtu := { u.vtu with own := some f, deciding := none } } := fun f =>
    { checked with deciding := fun _ => (decidingLaw_iff _).2 (Or.inl rfl) }
  split
  · exact Decided.complete (o := .collectiveAbandon)
      { post _ with
        running := checked.running chan
        votes := by dsimp only; rw [chan]; rfl
        settled := fun _ => rfl
        lost := fun _ => off
        emptied := fun hn => absurd rfl hn } _ _ _
  · exact Decided.complete (o := .excluded)
      { post _ with
        running := checked.running chan
        votes := by dsimp only; rw [chan]; rfl
        settled := fun _ => rfl
        lost := fun _ => off
        emptied := fun _ hn => absurd rfl hn } _ _ _

theorem takeDecision (h : Stands s t) (hc : t.cju.chan = some .voting) : Stands s (takeDecision t) := by
  unfold Machine.takeDecision
  split
  · rename_i own _
    simp only []
    have taken := h.takeFrames
    have chan : (Machine.takeFrames t).cju.chan = some .voting := hc
    have emptied : ∀ l, ∀ f ∈ (Machine.takeFrames t).vtu.table.get l, f.cycle ≠ voteCycle (Machine.takeFrames t) := by
      intro l f hf
      have other : (f.cycle != voteCycle t) = true := by
        cases l with
        | one | two => exact (List.mem_filter.1 hf).2
      exact bne_iff_ne.1 other
    generalize Machine.takeFrames t = u at taken chan emptied
    split
    · rename_i o server _
      refine Decided.complete ?_ _ _ _
      split
      · rename_i hm
        exact
          { taken with
            running := taken.running chan
            votes := by rw [chan]; rfl
            settled := fun hr => by rw [chan] at hr; cases hr
            lost := fun hn => by rw [hm] at hn; cases hn
            emptied := fun _ _ _ => emptied }
      · exact
          { taken.dropPermit _ with
            running := by simpa using taken.running chan
            votes := by simp [chan, recentState]
            settled := fun hr => by simp [chan] at hr
            lost := fun _ => by rw [dropPermit_vtu_of_level _ _ taken.level]
            emptied := fun _ _ _ => by
              rw [dropPermit_vtu_of_level _ _ taken.level]
              simpa [voteCycle] using emptied }
    · rename_i majority _
      have rolling := (taken.dropPermit (.outcome none)).setChan_rolling ⟨⟨currentFrame t .one, currentFrame t .two⟩, majority⟩
        (by simpa using chan)
      split
      · exact rolling.finishDecisionRollback _ (setChan_chan _ _)
      · exact rolling
  · exact h

theorem testDecision (h : Stands s t) : Stands s (testDecision t) := by
  unfold Machine.testDecision
  split
  · rename_i hc
    exact h.takeDecision hc.1
  · exact h

theorem linkChanged (h : Stands s t) : Stands s (linkChanged t) := h.testDecision.testFull

/-- The channel enters VOTING out of a cycle or of its rollback. -/
theorem handOver (h : Stands s t) (f : VoteFrame) (hd : t.dev = .running) (hv : recentState t.cju.chan = false)
    (hr : t.cju.chan = some .rollingBack → t.vtu.deciding = none) : Stands s (handOver f t) := by
  have hp : t.rse.pull.phase = .idle :=
    h.not_pulling (fun hc => by simp [recentState, hc] at hv) fun hc => by simp [recentState, hc] at hv
  have sent : Stands s (sendBoth (.vote f)
      { t with vtu := { t.vtu with own := some f, timer := some t.times.voteTimeout } }) :=
    Stands.still (t := { t with vtu := { t.vtu with own := some f, timer := some t.times.voteTimeout } })
      (h.still (.of rfl)) (still_sendBoth _ _)
  refine (sent.setChan .voting ?_ (fun _ => rfl) ?_ (Or.inr ?_) ?_).testDecision
  · simpa using hd
  · intro hn
    exact absurd (by simpa using hp) hn
  · simpa using hv
  · intro hc
    exact Or.inl (by simpa using hr (by simpa using hc))

theorem finishRollback (h : Stands s t) (hc : t.cju.chan = some .rollingBack) : Stands s (finishRollback t) := by
  unfold Machine.finishRollback
  split
  · exact h.finishDecisionRollback _ hc
  · rename_i hn
    refine h.rollbackCheck.handOver _ ?_ ?_ ?_
    · simpa using h.running hc
    · simp [hc, recentState]
    · simpa using fun _ => hn

theorem abandon (h : Stands s t) (c : AbandonCause) : Stands s (abandon c t) := by
  unfold Machine.abandon
  split
  · rename_i ho
    simp only []
    have open_ : t.cju.chan = some .opened ∨ t.cju.chan = some .closing := by simpa [cycleOpen] using ho
    have hd : t.dev = .running := h.channel.2 (by rcases open_ with hc | hc <;> simp [hc])
    have dropped : Stands s (dropSigned
        { Machine.recordEvent (.abandoned c) (Machine.dropPermit .abandon t) with cju.timer := none }) :=
      Stands.still (t := { Machine.recordEvent (.abandoned c) (Machine.dropPermit .abandon t) with cju.timer := none })
        (((h.dropPermit _).recordEvent _).still (.of rfl)) (still_leaveQueue _ _ _)
    have chan : (dropSigned { Machine.recordEvent (.abandoned c) (Machine.dropPermit .abandon t) with
        cju.timer := none }).cju.chan = t.cju.chan := by simp
    have dev : (dropSigned { Machine.recordEvent (.abandoned c) (Machine.dropPermit .abandon t) with
        cju.timer := none }).dev = t.dev := by simp
    generalize dropSigned { Machine.recordEvent (.abandoned c) (Machine.dropPermit .abandon t) with cju.timer := none } = u
      at dropped chan dev
    rw [← chan] at open_
    rw [← dev] at hd
    have votes : recentState u.cju.chan = false := by rcases open_ with hc | hc <;> rw [hc] <;> rfl
    have rolls : u.cju.chan ≠ some .rollingBack := by rcases open_ with hc | hc <;> simp [hc]
    have idle : u.rse.pull.phase = .idle := by
      rcases open_ with hc | hc <;> exact dropped.not_pulling (by simp [hc]) (by simp [hc])
    have rolling : Stands s (Machine.setChan (some .rollingBack) u) :=
      dropped.setChan .rollingBack hd (fun _ => rfl) (fun hn => absurd idle hn) (Or.inr votes) fun hc => absurd hc rolls
    (repeat' split)
    · exact dropped.handOver _ hd votes fun hc => absurd hc rolls
    · exact rolling.finishRollback (setChan_chan _ _)
    · exact rolling
  · exact h

theorem abandonFor (h : Stands s t) (a : Nat) : Stands s (abandonFor a t) := by
  unfold Machine.abandonFor
  (repeat' split)
  · exact h.abandon _
  · exact h
  · exact h

theorem endDrain (h : Stands s t) (hc : t.cju.chan = some .closing) : Stands s (endDrain t) := by
  unfold Machine.endDrain
  split
  · exact h.abandon _
  · exact h.handOver _ (h.running hc) (by rw [hc]; rfl) fun hr => by rw [hc] at hr; cases hr

end Stands
end Sys2Proof.Machine
end

section
/-! PROOFS. The walk for `Stands` over the grants of the memory port. -/

namespace Sys2Proof.Machine

open Sys2Proof

/-! ### What a block-read grant keeps of the service -/

theorem tableOf_scrubBlock (i : Option Initiator) (b : Nat) (s : State) :
    tableOf (scrubBlock (findUncorrectable i) b s) = tableOf s :=
  scrubBlock_table (finds_findUncorrectable i) b s

theorem service_scrubBlock (i : Option Initiator) (b : Nat) (s : State) :
    (scrubBlock (findUncorrectable i) b s).rse.service = s.rse.service :=
  scrub_keep (fun u => u.rse.service) (fun _ => rfl) i b s

theorem walkPos_of_serverTarget {s : State} {b : Nat} (hw : s.rse.service.phase = .walking) (hb : serverTarget s = some b) :
    s.rse.service.walkPos = some (.block b) := by
  simp only [serverTarget, hw] at hb
  split at hb
  case h_1 c hc =>
    cases hb
    exact hc
  case h_2 => cases hb

theorem mem_setErase_of (l : List Nat) (a b : Nat) (h : b ∈ setErase l a) : b ∈ l := ((mem_setErase l a b).1 h).1

theorem still_ptu (x : Ptu) (t : State) : Still t { t with ptu := x } := .of rfl

namespace Stands

variable {s t : State}

/-! ### The service's grant (R153) -/

theorem markWaiting (h : Stands s t) : Stands s (markWaiting t) := h.still (.of (by rfl))

/-- A mark goes. -/
theorem eraseResend (h : Stands s t) (b : Nat) : Stands s { t with cju.resend := setErase t.cju.resend b } :=
  { h with
    resend := fun hl => by
      obtain ⟨marks, walk⟩ := (resendLaw_iff t).1 (h.resend hl)
      exact (resendLaw_iff _).2 ⟨fun c hc => marks c (mem_setErase_of _ _ _ hc), walk⟩ }

theorem sendBlock (h : Stands s t) (b : Nat) (ws : List Word)
    (hk : resendLaw s = true → t.rse.service.phase = .walking → t.rse.service.kind = some .full) :
    Stands s (sendBlock b ws t) := by
  unfold Machine.sendBlock
  split
  case h_1 l _ =>
    refine Stands.markWaiting (Stands.afterBlock ?_ b hk)
    exact (h.eraseResend b).still (.of (by rfl))
  case h_2 => exact h

/-- A block of the walk that is unavailable gets a RESEND mark (R155). -/
theorem insertResend (h : Stands s t) (b : Nat) (hp : t.rse.service.phase = .walking)
    (hb : resendLaw s = true → inServedSet t b = true) : Stands s { t with cju.resend := setInsert t.cju.resend b } :=
  { h with
    resend := fun hl => by
      obtain ⟨marks, walk⟩ := (resendLaw_iff t).1 (h.resend hl)
      refine (resendLaw_iff _).2 ⟨fun c hc => ?_, walk⟩
      rcases (mem_setInsert _ _ _).1 hc with rfl | hc
      · exact ⟨by simp [hp], hb hl⟩
      · exact marks c hc }

theorem blockUnavailable (h : Stands s t) (b : Nat)
    (hb : resendLaw s = true → t.rse.service.phase = .walking → inServedSet t b = true) :
    Stands s (blockUnavailable b t) := by
  have full : resendLaw s = true → t.rse.service.phase = .walking → t.rse.service.kind = some .full := fun hl hw =>
    ((inServedSet_iff t b).1 (hb hl hw)).1
  unfold Machine.blockUnavailable
  split
  case h_1 => exact h.endService _ _
  case h_2 hw => exact (h.insertResend b hw fun hl => hb hl hw).afterBlock b full
  case h_3 =>
    refine Stands.markWaiting (Stands.afterBlock ?_ b full)
    exact h.still (.of (by rfl))

theorem serveBlock (h : Stands s t) : Stands s (serveBlock t) := by
  unfold Machine.serveBlock
  split
  case h_1 b hb =>
    have scrubbed := h.scrubBlock (Machine.findUncorrectable none) (fun _ _ hu => hu.findUncorrectable _ _) b
    have table := tableOf_scrubBlock none b t
    have service := service_scrubBlock none b t
    dsimp only
    generalize Machine.scrubBlock (Machine.findUncorrectable none) b t = u at scrubbed table service
    have served : resendLaw s = true → u.rse.service.phase = .walking → inServedSet u b = true := fun hl hw => by
      rw [service] at hw
      obtain ⟨-, walk⟩ := (resendLaw_iff t).1 (h.resend hl)
      rw [inServedSet_congr table (by rw [service]) (by rw [service])]
      exact walk hw b (walkPos_of_serverTarget hw hb)
    have full : resendLaw s = true → u.rse.service.phase = .walking → u.rse.service.kind = some .full := fun hl hw =>
      ((inServedSet_iff u b).1 (served hl hw)).1
    split
    · exact scrubbed.sendBlock _ _ full
    · split
      · exact scrubbed.endService _ _
      · exact scrubbed.sendBlock _ _ full
    · exact scrubbed.blockUnavailable b served
  case h_2 => exact h

/-! ### The processor port's grants -/

theorem giveAnswer (h : Stands s t) (i : Initiator) (r : Resp) (d : Word) : Stands s (giveAnswer i r d t) := h.still (.of (by rfl))

theorem unhold (h : Stands s t) (i : Initiator) : Stands s (unhold i t) := h.still (.of (by rfl))

theorem forgetTried (h : Stands s t) : Stands s (forgetTried t) := h.still (still_forgetTried t)

theorem procRead (h : Stands s t) : Stands s (procRead t) := by
  unfold Machine.procRead
  split
  · refine Stands.settle ?_
    unfold readForPort
    dsimp only
    split
    · exact (h.unhold _).giveAnswer _ _ _
    · split
      · refine Stands.still ?_ (still_countCorrected _ _)
        exact h.still (.of (by rfl))
      · exact h.still (.of (by rfl))
    · exact (((h.unhold _).giveAnswer _ _ _).findUncorrectable _ _).abandonFor _
  · exact h

theorem writeBack (h : Stands s t) : Stands s (writeBack t) := by
  unfold Machine.writeBack
  split
  · dsimp only
    split
    · exact h.still (.of (by rfl))
    · exact h.still (.of (by rfl))
  · exact h

theorem overflow (h : Stands s t) (e : PwqEntry) : Stands s (overflow e t) := by
  have marked : Stands s (Machine.forgetTried
      { t with cju := { t.cju with wCur := setInsert t.cju.wCur (blockOf e.word), unrevertible := true } }) :=
    Stands.forgetTried (h.still (.of (by rfl)))
  unfold Machine.overflow
  split
  · dsimp only
    split
    · exact marked
    · exact marked.recordEvent _
  · exact h

theorem performHead (h : Stands s t) (e : PwqEntry) : Stands s (performEntry e (Machine.overflow e t)) := by
  have before : Stands s (beforeWrite e t) := by
    unfold beforeWrite
    split
    · exact h.overflow e
    · exact (h.overflow e).still (still_countCorrected _ _)
    · exact (h.overflow e).findUncorrectable _ _
  rw [performEntry_eq]
  split
  · exact before.still (still_recordRefusal _ _ _ _ _)
  · exact before.still (still_writeWord _ _ _ _)

theorem headWrite (h : Stands s t) : Stands s (headWrite t) := by
  unfold Machine.headWrite
  split
  · rename_i e rest _
    have left := (h.performHead e).still (still_leaveQueue [e] rest _)
    dsimp only
    split
    · exact (left.abandonFor _).settle
    · exact left.settle
  · exact h

/-! ### The journal's grants -/

theorem captureHead (h : Stands s t) : Stands s (captureHead t) := by
  unfold Machine.captureHead
  split
  · rename_i e _ _
    have scrubbed := h.scrubBlock (Machine.findUncorrectable (some e.ini)) (fun _ _ hu => hu.findUncorrectable _ _)
      (blockOf e.word)
    dsimp only
    generalize Machine.scrubBlock (Machine.findUncorrectable (some e.ini)) (blockOf e.word) t = u at scrubbed
    have captured : Stands s (Machine.forgetTried { u with cju :=
        { u.cju with
          journal := u.cju.journal ++ [preImage t (blockOf e.word)], wCur := setInsert u.cju.wCur (blockOf e.word) } }) :=
      Stands.forgetTried (scrubbed.still (.of (by rfl)))
    split
    · exact (captured.abandonFor _).settle
    · exact captured.settle
  · exact h

theorem rollbackNewest (h : Stands s t) (hc : t.cju.chan = some .rollingBack) : Stands s (rollbackNewest t) := by
  unfold Machine.rollbackNewest
  split
  · rename_i e _
    have put := h.overwriteAll (knownWrites e)
    have cju : (Machine.overwriteAll (knownWrites e) t).cju = t.cju := by simp
    dsimp only
    generalize Machine.overwriteAll (knownWrites e) t = u at put cju
    rw [← cju] at hc
    have back : Stands s (reconsiderMarks
        { u with cju := { u.cju with journal := u.cju.journal.dropLast, wCur := setErase u.cju.wCur e.block } }) :=
      put.still (.of (by rfl))
    split
    · exact (back.finishRollback hc).settle
    · exact back.settle
  · exact h

/-! ### The patrol's, the link's and the set-up grants -/

theorem endOfRegion (h : Stands s t) (index b : Nat) : Stands s (endOfRegion index b t) := by
  unfold Machine.endOfRegion
  split
  · split
    · exact h.suspected index false _ rfl
    · exact h
  · exact h

theorem accumulate (h : Stands s t) (d : Descriptor) (b : Nat) (found : List Checked) :
    Stands s (accumulate d b found t) := by
  unfold Machine.accumulate
  split
  · exact h.still (still_ptu _ t)
  · exact h

theorem patrolBlock (h : Stands s t) : Stands s (patrolBlock t) := by
  unfold Machine.patrolBlock
  split
  · rename_i b _
    split
    · rename_i e _
      have entered : Stands s (enterRegion e.2 b t) := by
        unfold enterRegion
        split
        · exact h.still (.of (by rfl))
        · exact h
      have scrubbed := entered.scrubBlock (Machine.findUncorrectable none) (fun _ _ hu => hu.findUncorrectable _ _) b
      dsimp only
      generalize Machine.scrubBlock (Machine.findUncorrectable none) b (enterRegion e.2 b t) = u at scrubbed
      have added := scrubbed.accumulate e.2.desc b (readBlock t b)
      generalize Machine.accumulate e.2.desc b (readBlock t b) u = v at added
      have ended := added.endOfRegion e.1 b
      exact ended.still (still_ptu _ _)
    · exact h.still (.of (by rfl))
  · exact h.still (.of (by rfl))

theorem initBlock (h : Stands s t) : Stands s (initBlock t) := by
  unfold Machine.initBlock
  split
  · rename_i op _
    have zeroed := h.overwriteAll (blockWrites op.next (List.replicate Config.blockWords 0))
    dsimp only
    split
    · exact zeroed.still (.of (by rfl))
    · exact Stands.recordEvent (zeroed.still (.of (by rfl))) _
  · exact h

theorem granted (h : Stands s t) (g : Grant) (work : State → State)
    (hw : ∀ u, Stands s u → g.asked u → Stands s (work u)) : Stands s (granted g work t) := by
  rcases granted_cases g work t with same | ⟨p, -, asked, same⟩
  · rw [same]
    exact h
  · rw [same]
    exact hw _ (h.still (.of (by rfl))) asked

end Stands

end Sys2Proof.Machine
end

section
/-! PROOFS. The walk for `Stands` over the passes, the join, the commands and the draining steps. -/

namespace Sys2Proof.Machine

open Sys2Proof

/-- A part whose records are as a reset leaves them. -/
structure Cleared (t : State) : Prop where
  dev : t.dev = .configuring
  chan : t.cju.chan = none
  permitted : t.vtu.permitted = false
  level : t.vtu.level = false
  service : t.rse.service.phase = .idle
  pull : t.rse.pull.phase = .idle
  ending : t.rse.pull.ending = none
  pass : t.sgu.pass = none
  repair : t.cju.repair = []
  resend : t.cju.resend = []
  table : t.vtu.table = ⟨[], []⟩
  deciding : t.vtu.deciding = none

/-- After a reset everything stands. -/
theorem Cleared.stands {t : State} (h : Cleared t) (s : State) : Stands s t where
  channel := by simp [h.dev, h.chan]
  permit hp := by simp [h.permitted] at hp
  voted hp := by simp [h.permitted] at hp
  level hl := by simp [h.level] at hl
  pulled hp := absurd h.pull hp
  ending he := absurd h.ending he
  server hp := absurd h.pull hp
  requester hp := absurd h.service hp
  pass hp := absurd h.pass hp
  repair _ := (repairLaw_iff t).2 (by simp [h.repair])
  resend _ := (resendLaw_iff t).2 (by simp [h.resend, h.service])
  vote _ := voteLaw_of_placed fun l => by
    rw [h.table]
    cases l with
    | one | two => exact ⟨fun _ hf => (nomatch hf), List.nodup_nil⟩
  deciding _ := (decidingLaw_iff t).2 (.inl h.deciding)
  served hp := absurd h.service hp

theorem still_respond (st : Status) (d : Nat) (tag : Byte) (ws : List Word) (t : State) : Still t (respond st d tag ws t) :=
  .of rfl

theorem still_cmu (c : Cmu) (t : State) : Still t { t with cmu := c } := .of rfl

theorem still_pwq (q : Pwq) (t : State) : Still t { t with pwq := q } := .of rfl

theorem still_startWalk (t : State) : Still t (startWalk t) := .of rfl

theorem still_stopWalk (t : State) : Still t (stopWalk t) := .of rfl

namespace Stands

variable {s t : State}

theorem respond (h : Stands s t) (st : Status) (d : Nat) (tag : Byte) (ws : List Word) : Stands s (respond st d tag ws t) :=
  h.still (still_respond st d tag ws t)

/-! ### The join (R165, R166) -/

/-- The channel comes to be with the device RUNNING. -/
theorem joined (h : Stands s t) (hd : t.dev ≠ .running) (pass : t.sgu.pass = none) (c : ChannelState) (v : Vtu)
    (off : v.permitted = false ∧ v.level = false) (last : v.deciding = t.vtu.deciding)
    (hv : voteLaw s = true → voteLaw { t with dev := .running, cju.chan := some c, vtu := v } = true) :
    Stands s { t with dev := .running, cju.chan := some c, vtu := v } := by
  obtain ⟨none, -, service, pull⟩ := h.off hd
  exact
    { h with
      channel := ⟨fun _ => rfl, fun _ => rfl⟩
      permit := fun hp => absurd (off.1.symm.trans hp) Bool.false_ne_true
      voted := fun hp => absurd (off.1.symm.trans hp) Bool.false_ne_true
      level := fun hl => absurd (off.2.symm.trans hl) Bool.false_ne_true
      pulled := fun hp => absurd pull hp
      pass := fun hp => absurd pass hp
      repair := fun hs => by
        obtain ⟨length, nodup, vital, -⟩ := (repairLaw_iff t).1 (h.repair hs)
        exact (repairLaw_iff _).2 ⟨length, nodup, vital, fun hc => nomatch hc⟩
      vote := hv
      deciding := fun hs => by
        refine (decidingLaw_iff _).2 (.inl ?_)
        rcases (decidingLaw_iff t).1 (h.deciding hs) with hn | hr
        · exact last.trans hn
        · rw [none] at hr
          cases hr
      served := fun hp => absurd service hp }

end Stands

theorem joining_view (bad : Nat) (s : State) : standView (joining bad s) = standView { s with dev := .running } ∧
    (joining bad s).rgt.entries = s.rgt.entries := by
  have moved : ∀ u, standView (walkIfEnabled u) = standView u ∧ (walkIfEnabled u).rgt.entries = u.rgt.entries := by
    intro u
    unfold walkIfEnabled
    split
    · exact ⟨rfl, rfl⟩
    · exact ⟨rfl, rfl⟩
  unfold joining
  obtain ⟨view, entries⟩ := moved (setDev .running
    (recordEvent (.operationDone (if ahead s then .excluded else .ready) none) { s with start := some (startRecord bad s) }))
  rw [view, entries, setDev_frame]
  exact ⟨rfl, rfl⟩

namespace Stands

variable {s t : State}

theorem join (h : Stands s t) (bad : Nat) (hd : t.dev = .signing) (pass : t.sgu.pass = none) : Stands s (join bad t) := by
  have notRunning : t.dev ≠ .running := by simp [hd]
  obtain ⟨none, off, service, pull⟩ := h.off notRunning
  have low : t.vtu.level = false := by
    by_contra hl
    have on := h.level (by simpa using hl)
    rw [off] at on
    cases on
  obtain ⟨view, entries⟩ := joining_view bad t
  rw [join_eq]
  generalize joining bad t = j at view entries
  have fields := view
  simp only [standView, Prod.mk.injEq] at fields
  obtain ⟨dev, chan, permitted, level, last, agreed, phase, requester, kind, regionSet, walkPos, pulling, server, ending,
    signing, repair, resend, frames, cycle, deciding⟩ := fields
  split
  case isTrue =>
    have moved := h.joined notRunning pass .excluded { t.vtu with permitted := false, level := false } ⟨rfl, rfl⟩ rfl
      fun hs => (voteLaw_iff _).2 fun l =>
        (framesLaw_iff _ _).2 ⟨((framesLaw_iff _ _).1 ((voteLaw_iff t).1 (h.vote hs) l)).1, .inl rfl⟩
    refine Stands.testFull (moved.still (.of ?_))
    rw [setChan_frame]
    simp only [standView, Vtu.toChan_off j.vtu _ _ (permitted.trans off), dev, permitted, level, last, agreed, phase,
      requester, kind, regionSet, walkPos, pulling, server, ending, signing, repair, resend, frames, cycle, deciding, entries,
      off, low]
  case isFalse =>
    rw [sortKept_enterReady, sortKept_setAgreed]
    have moved := h.joined notRunning pass .ready
      { t.vtu with permitted := false, level := false, agreedBase := true, table := (sortKept t).vtu.table } ⟨rfl, rfl⟩ rfl
      fun hs => voteLaw_of_placed fun l => by
        dsimp only
        rw [sortKept_table]
        exact Placed.sortFrames _ _
    refine moved.still (.of ?_)
    rw [enterReady_frame, setAgreed_frame]
    simp only [standView, sortKept, voteCycle, dev, permitted, level, last, agreed, phase,
      requester, kind, regionSet, walkPos, pulling, server, ending, signing, repair, resend, frames, cycle, deciding, entries,
      off, low]

/-! ### The passes (R62, R63) -/

theorem signingRead (h : Stands s t) (hd : t.dev = .signing) : Stands s (signingRead t) := by
  have signed := h.signBlock
  have dev := signBlock_dev t
  unfold Machine.signingRead
  dsimp only
  generalize Machine.signBlock t = u at signed dev
  split
  · exact (signed.join _ (dev.trans hd) ‹_›).settle
  · exact signed

theorem reSigningRead (h : Stands s t) : Stands s (reSigningRead t) := by
  have signed := h.signBlock
  unfold Machine.reSigningRead
  dsimp only
  split
  · exact (signed.completionCheck ‹_›).settle
  · exact signed

/-! ### The commands (R169) -/

theorem silenceCheck (h : Stands s t) (l : Link) : Stands s (silenceCheck l t) := by
  unfold Machine.silenceCheck
  dsimp only
  split
  · exact (Stands.recordEvent (h.still (.of (by rfl))) _).linkChanged
  · exact h

theorem takeRestore (h : Stands s t) (tag : Byte) (ps : List Word)
    (permits : whileRunning t (restoreRefusal t.cju.chan t.vtu.agreedBase) = none) : Stands s (takeRestore tag ps t) := by
  obtain ⟨hd, hc⟩ : t.dev = .running ∧ restoreRefusal t.cju.chan t.vtu.agreedBase = none := by
    unfold whileRunning at permits
    split at permits
    · exact ⟨‹_›, permits⟩
    · cases permits
  have chan : t.cju.chan = some .excluded ∨ t.cju.chan = some .ready ∧ t.vtu.agreedBase = false := by
    unfold restoreRefusal at hc
    split at hc
    · exact .inl ‹_›
    · refine .inr ⟨‹_›, ?_⟩
      cases hb : t.vtu.agreedBase with
      | false => rfl
      | true => simp [hb] at hc
    all_goals cases hc
  have service : t.rse.service.phase = .idle := by
    rcases chan with hx | ⟨-, lost⟩
    · exact h.not_serving (by rw [hx]; rfl)
    · by_contra hp
      obtain ⟨-, agreed, -⟩ := (servingCondition_iff t).1 (h.served hp)
      rw [lost] at agreed
      cases agreed
  have ready : t.cju.chan = some .excluded ∨ t.cju.chan = some .ready := chan.imp id And.left
  have pull : t.rse.pull.phase = .idle := by
    rcases ready with hx | hx
    · exact h.not_pulling (by simp [hx]) (by simp [hx])
    · exact h.not_pulling (by simp [hx]) (by simp [hx])
  have kept : t.cju.chan ≠ some .rollingBack := by
    rcases ready with hx | hx
    · simp [hx]
    · simp [hx]
  unfold Machine.takeRestore
  split
  · exact h.respond _ _ _ _
  · split
    · have retried : Stands s { t with rse.pull.attempts := 0 } := h.still (.of (by rfl))
      exact ((retried.startFull _ hd service pull kept).respond _ _ _ _).settle
    · exact h.respond _ _ _ _

theorem takeSetPatrol (h : Stands s t) (tag : Byte) (ps : List Word) : Stands s (takeSetPatrol tag ps t) := by
  have set : ∀ e i, Stands s { t with ptu := { t.ptu with enable := e, interval := i } } := fun _ _ => h.still (still_ptu _ t)
  unfold Machine.takeSetPatrol
  split
  · exact h.respond _ _ _ _
  · refine Stands.respond ?_ _ _ _ _
    split
    · split
      · exact (set _ _).still (still_startWalk _)
      · exact (set _ _).still (still_stopWalk _)
    · exact set _ _

theorem takeOpenCycle (h : Stands s t) (tag : Byte) : Stands s (takeOpenCycle tag t) := by
  unfold Machine.takeOpenCycle
  split
  · rename_i hc
    have timed : Stands s { t with cju.timer := some t.times.cycleLimit } := h.still (.of (by rfl))
    refine ((timed.setChan .opened (h.running hc) (fun _ => rfl) (fun hp => ?_) (.inr ?_) fun hr => ?_).respond _ _ _ _).settle
    · exact absurd (h.not_pulling (by simp [hc]) (by simp [hc])) hp
    · rw [hc]
      rfl
    · rw [hc] at hr
      cases hr
  · exact h.respond _ _ _ _

theorem takeCloseCycle (h : Stands s t) (tag : Byte) : Stands s (takeCloseCycle tag t) := by
  unfold Machine.takeCloseCycle
  split
  · rename_i hc
    have timed : Stands s { t with cju.timer := none } := h.still (.of (by rfl))
    refine ((timed.setChan .closing (h.running hc) (fun _ => rfl) (fun hp => ?_) (.inr ?_) fun hr => ?_).respond _ _ _ _).settle
    · exact absurd (h.not_pulling (by simp [hc]) (by simp [hc])) hp
    · rw [hc]
      rfl
    · rw [hc] at hr
      cases hr
  · exact h.respond _ _ _ _

theorem lowerHold (h : Stands s t) : Stands s (lowerHold t) := by
  unfold Machine.lowerHold
  split
  · exact h.still (.of (by rfl))
  · exact h

theorem raiseHold (h : Stands s t) : Stands s (raiseHold t) := by
  unfold Machine.raiseHold
  split
  · exact h.still (.of (by rfl))
  · exact h

theorem effectOf (h : Stands s t) (cmd : Command) (tag : Byte) (ps : List Word) (permits : stateRefusal cmd t = none) :
    Stands s (effectOf cmd tag ps t) := by
  cases cmd with
  | clearTable =>
    dsimp only [Machine.effectOf, takeClearTable]
    split
    · exact h.respond _ _ _ _
    · exact h
  | loadSlots =>
    dsimp only [Machine.effectOf, takeLoadSlots]
    split
    · exact h.respond _ _ _ _
    · exact h.still (.of (by rfl))
  | setTiming =>
    have timed : Stands s { t with times := clampedTimes ps } := h.still (.of (by rfl))
    have checked : Stands s (silenceBoth { t with times := clampedTimes ps }) := (timed.silenceCheck .one).silenceCheck .two
    dsimp only [Machine.effectOf]
    rw [takeSetTiming_eq]
    exact (checked.respond _ _ _ _).settle
  | setQueue =>
    have set := h.still (still_pwq { t.pwq with upper := clampedUpper ps, lower := clampedLower ps } t)
    dsimp only [Machine.effectOf, takeSetQueue]
    exact (set.raiseHold.lowerHold.respond _ _ _ _).settle
  | initMemory =>
    dsimp only [Machine.effectOf, takeInitMemory]
    split
    · exact h.respond _ _ _ _
    · split
      · exact h.respond _ _ _ _
      · exact h
  | openCycle => exact h.takeOpenCycle tag
  | closeCycle => exact h.takeCloseCycle tag
  | abandonCycle =>
    dsimp only [Machine.effectOf, takeAbandonCycle]
    exact ((h.abandon _).respond _ _ _ _).settle
  | restore => exact h.takeRestore tag ps permits
  | setPatrol => exact h.takeSetPatrol tag ps
  | setAlertMask =>
    dsimp only [Machine.effectOf, takeSetAlertMask]
    split
    · exact h.respond _ _ _ _
    · exact (h.still (still_cmu (Cmu.retest { t.cmu with mask := BitVec.ofNat 19 (param ps 1) }) t)).respond _ _ _ _
  | readRegion =>
    dsimp only [Machine.effectOf, takeReadRegion]
    split
    · exact h.respond _ _ _ _
    · exact h.respond _ _ _ _
  | readEvents =>
    dsimp only [Machine.effectOf, takeReadEvents]
    split
    · exact h.respond _ _ _ _
    · exact (h.still (still_cmu _ t)).respond _ _ _ _
  | loadRegion | endConfig | reset => exact h
  | readState | readPeers => exact h.respond _ _ _ _

theorem takeCommand (h : Stands s t) (cmd : Command) (tag : Byte) (ps : List Word) : Stands s (takeCommand cmd tag ps t) := by
  have taken : Stands s { pend t with cmu.buffer := some ⟨cmd, tag, ps⟩ } := h.still (.of (by rfl))
  unfold Machine.takeCommand
  dsimp only
  split
  · exact taken.respond _ _ _ _
  · split
    · exact taken.respond _ _ _ _
    · split
      · exact taken.respond _ _ _ _
      · rename_i permits
        refine taken.effectOf cmd tag ps (Eq.trans ?_ permits)
        cases cmd <;> rfl

theorem submit (h : Stands s t) : Stands s (submit t) := by
  have pended : Stands s (pend t) := h.still (.of (by rfl))
  unfold Machine.submit
  split
  · exact h.recordEvent _
  · split
    · exact pended.respond _ _ _ _
    · exact pended.respond _ _ _ _
    · exact h.takeCommand _ _ _

theorem presentCommand (h : Stands s t) (cmd : Command) (tag : Byte) (ps : List Word) :
    Stands s (presentCommand cmd tag ps t) := by
  have written : ∀ q, Stands s (Machine.giveAnswer .data .okay 0 { t with cmu.request := q }) := fun _ => h.still (.of (by rfl))
  unfold Machine.presentCommand
  split
  · exact h.giveAnswer _ _ _
  · dsimp only
    split
    · exact (written _).recordEvent _
    · split
      · exact (written _).takeCommand _ _ _
      · refine Stands.respond ?_ _ _ _ _
        exact h.still (.of (by rfl))

theorem refuseAddress (h : Stands s t) (i : Initiator) (a : Nat) : Stands s (refuseAddress i a t) :=
  (h.still (still_recordRefusal _ _ _ _ _)).giveAnswer _ _ _

theorem transfer (h : Stands s t) (i : Initiator) (w : Bool) (a : BitVec 26) (be : BitVec 4) (d : Word) :
    Stands s (transfer i w a be d t) := by
  have aperture : ∀ n k, Stands s (apertureTransfer w n k be d t) := by
    intro n k
    unfold apertureTransfer
    split
    · split
      · exact h.still (.of (by rfl))
      · exact h.giveAnswer _ _ _
    · split
      · split
        · exact (h.giveAnswer _ _ _).submit
        · exact h.giveAnswer _ _ _
      · split
        · exact h.refuseAddress _ _
        · exact h.giveAnswer _ _ _
  unfold Machine.transfer
  dsimp only
  split
  · exact h.giveAnswer _ _ _
  · split
    · exact h.still (still_arrive _ _)
    · split
      · exact aperture _ _
      · exact h.refuseAddress _ _

/-! ### The draining commands (R8, R36) -/

/-- In CONFIGURING the table may be any. -/
theorem reload (h : Stands s t) (hd : t.dev = .configuring) {u : State} (view : standView u = standView t) : Stands s u := by
  obtain ⟨-, off, idle, -⟩ := h.off (by simp [hd])
  simp only [standView, Prod.mk.injEq] at view
  obtain ⟨dev, chan, permitted, level, last, agreed, phase, requester, kind, regionSet, walkPos, pulling, server, ending,
    pass, repair, resend, frames, cycle, deciding⟩ := view
  refine
    { channel := by rw [dev, chan]; exact h.channel
      permit := fun hp => ?_
      voted := by rw [permitted, last]; exact h.voted
      level := by rw [permitted, level]; exact h.level
      pulled := by rw [pulling, chan]; exact h.pulled
      ending := by rw [pulling, ending]; exact h.ending
      server := by rw [pulling, server]; exact h.server
      requester := by rw [phase, requester]; exact h.requester
      pass := by rw [pass, dev, pulling]; exact h.pass
      repair := fun hs => ?_
      resend := fun hs => ?_
      vote := by rw [voteLaw_congr chan cycle frames]; exact h.vote
      deciding := fun hs => by
        rw [decidingLaw_iff, deciding, chan]
        exact (decidingLaw_iff t).1 (h.deciding hs)
      served := fun hp => absurd (phase.trans idle) hp }
  · rw [permitted, off] at hp
    cases hp
  · obtain ⟨-, -, -, empty⟩ := (repairLaw_iff t).1 (h.repair hs)
    refine (repairLaw_iff u).2 ?_
    rw [repair, empty hd]
    simp
  · obtain ⟨marks, -⟩ := (resendLaw_iff t).1 (h.resend hs)
    refine (resendLaw_iff u).2 ⟨fun b hb => ?_, fun hw => ?_⟩
    · rw [resend] at hb
      exact absurd idle (marks b hb).1
    · rw [phase, idle] at hw
      cases hw

end Stands

theorem standView_unloadRegion (index : Nat) (t : State) : standView (unloadRegion index t) = standView t := by
  unfold unloadRegion zeroSlot
  split
  · split
    · rfl
    · rfl
  · rfl

theorem standView_storeRegion (index : Nat) (d : Descriptor) (t : State) :
    standView (storeRegion index d t) = standView t := by
  have unloaded := standView_unloadRegion index t
  unfold storeRegion zeroSlot
  dsimp only
  generalize unloadRegion index t = u at unloaded
  rw [← unloaded]
  split
  · rfl
  · rfl

theorem standView_unloadAll (ks : List Nat) (t : State) :
    standView (ks.foldl (fun s k => unloadRegion k s) t) = standView t := by
  induction ks generalizing t with
  | nil => rfl
  | cons k ks ih => exact (ih (unloadRegion k t)).trans (standView_unloadRegion k t)

namespace Stands

variable {s t : State}

theorem clearTableNow (h : Stands s t) (hd : t.dev = .configuring) (f : CmdFrame) : Stands s (clearTableNow f t) := by
  unfold Machine.clearTableNow
  refine Stands.settle (Stands.respond (Stands.still ?_ (still_stopWalk _)) _ _ _ _)
  split
  · exact h.reload hd (standView_unloadAll _ t)
  · exact h.reload hd (standView_unloadRegion _ t)

theorem loadRegionNow (h : Stands s t) (hd : t.dev = .configuring) (f : CmdFrame) : Stands s (loadRegionNow f t) := by
  unfold Machine.loadRegionNow
  split
  · exact (h.respond _ _ _ _).settle
  · exact (((h.reload hd (standView_storeRegion _ _ t)).still (still_stopWalk _)).respond _ _ _ _).settle

theorem initMemoryNow (h : Stands s t) (f : CmdFrame) : Stands s (initMemoryNow f t) := by
  unfold Machine.initMemoryNow
  refine Stands.settle (Stands.respond ?_ _ _ _ _)
  exact h.still (.of (by rfl))

/-- The part enters SIGNING out of CONFIGURING (R164). -/
theorem enterSigning (h : Stands s t) (hd : t.dev = .configuring) : Stands s (enterSigning t) := by
  obtain ⟨none, off, idle, -⟩ := h.off (by simp [hd])
  have moved : Stands s { t with dev := .signing, rgt.fingerprint := fingerprintOf t.rgt.entries } :=
    { h with
      channel := by simp [none]
      permit := fun hp => absurd (off.symm.trans hp) Bool.false_ne_true
      pass := fun _ => .inl rfl
      repair := fun hs => by
        obtain ⟨length, nodup, vital, -⟩ := (repairLaw_iff t).1 (h.repair hs)
        exact (repairLaw_iff _).2 ⟨length, nodup, vital, fun hc => nomatch hc⟩
      served := fun hp => absurd idle hp }
  have signing : Stands s (setDev .signing { t with rgt.fingerprint := fingerprintOf t.rgt.entries }) := by
    refine moved.still ?_
    rw [setDev_frame]
    exact .of rfl
  unfold Machine.enterSigning
  exact signing.beginRegion _ _ (.inl (by simp))

theorem endConfigNow (h : Stands s t) (hd : t.dev = .configuring) (f : CmdFrame) : Stands s (endConfigNow f t) := by
  unfold Machine.endConfigNow
  split
  · exact (h.respond _ _ _ _).settle
  · split
    · exact (h.respond _ _ _ _).settle
    · exact ((h.enterSigning hd).respond _ _ _ _).settle

end Stands

end Sys2Proof.Machine
end

section
/-! PROOFS. The walk for `Stands` over the resets, the received frames and the timers. -/

namespace Sys2Proof.Machine

open Sys2Proof

/-! ### Resets (R15, R167) -/

theorem cleared_afterPower (p : BitVec 2) (m : List (Nat × StoredWord)) : Cleared (State.afterPower p m) :=
  ⟨rfl, rfl, rfl, rfl, rfl, rfl, rfl, rfl, rfl, rfl, rfl, rfl⟩

theorem cleared_heldInReset (p : BitVec 2) (m : List (Nat × StoredWord)) : Cleared (heldInReset p m) :=
  ⟨rfl, rfl, rfl, rfl, rfl, rfl, rfl, rfl, rfl, rfl, rfl, rfl⟩

theorem cleared_resetDone (s : State) : Cleared (resetDone s) := by
  unfold resetDone
  generalize resetRecorded s = u
  rw [setAgreed_frame, setChan_frame, setDev_frame]
  have off : (resetBlocks u).vtu.toChan (resetBlocks u).cju.chan Option.none = (resetBlocks u).vtu := Vtu.toChan_off _ _ _ rfl
  refine ⟨rfl, rfl, ?_, ?_, rfl, rfl, rfl, rfl, rfl, rfl, ?_, ?_⟩
  · exact congrArg Vtu.permitted off
  · exact congrArg Vtu.level off
  · exact congrArg Vtu.table off
  · exact congrArg Vtu.deciding off

/-! ### The vote table (R122, R123) -/

theorem length_keepRecent (f : VoteFrame) (l : List VoteFrame) : (keepRecent f l).length ≤ 2 := by
  simp only [keepRecent, List.length_drop]
  omega

theorem cycle_of_distance {s : State} {f : VoteFrame} {n : BitVec 32} (h : distance s f = n) : f.cycle = voteCycle s + n := by
  rw [← h]
  unfold distance
  rw [BitVec.add_comm, BitVec.sub_add_cancel]

theorem still_putPeer (l : Link) (p : Peer) (t : State) : Still t (putPeer l p t) := .of rfl

namespace Stands

variable {s t : State}

/-- The command reset leaves nothing for the laws to look at (R15). -/
theorem of_resetNow (f : CmdFrame) : Stands s (resetNow f t) := by
  rw [resetNow_eq]
  exact (((cleared_resetDone t).stands s).respond _ _ _ _).settle

theorem releaseReset (h : Stands s t) (p : BitVec 2) : Stands s (releaseReset p t) := by
  unfold Machine.releaseReset
  split
  · exact h.still (.of (by rfl))
  · exact h

/-! ### Frames (R110, R118 to R123) -/

theorem refresh (h : Stands s t) (l : Link) : Stands s (refresh l t) := by
  unfold Machine.refresh
  dsimp only
  split
  · exact h.still (still_putPeer _ _ t)
  · exact ((h.still (still_putPeer _ _ t)).recordEvent _).linkChanged

theorem restartSilence (h : Stands s t) (l : Link) (f : HelloFields) (m : Bool) : Stands s (restartSilence l f m t) := by
  unfold Machine.restartSilence
  split
  · exact h.still (.of (by rfl))
  · exact h

theorem abortService (h : Stands s t) (l : Link) (f : HelloFields) : Stands s (abortService l f t) := by
  unfold Machine.abortService
  split
  · split
    · exact h.endService _ _
    · exact h
  · exact h

theorem receiveHello (h : Stands s t) (l : Link) (fp : BitVec 16) (f : HelloFields) : Stands s (receiveHello l fp f t) := by
  have put : ∀ p, Stands s (putPeer l p t) := fun p => h.still (still_putPeer l p t)
  unfold Machine.receiveHello
  dsimp only
  have shown : Stands s (if (t.lkc.peers.get l).heard = true ∧ (t.lkc.peers.get l).matched = (fp == sentFingerprint t)
      then putPeer l { t.lkc.peers.get l with
        heard := true, matched := fp == sentFingerprint t, hello := some ⟨f, fp⟩, lastFrame := some t.cmu.ms } t
      else Machine.recordEvent (.peerState (peerPosition t.position l) true (fp == sentFingerprint t))
        (putPeer l { t.lkc.peers.get l with
          heard := true, matched := fp == sentFingerprint t, hello := some ⟨f, fp⟩, lastFrame := some t.cmu.ms } t)) := by
    split
    · exact put _
    · exact (put _).recordEvent _
  have handled := (shown.restartSilence l f (fp == sentFingerprint t)).abortService l f
  split
  · exact handled.testFull
  · exact handled.testDecision.testFull

/-- A frame takes its place in its peer's list. -/
theorem putTable (h : Stands s t) (l : Link) (fs : List VoteFrame)
    (hf : framesLaw t (t.vtu.table.get l) = true → framesLaw t fs = true) : Stands s (putTable l fs t) :=
  { h with
    vote := fun hs => by
      have law := (voteLaw_iff t).1 (h.vote hs)
      refine (voteLaw_iff _).2 fun m => ?_
      have same : ∀ x, framesLaw (Machine.putTable l fs t) x = framesLaw t x := fun _ => rfl
      rw [same]
      unfold Machine.putTable
      rw [PerLink.get_put]
      split
      · exact hf (law l)
      · exact law m }

theorem placeFrame (h : Stands s t) (l : Link) (f : VoteFrame) (hf : f.cycle = voteCycle t ∨ f.cycle = voteCycle t + 1)
    (hr : recentState t.cju.chan = false) :
    Stands s (Machine.putTable l (Machine.placeFrame f (t.vtu.table.get l)) t) :=
  h.putTable l _ fun law => by
    obtain ⟨-, placed⟩ := (framesLaw_iff _ _).1 law
    have placed : Placed (voteCycle t) (t.vtu.table.get l) := placed.resolve_left (by simp [hr])
    exact framesLaw_of_placed (placed.placeFrame f hf)

theorem takeVote (h : Stands s t) (l : Link) (f : VoteFrame) : Stands s (takeVote l f t) := by
  unfold Machine.takeVote
  split
  case isTrue hk =>
    rw [keepsRecent_eq] at hk
    exact h.putTable l _ fun _ => (framesLaw_iff _ _).2 ⟨length_keepRecent _ _, .inl hk⟩
  case isFalse hk =>
    rw [keepsRecent_eq, Bool.not_eq_true] at hk
    unfold placeVote
    split
    case isTrue hd =>
      have current : f.cycle = voteCycle t := by simp [cycle_of_distance hd]
      exact (h.placeFrame l f (.inl current) hk).testDecision
    case isFalse =>
      split
      case isTrue hd => exact h.placeFrame l f (.inr (cycle_of_distance hd)) hk
      case isFalse =>
        split
        · exact h
        · split
          · exact h.recordEvent _
          · exact h

theorem receiveOther (h : Stands s t) (l : Link) (fp : BitVec 16) (consumer : State → State)
    (hc : ∀ u, Stands s u → Stands s (consumer u)) : Stands s (receiveOther l fp consumer t) := by
  unfold Machine.receiveOther
  dsimp only
  split
  · exact hc _ (h.refresh l)
  · exact h.refresh l

theorem receive (h : Stands s t) (l : Link) (f : SentFrame) : Stands s (receive l f t) := by
  unfold Machine.receive listening
  split
  · exact h
  · refine Stands.settle ?_
    unfold receiveFrame
    split
    · exact h.receiveHello _ _ _
    · exact h.receiveOther _ _ _ fun _ hu => hu.takeVote _ _
    · exact h.receiveOther _ _ _ fun _ hu => hu.takePull _ _
    · exact h.receiveOther _ _ _ fun _ hu => hu.takeBlock _ _
    · exact h.receiveOther _ _ _ fun _ hu => hu.takeCredit _ _
    · exact h.receiveOther _ _ _ fun _ hu => hu.takePullEnd _ _

theorem receiveBytes (h : Stands s t) (l : Link) (bs : List Byte) : Stands s (receiveBytes l bs t) := by
  unfold Machine.receiveBytes
  split
  · exact h.receive _ _
  · unfold listening
    split
    · exact h
    · exact (h.still (still_putPeer _ _ t)).still (still_linkErrorEvent _ _ _ _)

theorem transmitEnd (h : Stands s t) (l : Link) : Stands s (transmitEnd l t) := by
  unfold Machine.transmitEnd
  split
  · exact (h.still (still_modifyTx _ _ t)).settle
  · exact h

/-! ### The timers -/

theorem closeDrained (h : Stands s t) : Stands s (closeDrained t) := by
  unfold Machine.closeDrained
  split
  · rename_i hc
    exact (h.endDrain hc.1).settle
  · exact h

theorem cycleLimit (h : Stands s t) : Stands s (cycleLimit t) := by
  unfold Machine.cycleLimit
  split
  · exact (h.abandon _).settle
  · exact h

theorem voteTimeout (h : Stands s t) : Stands s (voteTimeout t) := by
  unfold Machine.voteTimeout
  split
  · rename_i hc
    exact (h.takeDecision hc.2).settle
  · exact h

theorem peerSilence (h : Stands s t) (l : Link) : Stands s (peerSilence l t) := by
  unfold Machine.peerSilence
  split
  · exact (h.silenceCheck l).settle
  · exact h

theorem helloExpiry (h : Stands s t) : Stands s (helloExpiry t) := by
  unfold Machine.helloExpiry
  split
  · exact (h.still (still_helloTrigger t)).still (still_kick _)
  · exact h

theorem patrolExpiry (h : Stands s t) : Stands s (patrolExpiry t) := by
  unfold Machine.patrolExpiry
  split
  · exact h.still (still_ptu _ t)
  · exact h

theorem pullTimeout (h : Stands s t) : Stands s (pullTimeout t) := by
  unfold Machine.pullTimeout
  split
  · rename_i hc
    have hp : t.rse.pull.phase ≠ .idle := by simp [hc.1]
    have hd : t.dev = .running := h.channel.2 (by rcases h.pulled hp with h1 | h1 <;> simp [h1])
    exact (h.failPull _ _ hp (h.no_pass hd (by simp [hc.1]))).settle
  · exact h

theorem creditTimeout (h : Stands s t) : Stands s (creditTimeout t) := by
  unfold Machine.creditTimeout
  split
  · exact (h.endService _ _).settle
  · exact h

/-- A half-period of PERMIT (R136). -/
theorem togglePermit (h : Stands s t) : Stands s (togglePermit t) := by
  unfold Machine.togglePermit
  split
  · rename_i hp
    exact { h with level := fun _ => hp }
  · exact h

theorem whenReady (h : Stands s t) (f : State → State) (hf : Stands s (f t)) : Stands s (whenReady f t) := by
  unfold Machine.whenReady
  split
  · exact h
  · exact hf

/-- A draining command takes effect in CONFIGURING, unless it is the reset (R8, R36). -/
theorem drained (h : Stands s t) (config : configLaw t = true) (cmd : Command) (work : CmdFrame → State → State)
    (hw : ∀ f, cmd = .reset ∨ t.dev = .configuring → Stands s (work f t)) : Stands s (drained cmd work t) := by
  unfold Machine.drained
  split
  · rename_i f hf
    split
    · rename_i hc
      refine hw f ?_
      unfold configLaw at config
      rw [hf] at config
      simpa [hc.1] using config
    · exact h
  · exact h

end Stands

end Sys2Proof.Machine
end

section
/-! PROOFS. The command buffer (R36, R168) under every step, and PERMIT's law. -/

namespace Sys2Proof.Machine

open Sys2Proof

/-! ### The command buffer -/

/-- The laws of the command buffer hold of `t` where they hold of `s`. -/
structure Commands (s t : State) : Prop where
  command : commandLaw s = true → commandLaw t = true
  config : configLaw s = true → configLaw t = true

/-- What the laws of the command buffer look at. -/
def commandView (s : State) := (s.cmu.header, s.cmu.buffer, s.dev)

/-- No command waits in the buffer. -/
structure Answered (t : State) : Prop where
  buffer : t.cmu.buffer = none
  header : t.cmu.header.status ≠ .pending

theorem Answered.settle {t : State} (h : Answered t) : Answered (settle t) :=
  ⟨by simp [h.buffer], by simp [h.header]⟩

theorem answered_done (tag : Byte) (ws : List Word) (t : State) : Answered (done tag ws t) := ⟨rfl, nofun⟩

theorem answered_accepted (tag : Byte) (t : State) : Answered (accepted tag t) := ⟨rfl, nofun⟩

theorem answered_refusedState (c : Subcode) (tag : Byte) (t : State) : Answered (refusedState c tag t) := ⟨rfl, nofun⟩

theorem answered_badField (n : Nat) (tag : Byte) (t : State) : Answered (badField n tag t) := ⟨rfl, nofun⟩

namespace Commands

variable {s t : State}

theorem refl (s : State) : Commands s s := ⟨id, id⟩

/-- CONFIGURING is left only with a reset in the buffer, or with none. -/
theorem of_quiet (header : t.cmu.header = s.cmu.header) (buffer : t.cmu.buffer = s.cmu.buffer)
    (dev : s.dev = .configuring → t.dev = .configuring) : Commands s t where
  command h := by
    unfold commandLaw at h ⊢
    rw [header, buffer]
    exact h
  config h := by
    unfold configLaw at h ⊢
    rw [buffer]
    cases hf : s.cmu.buffer with
    | none => rfl
    | some f =>
      rw [hf] at h
      simp only [Bool.or_eq_true, beq_iff_eq] at h ⊢
      exact h.imp id dev

theorem of_view (h : commandView t = commandView s) : Commands s t := by
  simp only [commandView, Prod.mk.injEq] at h
  obtain ⟨header, buffer, dev⟩ := h
  exact of_quiet header buffer fun hd => dev.trans hd

theorem trans {u : State} (h : Commands s t) (h' : Commands t u) : Commands s u :=
  ⟨fun hs => h'.command (h.command hs), fun hs => h'.config (h.config hs)⟩

/-- With its answer the command leaves the buffer (R170). -/
theorem of_answered (h : Answered t) : Commands s t where
  command _ := by
    unfold commandLaw
    rw [h.buffer]
    simpa using h.header
  config _ := by
    unfold configLaw
    rw [h.buffer]

/-- A draining command waits in the buffer (R168). -/
theorem of_waiting (f : CmdFrame) (buffer : t.cmu.buffer = some f) (header : t.cmu.header.status = .pending)
    (waits : drains f.cmd = true) (dev : f.cmd = .reset ∨ t.dev = .configuring) : Commands s t where
  command _ := by
    unfold commandLaw
    rw [buffer, header]
    simpa using waits
  config _ := by
    unfold configLaw
    rw [buffer]
    simpa using dev

end Commands

/-! ### Taking a command (R169) -/

/-- A command is answered, or it drains and waits. -/
theorem effectOf_answers (cmd : Command) (tag : Byte) (ps : List Word) (x : State) :
    Answered (effectOf cmd tag ps x) ∨ drains cmd = true ∧ effectOf cmd tag ps x = x := by
  cases cmd with
  | clearTable =>
    dsimp only [effectOf, takeClearTable]
    split
    · exact .inl (answered_badField _ _ _)
    · exact .inr ⟨rfl, rfl⟩
  | loadSlots =>
    dsimp only [effectOf, takeLoadSlots]
    split
    · exact .inl (answered_badField _ _ _)
    · exact .inl (answered_done _ _ _)
  | setTiming =>
    dsimp only [effectOf, takeSetTiming]
    exact .inl (answered_done _ _ _).settle
  | setQueue =>
    dsimp only [effectOf, takeSetQueue]
    exact .inl (answered_done _ _ _).settle
  | initMemory =>
    dsimp only [effectOf, takeInitMemory]
    split
    · exact .inl (answered_badField _ _ _)
    · split
      · exact .inl (answered_badField _ _ _)
      · exact .inr ⟨rfl, rfl⟩
  | openCycle =>
    dsimp only [effectOf, takeOpenCycle]
    split
    · exact .inl (answered_done _ _ _).settle
    · exact .inl (answered_done _ _ _)
  | closeCycle =>
    dsimp only [effectOf, takeCloseCycle]
    split
    · exact .inl (answered_accepted _ _).settle
    · exact .inl (answered_done _ _ _)
  | abandonCycle =>
    dsimp only [effectOf, takeAbandonCycle]
    exact .inl (answered_accepted _ _).settle
  | restore =>
    dsimp only [effectOf, takeRestore]
    split
    · exact .inl (answered_badField _ _ _)
    · split
      · exact .inl (answered_accepted _ _).settle
      · exact .inl (answered_refusedState _ _ _)
  | setPatrol =>
    dsimp only [effectOf, takeSetPatrol]
    split
    · exact .inl (answered_badField _ _ _)
    · exact .inl (answered_done _ _ _)
  | setAlertMask =>
    dsimp only [effectOf, takeSetAlertMask]
    split
    · exact .inl (answered_badField _ _ _)
    · exact .inl (answered_done _ _ _)
  | readRegion =>
    dsimp only [effectOf, takeReadRegion]
    split
    · exact .inl (answered_badField _ _ _)
    · exact .inl (answered_done _ _ _)
  | readEvents =>
    dsimp only [effectOf, takeReadEvents]
    split
    · exact .inl (answered_badField _ _ _)
    · exact .inl (answered_done _ _ _)
  | readState | readPeers => exact .inl (answered_done _ _ _)
  | loadRegion | endConfig | reset => exact .inr ⟨rfl, rfl⟩

/-- The draining commands but the reset are permitted in CONFIGURING alone (R161). -/
theorem configuring_of_permitted (cmd : Command) (s : State) (hd : drains cmd = true) (permits : stateRefusal cmd s = none) :
    cmd = .reset ∨ s.dev = .configuring := by
  have only : ∀ c, unlessConfiguring c s = none → s.dev = .configuring := fun c h => by
    unfold unlessConfiguring at h
    split at h
    · assumption
    · cases h
  cases cmd with
  | clearTable | loadRegion | initMemory | endConfig => exact .inr (only _ permits)
  | reset => exact .inl rfl
  | loadSlots | setTiming | setQueue | openCycle | closeCycle | abandonCycle | restore | setPatrol | setAlertMask | readState
  | readRegion | readPeers | readEvents => cases hd

namespace Commands

variable {s t : State}

theorem of_takeCommand (cmd : Command) (tag : Byte) (ps : List Word) (u : State) : Commands s (takeCommand cmd tag ps u) := by
  unfold takeCommand
  dsimp only
  split
  · exact of_answered ⟨rfl, nofun⟩
  · split
    · exact of_answered ⟨rfl, nofun⟩
    · split
      · exact of_answered (answered_refusedState _ _ _)
      · rename_i permits
        rcases effectOf_answers cmd tag ps { pend u with cmu.buffer := some ⟨cmd, tag, ps⟩ } with answers | ⟨waits, same⟩
        · exact of_answered answers
        · rw [same]
          exact of_waiting ⟨cmd, tag, ps⟩ rfl rfl waits (configuring_of_permitted cmd u waits permits)

theorem submit (h : Commands s t) : Commands s (submit t) := by
  unfold Machine.submit
  split
  · exact h.trans (of_view (by simp [commandView]))
  · split
    · exact of_answered ⟨rfl, nofun⟩
    · exact of_answered ⟨rfl, nofun⟩
    · exact of_takeCommand _ _ _ _

theorem of_presentCommand (cmd : Command) (tag : Byte) (ps : List Word) (s : State) :
    Commands s (presentCommand cmd tag ps s) := by
  unfold presentCommand
  split
  · exact of_view rfl
  · dsimp only
    split
    · exact of_view (by simp [commandView])
    · split
      · exact of_takeCommand _ _ _ _
      · exact of_answered ⟨rfl, nofun⟩

theorem of_transfer (i : Initiator) (w : Bool) (a : BitVec 26) (be : BitVec 4) (d : Word) (s : State) :
    Commands s (transfer i w a be d s) := by
  have refused : ∀ i a, Commands s (refuseAddress i a s) := fun i a => of_view (by simp [commandView, refuseAddress])
  have answered : ∀ i r d, Commands s (giveAnswer i r d s) := fun _ _ _ => of_view rfl
  have aperture : ∀ n k, Commands s (apertureTransfer w n k be d s) := by
    intro n k
    unfold apertureTransfer
    split
    · split
      · exact of_view rfl
      · exact answered _ _ _
    · split
      · split
        · exact (answered _ _ _).submit
        · exact answered _ _ _
      · split
        · exact refused _ _
        · exact answered _ _ _
  unfold transfer
  dsimp only
  split
  · exact answered _ _ _
  · split
    · exact of_view (by simp [commandView])
    · split
      · exact aperture _ _
      · exact refused _ _

theorem of_drained (cmd : Command) (work : CmdFrame → State → State) (hw : ∀ f, Answered (work f s)) :
    Commands s (drained cmd work s) := by
  unfold drained
  split
  · split
    · exact of_answered (hw _)
    · exact refl s
  · exact refl s

theorem of_whenReady (f : State → State) (hf : Commands s (f s)) : Commands s (whenReady f s) := by
  unfold Machine.whenReady
  split
  · exact refl s
  · exact hf

theorem of_granted (g : Grant) (work : State → State) (hw : ∀ u, g.asked u → Commands u (work u)) :
    Commands s (granted g work s) := by
  rcases granted_cases g work s with same | ⟨p, -, asked, same⟩
  · rw [same]
    exact refl s
  · rw [same]
    exact Commands.trans (t := { s with mpu.pointer := p }) (of_view (by rfl)) (hw _ asked)

end Commands

/-! ### What the steps leave of the command buffer -/

theorem commandView_settle (s : State) : commandView (settle s) = commandView s := by simp [commandView]

theorem commandView_abandonFor (a : Nat) (s : State) : commandView (abandonFor a s) = commandView s := by simp [commandView]

theorem commandView_scrubBlock (i : Option Initiator) (b : Nat) (s : State) :
    commandView (scrubBlock (findUncorrectable i) b s) = commandView s :=
  scrub_keep commandView (fun _ => rfl) i b s

theorem commandView_signBlock (s : State) : commandView (signBlock s) = commandView s := by
  by_cases hs : ∃ p k rest e, s.sgu.pass = some p ∧ p.slots = k :: rest ∧ slotRegion s k = some e
  · obtain ⟨p, k, rest, ⟨i, r⟩, hp, hk, hr⟩ := hs
    have read : commandView (passRead p.block s) = commandView s := by
      rw [passRead_frame]
      rfl
    rw [signBlock_eq hp hk hr]
    generalize passRead p.block s = u at read
    rw [← read]
    split
    · rfl
    · simp [commandView]
  · rw [signBlock_of_no_pass hs]

theorem commandView_procRead (s : State) : commandView (procRead s) = commandView s := by
  unfold procRead readForPort
  split
  · rw [commandView_settle]
    dsimp only
    split
    · rfl
    · split
      · rfl
      · rfl
    · simp [commandView]
  · rfl

theorem commandView_writeBack (s : State) : commandView (writeBack s) = commandView s := by
  unfold writeBack
  split
  · dsimp only
    split
    · rfl
    · rfl
  · rfl

theorem commandView_headWrite (s : State) : commandView (headWrite s) = commandView s := by
  unfold headWrite
  split
  · dsimp only
    rw [commandView_settle]
    split
    · simp [commandView]
    · simp [commandView]
  · rfl

theorem commandView_captureHead (s : State) : commandView (captureHead s) = commandView s := by
  unfold captureHead
  split
  · rename_i e _ _
    have read := commandView_scrubBlock (some e.ini) (blockOf e.word) s
    dsimp only
    generalize scrubBlock (findUncorrectable (some e.ini)) (blockOf e.word) s = u at read
    rw [← read]
    split
    · rw [commandView_settle]
      simp [commandView]
    · rw [commandView_settle]
      simp [commandView]
  · rfl

theorem commandView_rollbackNewest (s : State) : commandView (rollbackNewest s) = commandView s := by
  unfold rollbackNewest
  split
  · dsimp only
    rw [commandView_settle]
    split
    · simp [commandView]
    · simp [commandView]
  · rfl

theorem commandView_patrolBlock (s : State) : commandView (patrolBlock s) = commandView s := by
  unfold patrolBlock
  split
  · split
    · rename_i b _ _ e _
      have read := commandView_scrubBlock none b (enterRegion e.2 b s)
      have entered : commandView (enterRegion e.2 b s) = commandView s := by simp [commandView]
      dsimp only
      generalize scrubBlock (findUncorrectable none) b (enterRegion e.2 b s) = u at read
      rw [← entered, ← read]
      simp [commandView]
    · rfl
  · rfl

theorem commandView_serveBlock (s : State) : commandView (serveBlock s) = commandView s := by
  unfold serveBlock
  split
  · rename_i b _
    have read := commandView_scrubBlock none b s
    dsimp only
    generalize scrubBlock (findUncorrectable none) b s = u at read
    rw [← read]
    split
    · simp [commandView]
    · split
      · simp [commandView]
      · simp [commandView]
    · simp [commandView]
  · rfl

theorem commandView_writeBuffer (s : State) : commandView (writeBuffer s) = commandView s := by
  by_cases hw : ∃ b rest l, s.rse.pull.buffers = b :: rest ∧ s.rse.pull.server = some l
  · obtain ⟨b, rest, l, hb, hl⟩ := hw
    rw [writeBuffer_eq hb hl, writtenOut]
    simp [commandView]
  · rw [writeBuffer_of_none hw]

theorem commandView_initBlock (s : State) : commandView (initBlock s) = commandView s := by
  unfold initBlock
  split
  · dsimp only
    split
    · simp [commandView]
    · simp [commandView]
  · rfl

theorem commandView_reSigningRead (s : State) : commandView (reSigningRead s) = commandView s := by
  have signed := commandView_signBlock s
  unfold reSigningRead
  dsimp only
  generalize signBlock s = u at signed
  rw [← signed]
  split
  · simp [commandView]
  · rfl

theorem commandView_receive (l : Link) (f : SentFrame) (s : State) : commandView (receive l f s) = commandView s := by
  have hello : ∀ fp h, commandView (receiveHello l fp h s) = commandView s := by
    intro fp h
    unfold receiveHello
    dsimp only
    split
    · split
      · simp [commandView]
      · simp [commandView]
    · split
      · simp [commandView]
      · simp [commandView]
  have other : ∀ fp c, (∀ u, commandView (c u) = commandView u) → commandView (receiveOther l fp c s) = commandView s := by
    intro fp c hc
    have refreshed : commandView (refresh l s) = commandView s := by simp [commandView]
    unfold receiveOther
    dsimp only
    split
    · rw [hc, refreshed]
    · exact refreshed
  have vote : ∀ v u, commandView (takeVote l v u) = commandView u := by
    intro v u
    unfold takeVote placeVote
    (repeat' split) <;> simp [commandView]
  unfold receive listening
  split
  · rfl
  · rw [commandView_settle]
    unfold receiveFrame
    split
    · exact hello _ _
    · exact other _ _ fun u => vote _ u
    · exact other _ _ fun u => by simp [commandView]
    · exact other _ _ fun u => by simp [commandView]
    · exact other _ _ fun u => by simp [commandView]
    · exact other _ _ fun u => by simp [commandView]

theorem commandView_receiveBytes (l : Link) (bs : List Byte) (s : State) :
    commandView (receiveBytes l bs s) = commandView s := by
  unfold receiveBytes
  split
  · exact commandView_receive _ _ _
  · unfold listening badFrame
    split
    · rfl
    · simp [commandView]

theorem commandView_transmitEnd (l : Link) (s : State) : commandView (transmitEnd l s) = commandView s := by
  unfold transmitEnd
  split
  · rw [commandView_settle]
    rfl
  · rfl

theorem commandView_closeDrained (s : State) : commandView (closeDrained s) = commandView s := by
  unfold closeDrained
  split
  · simp [commandView]
  · rfl

theorem commandView_cycleLimit (s : State) : commandView (cycleLimit s) = commandView s := by
  unfold cycleLimit
  split
  · simp [commandView]
  · rfl

theorem commandView_voteTimeout (s : State) : commandView (voteTimeout s) = commandView s := by
  unfold voteTimeout
  split
  · simp [commandView]
  · rfl

theorem commandView_peerSilence (l : Link) (s : State) : commandView (peerSilence l s) = commandView s := by
  unfold peerSilence silenceCheck
  dsimp only
  split
  · simp [commandView]
  · rfl

theorem commandView_helloExpiry (s : State) : commandView (helloExpiry s) = commandView s := by
  unfold helloExpiry
  split
  · simp [commandView]
  · rfl

theorem commandView_patrolExpiry (s : State) : commandView (patrolExpiry s) = commandView s := by
  unfold patrolExpiry
  split
  · rfl
  · rfl

theorem commandView_pullTimeout (s : State) : commandView (pullTimeout s) = commandView s := by
  unfold pullTimeout
  split
  · simp [commandView]
  · rfl

theorem commandView_creditTimeout (s : State) : commandView (creditTimeout s) = commandView s := by
  unfold creditTimeout
  split
  · simp [commandView]
  · rfl

theorem commandView_togglePermit (s : State) : commandView (togglePermit s) = commandView s := by
  unfold togglePermit
  split
  · rfl
  · rfl

theorem commandView_releaseReset (p : BitVec 2) (s : State) : commandView (releaseReset p s) = commandView s := by
  unfold releaseReset
  split
  · rfl
  · rfl

theorem command_join (bad : Nat) (s : State) : (join bad s).cmu.header = s.cmu.header ∧ (join bad s).cmu.buffer = s.cmu.buffer := by
  rw [join_eq]
  unfold joining walkIfEnabled
  split
  · split
    · simp
    · simp
  · split
    · simp
    · simp

namespace Commands

variable {s t : State}

/-- The join leaves SIGNING (R165). -/
theorem of_signingRead (hd : s.dev = .signing) : Commands s (signingRead s) := by
  have signed := commandView_signBlock s
  simp only [commandView, Prod.mk.injEq] at signed
  obtain ⟨header, buffer, dev⟩ := signed
  unfold signingRead
  dsimp only
  generalize signBlock s = u at header buffer dev
  split
  · obtain ⟨header', buffer'⟩ := command_join (passBad s) u
    refine of_quiet ?_ ?_ fun hc => ?_
    · simp [header', header]
    · simp [buffer', buffer]
    · rw [hd] at hc
      cases hc
  · exact of_quiet header buffer fun hc => dev.trans hc

end Commands

end Sys2Proof.Machine
end

section
/-! PROOFS. Every command keeps what PERMIT stands on, and the records keep their laws. -/

namespace Sys2Proof.Machine

open Sys2Proof

/-! ### PERMIT's invariant clause by clause -/

theorem permitLaw_iff (s : State) : permitLaw s = true ↔
    (s.vtu.permitted = true → s.dev = .running ∧ permitState s.cju.chan = true ∧ anySuspect s = false ∧
      ∃ d, s.vtu.last = some d ∧ memberRank d.outcome = true) ∧
    (s.vtu.level = true → s.vtu.permitted = true) := by
  unfold permitLaw
  cases s.vtu.permitted with
  | false => cases s.vtu.level <;> simp
  | true =>
    cases s.vtu.last with
    | none => simp
    | some d => simp [and_assoc]

theorem channelLaw_iff (s : State) : channelLaw s = true ↔ (s.dev = .running ↔ s.cju.chan.isSome = true) := by
  unfold channelLaw
  rw [beq_iff_eq, Bool.eq_iff_iff, beq_iff_eq]

theorem restoreLaw_iff (s : State) : restoreLaw s = true ↔
    (s.rse.service.phase ≠ .idle → servingCondition s = true) ∧
    (s.rse.pull.phase ≠ .idle → s.cju.chan = some .catchup ∨ s.cju.chan = some .restoring) ∧
    ¬(s.rse.service.phase ≠ .idle ∧ s.rse.pull.phase ≠ .idle) := by
  simp only [restoreLaw, serving, pulling, Bool.and_eq_true, Bool.or_eq_true, Bool.not_eq_true', bne_eq_false_iff_eq,
    beq_iff_eq, Bool.and_eq_false_iff, and_assoc, or_assoc]
  tauto

theorem recordLaw_iff (s : State) : recordLaw s = true ↔
    (s.rse.pull.ending ≠ none → s.rse.pull.phase = .completing) ∧
    (s.rse.pull.phase ≠ .idle → s.rse.pull.server.isSome = true) ∧
    (s.rse.service.phase ≠ .idle → s.rse.service.requester.isSome = true) := by
  simp only [recordLaw, serving, pulling, Bool.and_eq_true, Bool.or_eq_true, Bool.not_eq_true', bne_eq_false_iff_eq,
    beq_iff_eq, and_assoc, Option.isNone_iff_eq_none]
  tauto

theorem passLaw_iff (s : State) : passLaw s = true ↔
    (s.sgu.pass ≠ none → s.dev = .signing ∨ s.rse.pull.phase = .completing) := by
  simp only [passLaw, Bool.or_eq_true, beq_iff_eq, Option.isNone_iff_eq_none, or_assoc]
  tauto

/-- PERMIT's invariant is what `Stands` says of a state by itself, with the law of the command buffer. -/
theorem stands_of_permitInvariant {s : State} (h : permitInvariant s = true) : Stands s s ∧ configLaw s = true := by
  simp only [permitInvariant, Bool.and_eq_true, and_assoc] at h
  obtain ⟨permit, channel, restore, config, record, pass⟩ := h
  obtain ⟨on, level⟩ := (permitLaw_iff s).1 permit
  obtain ⟨served, pulled, -⟩ := (restoreLaw_iff s).1 restore
  obtain ⟨ending, server, requester⟩ := (recordLaw_iff s).1 record
  refine ⟨?_, config⟩
  exact
    { channel := (channelLaw_iff s).1 channel
      permit := fun hp => ⟨(on hp).2.1, (on hp).2.2.1⟩
      voted := fun hp => by
        obtain ⟨-, -, -, voted⟩ := on hp
        exact voted
      level := level
      pulled := pulled
      ending := ending
      server := server
      requester := requester
      pass := (passLaw_iff s).1 pass
      repair := id
      resend := id
      vote := id
      deciding := id
      served := served }

theorem Stands.permitInvariant {s t : State} (h : Stands s t) (config : configLaw t = true) : permitInvariant t = true := by
  simp only [Machine.permitInvariant, Bool.and_eq_true, and_assoc]
  refine ⟨(permitLaw_iff t).2 ⟨fun hp => ?_, h.level⟩, (channelLaw_iff t).2 h.channel,
    (restoreLaw_iff t).2 ⟨h.served, h.pulled, fun ⟨serves, pulls⟩ => ?_⟩, config,
    (recordLaw_iff t).2 ⟨h.ending, h.server, h.requester⟩, (passLaw_iff t).2 h.pass⟩
  · obtain ⟨state, sound⟩ := h.permit hp
    refine ⟨h.channel.2 ?_, state, sound, h.voted hp⟩
    cases hc : t.cju.chan with
    | none => simp [hc, permitState] at state
    | some c => rfl
  · have idle := h.not_serving (by rcases h.pulled pulls with hc | hc <;> rw [hc] <;> rfl)
    exact serves idle

/-! ### Every command -/

theorem outcome_inj {s t : State} (h : (Host.Outcome.next s : Host.Outcome State Fault Refusal) = .next t) : s = t := by
  cases h
  rfl

open Stands in
/-- Every command keeps what PERMIT stands on. -/
theorem stands_exec (i : Instr) (s t : State) (r : Stands s s) (config : configLaw s = true) (h : exec i s = .next t) :
    Stands s t := by
  cases i with
  | powerOn p content =>
    cases outcome_inj h
    split
    · exact ((cleared_heldInReset p (memOf content)).stands s).still (.of (by rfl))
    · exact ((cleared_afterPower p (memOf content)).stands s).still (.of (by rfl))
  | pinResetAssert cut =>
    cases outcome_inj h
    exact ((cleared_heldInReset s.position (arrayAtReset s cut)).stands s).still (.of (by rfl))
  | pinResetRelease p => cases outcome_inj h; exact r.releaseReset p
  | memoryRead i a be => cases outcome_inj h; exact r.transfer _ _ _ _ _
  | memoryWrite i a be d => cases outcome_inj h; exact r.transfer _ _ _ _ _
  | addressRefused i w a be d => cases outcome_inj h; exact r.transfer _ _ _ _ _
  | requestAreaWrite a be d => cases outcome_inj h; exact r.transfer _ _ _ _ _
  | commandOverrun be => cases outcome_inj h; exact r.transfer _ _ _ _ _
  | unknownCommand be => cases outcome_inj h; exact r.transfer _ _ _ _ _
  | procReadGrant => cases outcome_inj h; exact r.whenReady _ (r.granted _ _ fun _ hu _ => hu.procRead)
  | correctionWriteBack => cases outcome_inj h; exact r.whenReady _ (r.granted _ _ fun _ hu _ => hu.writeBack)
  | pwqHeadWrite => cases outcome_inj h; exact r.whenReady _ (r.granted _ _ fun _ hu _ => hu.headWrite)
  | capture => cases outcome_inj h; exact r.whenReady _ (r.granted _ _ fun _ hu _ => hu.captureHead)
  | rollbackGrant => cases outcome_inj h; exact r.whenReady _ (r.granted _ _ fun _ hu ha => hu.rollbackNewest ha.1)
  | patrolRead => cases outcome_inj h; exact r.whenReady _ (r.granted _ _ fun _ hu _ => hu.patrolBlock)
  | serverRead => cases outcome_inj h; exact r.whenReady _ (r.granted _ _ fun _ hu _ => hu.serveBlock.settle)
  | requesterWrite => cases outcome_inj h; exact r.whenReady _ (r.granted _ _ fun _ hu _ => hu.writeBuffer.settle)
  | initBlockWrite => cases outcome_inj h; exact r.whenReady _ (r.granted _ _ fun _ hu _ => hu.initBlock)
  | signingRead => cases outcome_inj h; exact r.whenReady _ (r.granted _ _ fun _ hu ha => hu.signingRead ha.2.2)
  | reSigningRead => cases outcome_inj h; exact r.whenReady _ (r.granted _ _ fun _ hu _ => hu.reSigningRead)
  | clearTableDrained =>
    cases outcome_inj h
    exact r.whenReady _ (r.drained config _ _ fun f hc => r.clearTableNow (hc.resolve_left nofun) f)
  | loadRegionDrained =>
    cases outcome_inj h
    exact r.whenReady _ (r.drained config _ _ fun f hc => r.loadRegionNow (hc.resolve_left nofun) f)
  | initMemoryBegin => cases outcome_inj h; exact r.whenReady _ (r.drained config _ _ fun f _ => r.initMemoryNow f)
  | endConfigChecks =>
    cases outcome_inj h
    exact r.whenReady _ (r.drained config _ _ fun f hc => r.endConfigNow (hc.resolve_left nofun) f)
  | commandReset => cases outcome_inj h; exact r.whenReady _ (r.drained config _ _ fun f _ => of_resetNow f)
  | closeDrainEnd => cases outcome_inj h; exact r.whenReady _ r.closeDrained
  | clearTable tag ps | loadRegion tag ps | loadSlots tag ps | setTiming tag ps | setQueue tag ps | initMemory tag ps
  | endConfig tag ps | openCycle tag ps | closeCycle tag ps | abandonCycle tag ps | restore tag ps | setPatrol tag ps
  | setAlertMask tag ps | readState tag ps | readRegion tag ps | readPeers tag ps | readEvents tag ps | reset tag ps =>
    cases outcome_inj h
    exact r.presentCommand _ _ _
  | cycleLimit => cases outcome_inj h; exact r.whenReady _ r.cycleLimit
  | voteTimerExpiry => cases outcome_inj h; exact r.whenReady _ r.voteTimeout
  | peerSilenceExpiry l => cases outcome_inj h; exact r.whenReady _ (r.peerSilence l)
  | helloTimer => cases outcome_inj h; exact r.whenReady _ r.helloExpiry
  | patrolInterval => cases outcome_inj h; exact r.whenReady _ r.patrolExpiry
  | pullSilenceExpiry => cases outcome_inj h; exact r.whenReady _ r.pullTimeout
  | creditSilenceExpiry => cases outcome_inj h; exact r.whenReady _ r.creditTimeout
  | permitToggle => cases outcome_inj h; exact r.whenReady _ r.togglePermit
  | invalidFrame l bs => cases outcome_inj h; exact r.whenReady _ (r.receiveBytes _ _)
  | helloReceived l fp f | voteReceived l fp f | pullReceived l fp f | blockReceived l fp f | creditReceived l fp f
  | pullEndReceived l fp f =>
    cases outcome_inj h
    exact r.whenReady _ (r.receive _ _)
  | frameTransmitEnd l => cases outcome_inj h; exact r.whenReady _ (r.transmitEnd _)
  | arrayDisturbance w f v => cases outcome_inj h; exact r.still (.of (by rfl))

open Commands in
/-- Every command keeps the laws of the command buffer. -/
theorem commands_exec (i : Instr) (s t : State) (h : exec i s = .next t) : Commands s t := by
  cases i with
  | powerOn p content =>
    cases outcome_inj h
    split
    · exact of_answered ⟨rfl, nofun⟩
    · exact of_answered ⟨rfl, nofun⟩
  | pinResetAssert cut => cases outcome_inj h; exact of_answered ⟨rfl, nofun⟩
  | pinResetRelease p => cases outcome_inj h; exact of_view (commandView_releaseReset p s)
  | memoryRead i a be => cases outcome_inj h; exact of_transfer _ _ _ _ _ s
  | memoryWrite i a be d => cases outcome_inj h; exact of_transfer _ _ _ _ _ s
  | addressRefused i w a be d => cases outcome_inj h; exact of_transfer _ _ _ _ _ s
  | requestAreaWrite a be d => cases outcome_inj h; exact of_transfer _ _ _ _ _ s
  | commandOverrun be => cases outcome_inj h; exact of_transfer _ _ _ _ _ s
  | unknownCommand be => cases outcome_inj h; exact of_transfer _ _ _ _ _ s
  | procReadGrant => cases outcome_inj h; exact of_whenReady _ (of_granted _ _ fun u _ => of_view (commandView_procRead u))
  | correctionWriteBack => cases outcome_inj h; exact of_whenReady _ (of_granted _ _ fun u _ => of_view (commandView_writeBack u))
  | pwqHeadWrite => cases outcome_inj h; exact of_whenReady _ (of_granted _ _ fun u _ => of_view (commandView_headWrite u))
  | capture => cases outcome_inj h; exact of_whenReady _ (of_granted _ _ fun u _ => of_view (commandView_captureHead u))
  | rollbackGrant => cases outcome_inj h; exact of_whenReady _ (of_granted _ _ fun u _ => of_view (commandView_rollbackNewest u))
  | patrolRead => cases outcome_inj h; exact of_whenReady _ (of_granted _ _ fun u _ => of_view (commandView_patrolBlock u))
  | serverRead =>
    cases outcome_inj h
    exact of_whenReady _ (of_granted _ _ fun u _ => of_view ((commandView_settle _).trans (commandView_serveBlock u)))
  | requesterWrite =>
    cases outcome_inj h
    exact of_whenReady _ (of_granted _ _ fun u _ => of_view ((commandView_settle _).trans (commandView_writeBuffer u)))
  | initBlockWrite => cases outcome_inj h; exact of_whenReady _ (of_granted _ _ fun u _ => of_view (commandView_initBlock u))
  | signingRead => cases outcome_inj h; exact of_whenReady _ (of_granted _ _ fun _ ha => of_signingRead ha.2.2)
  | reSigningRead => cases outcome_inj h; exact of_whenReady _ (of_granted _ _ fun u _ => of_view (commandView_reSigningRead u))
  | clearTableDrained =>
    cases outcome_inj h
    refine of_whenReady _ (of_drained _ _ fun f => ?_)
    unfold clearTableNow
    exact (answered_done _ _ _).settle
  | loadRegionDrained =>
    cases outcome_inj h
    refine of_whenReady _ (of_drained _ _ fun f => ?_)
    unfold loadRegionNow
    split
    · exact (answered_badField _ _ _).settle
    · exact (answered_done _ _ _).settle
  | initMemoryBegin =>
    cases outcome_inj h
    refine of_whenReady _ (of_drained _ _ fun f => ?_)
    exact (answered_accepted _ _).settle
  | endConfigChecks =>
    cases outcome_inj h
    refine of_whenReady _ (of_drained _ _ fun f => ?_)
    unfold endConfigNow
    split
    · exact (answered_refusedState _ _ _).settle
    · split
      · exact (answered_refusedState _ _ _).settle
      · exact (answered_accepted _ _).settle
  | commandReset =>
    cases outcome_inj h
    refine of_whenReady _ (of_drained _ _ fun f => ?_)
    exact (answered_done _ _ _).settle
  | closeDrainEnd => cases outcome_inj h; exact of_whenReady _ (of_view (commandView_closeDrained s))
  | clearTable tag ps | loadRegion tag ps | loadSlots tag ps | setTiming tag ps | setQueue tag ps | initMemory tag ps
  | endConfig tag ps | openCycle tag ps | closeCycle tag ps | abandonCycle tag ps | restore tag ps | setPatrol tag ps
  | setAlertMask tag ps | readState tag ps | readRegion tag ps | readPeers tag ps | readEvents tag ps | reset tag ps =>
    cases outcome_inj h
    exact of_presentCommand _ _ _ s
  | cycleLimit => cases outcome_inj h; exact of_whenReady _ (of_view (commandView_cycleLimit s))
  | voteTimerExpiry => cases outcome_inj h; exact of_whenReady _ (of_view (commandView_voteTimeout s))
  | peerSilenceExpiry l => cases outcome_inj h; exact of_whenReady _ (of_view (commandView_peerSilence l s))
  | helloTimer => cases outcome_inj h; exact of_whenReady _ (of_view (commandView_helloExpiry s))
  | patrolInterval => cases outcome_inj h; exact of_whenReady _ (of_view (commandView_patrolExpiry s))
  | pullSilenceExpiry => cases outcome_inj h; exact of_whenReady _ (of_view (commandView_pullTimeout s))
  | creditSilenceExpiry => cases outcome_inj h; exact of_whenReady _ (of_view (commandView_creditTimeout s))
  | permitToggle => cases outcome_inj h; exact of_whenReady _ (of_view (commandView_togglePermit s))
  | invalidFrame l bs => cases outcome_inj h; exact of_whenReady _ (of_view (commandView_receiveBytes l bs s))
  | helloReceived l fp f | voteReceived l fp f | pullReceived l fp f | blockReceived l fp f | creditReceived l fp f
  | pullEndReceived l fp f =>
    cases outcome_inj h
    exact of_whenReady _ (of_view (commandView_receive l _ s))
  | frameTransmitEnd l => cases outcome_inj h; exact of_whenReady _ (of_view (commandView_transmitEnd l s))
  | arrayDisturbance w f v => cases outcome_inj h; exact of_view (by rfl)

/-! ### Every step -/

theorem commands_step (s t : State) (h : step s = .next t) : Commands s t := by
  unfold step at h
  split at h
  · cases outcome_inj h
    unfold tick
    split
    · exact .refl s
    · exact .of_view (by rfl)
  · rename_i c rest _
    exact Commands.trans (t := { s with pending := rest }) (.of_view (by rfl)) (commands_exec c _ t h)

theorem stands_step (s t : State) (hp : permitInvariant s = true) (h : step s = .next t) : Stands s t := by
  obtain ⟨stands, config⟩ := stands_of_permitInvariant hp
  unfold step at h
  split at h
  · cases outcome_inj h
    unfold tick
    split
    · exact stands
    · exact stands.still (.of (by rfl))
  · rename_i c rest _
    have ready : Stands { s with pending := rest } { s with pending := rest } :=
      (stands_of_permitInvariant (s := { s with pending := rest }) hp).1
    have done := stands_exec c _ t ready config h
    exact { done with repair := done.repair, resend := done.resend, vote := done.vote, deciding := done.deciding }

/-- Settles O60, by the walk of `Stands` over the operations. -/
theorem permitStandsOnItsLaw : Obligations.PermitStandsOnItsLaw := fun s t hp h =>
  (stands_step s t hp h).permitInvariant ((commands_step s t h).config (stands_of_permitInvariant hp).2)

/-- Settles O5: the laws of `Kept`, `Commands` and `Stands`, each kept by every step. -/
theorem recordsKeepTheirLaws : Obligations.RecordsKeepTheirLaws := by
  refine ⟨fun s t h => ?_, fun s t hp h => ?_⟩
  · have kept := kept_step s t h
    exact ⟨kept.credit, kept.pull, kept.transmit, kept.signature, kept.table, (commands_step s t h).command, kept.region⟩
  · have stands := stands_step s t hp h
    exact ⟨stands.repair, stands.resend, stands.vote, stands.deciding⟩

end Sys2Proof.Machine
end

section
/-! PROOFS. The sums that the running signatures stand for (R57, R58): what a sum over the stored values of a region's first
blocks depends on, and how a word write moves it. -/

namespace Sys2Proof.Machine

open Sys2Proof

/-! ### Sums -/

theorem sum_range_update (f g : Nat → Nat) (j n : Nat) (hj : j < n) (same : ∀ i, i ≠ j → g i = f i) :
    ((List.range n).map g).sum + f j = ((List.range n).map f).sum + g j := by
  induction n with
  | zero => omega
  | succ n ih =>
    simp only [List.range_succ, List.map_append, List.map_cons, List.map_nil, List.sum_append, List.sum_singleton]
    by_cases hn : j = n
    · subst hn
      have before : (List.range j).map g = (List.range j).map f :=
        List.map_congr_left fun i hi => same i (by have := List.mem_range.1 hi; omega)
      rw [before]
      omega
    · have := ih (by omega)
      rw [same n (Ne.symm hn)]
      omega

/-- The term of an update makes the old value's term the new one's (R55, R58). -/
theorem term_modEq (d : Descriptor) (i : Nat) (old new : Word) :
    wordTerm d i old + updateTerm d i old new ≡ wordTerm d i new [MOD Config.p] := by
  have small : residue old < Config.p := mod_p_lt _
  have parts : weight d i * residue old + weight d i * (residue new + Config.p - residue old) =
      weight d i * residue new + weight d i * Config.p := by
    rw [← Nat.mul_add, ← Nat.mul_add]
    congr 1
    omega
  calc wordTerm d i old + updateTerm d i old new
      ≡ weight d i * residue old + weight d i * (residue new + Config.p - residue old) [MOD Config.p] :=
        (Nat.mod_modEq _ _).add ((Nat.mod_modEq _ _).trans ((Nat.mod_modEq _ _).mul_left _))
    _ = weight d i * residue new + weight d i * Config.p := parts
    _ ≡ weight d i * residue new + 0 [MOD Config.p] :=
        Nat.ModEq.rfl.add (Nat.modEq_zero_iff_dvd.2 (Nat.dvd_mul_left _ _))
    _ ≡ wordTerm d i new [MOD Config.p] := (Nat.mod_modEq _ _).symm

/-! ### A running sum -/

/-- `v` is the sum over the stored values of the first `n` blocks of a region, and these are the data last written. -/
def Added (s : State) (d : Descriptor) (n v : Nat) : Prop := v = storedSum s d n ∧ keptWords s d n = true

theorem signedRight_iff (s : State) (d : Descriptor) :
    signedRight s d = true ↔ Added s d d.count (sigOf s d.slot) := by
  simp [signedRight, Added]

theorem keptWords_iff (s : State) (d : Descriptor) (n : Nat) :
    keptWords s d n = true ↔ ∀ i < 16 * n, (regionWord s d i).stored = (regionWord s d i).written := by
  simp [keptWords, Config.blockWords]

theorem added_zero (s : State) (d : Descriptor) : Added s d 0 0 := ⟨rfl, rfl⟩

/-- A sum stands where each word that was kept has its stored value and its data still. -/
theorem Added.congr {s t : State} {d : Descriptor} {n v : Nat} (h : Added s d n v)
    (same : ∀ i < 16 * n, (regionWord s d i).stored = (regionWord s d i).written →
      (regionWord t d i).stored = (regionWord s d i).stored ∧ (regionWord t d i).written = (regionWord s d i).written) :
    Added t d n v := by
  obtain ⟨sum, kept⟩ := h
  rw [keptWords_iff] at kept
  refine ⟨?_, (keptWords_iff _ _ _).2 fun i hi => ?_⟩
  · rw [sum, storedSum, storedSum]
    congr 2
    refine List.map_congr_left fun i hi => ?_
    have inside := List.mem_range.1 hi
    rw [(same i inside (kept i inside)).1]
  · obtain ⟨stored, written⟩ := same i hi (kept i hi)
    rw [stored, written, kept i hi]

/-- A sum stands where the words of its blocks do. -/
theorem Added.of_words {s t : State} {d : Descriptor} {n v : Nat} (h : Added s d n v)
    (same : ∀ i < 16 * n, regionWord t d i = regionWord s d i) : Added t d n v :=
  h.congr fun i hi _ => by rw [same i hi]; exact ⟨rfl, rfl⟩

/-- With a word that was as last written overwritten, the term of the update brings the sum to the new values (R58). -/
theorem Added.update {s t : State} {d : Descriptor} {n v j : Nat} {new : Word} (h : Added s d n v) (hj : j < 16 * n)
    (here : (regionWord t d j).stored = new ∧ (regionWord t d j).written = new)
    (others : ∀ i < 16 * n, i ≠ j → regionWord t d i = regionWord s d i) :
    Added t d n ((v + updateTerm d j (regionWord s d j).written new) % Config.p) := by
  obtain ⟨sum, kept⟩ := h
  rw [keptWords_iff] at kept
  refine ⟨?_, (keptWords_iff _ _ _).2 fun i hi => ?_⟩
  · have total := sum_range_update (fun i => wordTerm d i (regionWord s d i).stored)
      (fun i => if i = j then wordTerm d j new else wordTerm d i (regionWord s d i).stored) j (16 * n) hj
      (fun i hi => if_neg hi)
    have after : ((List.range (16 * n)).map (fun i => wordTerm d i (regionWord t d i).stored)) =
        (List.range (16 * n)).map (fun i => if i = j then wordTerm d j new else wordTerm d i (regionWord s d i).stored) := by
      refine List.map_congr_left fun i hi => ?_
      by_cases hij : i = j
      · subst hij
        rw [if_pos rfl, here.1]
      · rw [if_neg hij, others i (List.mem_range.1 hi) hij]
    have term := term_modEq d j (regionWord s d j).stored new
    rw [if_pos rfl, ← after] at total
    rw [kept j hj] at term total
    have same : storedSum s d n = ((List.range (16 * n)).map (fun i => wordTerm d i (regionWord s d i).stored)).sum % Config.p := rfl
    have same' : storedSum t d n = ((List.range (16 * n)).map (fun i => wordTerm d i (regionWord t d i).stored)).sum % Config.p := rfl
    rw [sum, same, same']
    generalize ((List.range (16 * n)).map (fun i => wordTerm d i (regionWord s d i).stored)).sum = F at total
    generalize ((List.range (16 * n)).map (fun i => wordTerm d i (regionWord t d i).stored)).sum = G at total
    generalize updateTerm d j (regionWord s d j).written new = u at *
    generalize wordTerm d j (regionWord s d j).written = o at *
    have moved : F + u + o ≡ G + o [MOD Config.p] := by
      rw [total, add_assoc, add_comm u o]
      exact term.add_left F
    exact ((Nat.mod_modEq F _).add_right u).trans (moved.add_right_cancel' o)
  · by_cases hij : i = j
    · subst hij
      rw [here.1, here.2]
    · rw [others i hi hij]
      exact kept i hi

/-- The next block's terms go into the sum (R62). -/
theorem Added.step {s : State} {d : Descriptor} {n v : Nat} (h : Added s d n v)
    (kept : ∀ i, 16 * n ≤ i → i < 16 * (n + 1) → (regionWord s d i).stored = (regionWord s d i).written) :
    Added s d (n + 1)
      ((v + ((List.range 16).map (fun k => wordTerm d (16 * n + k) (regionWord s d (16 * n + k)).stored)).sum) % Config.p) := by
  obtain ⟨sum, before⟩ := h
  rw [keptWords_iff] at before
  refine ⟨?_, (keptWords_iff _ _ _).2 fun i hi => ?_⟩
  · have split : storedSum s d (n + 1) =
        (((List.range (16 * n)).map (fun i => wordTerm d i (regionWord s d i).stored)).sum +
          ((List.range 16).map (fun k => wordTerm d (16 * n + k) (regionWord s d (16 * n + k)).stored)).sum) % Config.p := by
      rw [storedSum, show Config.blockWords * (n + 1) = 16 * n + 16 from rfl, List.range_add, List.map_append,
        List.sum_append, List.map_map]
      rfl
    rw [sum, split, storedSum]
    exact (Nat.mod_modEq _ _).add_right _
  · by_cases hn : i < 16 * n
    · exact before i hn
    · exact kept i (by omega) hi

end Sys2Proof.Machine
end

section
/-! PROOFS. The law of the signatures and what stands with it (R57), clause by clause, over the signed regions of a lawful
table. -/

namespace Sys2Proof.Machine

open Sys2Proof

/-! ### The signed regions of a lawful table -/

/-- A signed region is loaded at this index. -/
def SignedAt (s : State) (i : Nat) (r : Region) : Prop := assocFind s.rgt.entries i = some r ∧ r.desc.signed = true

theorem forall_entries_iff {s : State} (h : tableLaw s = true) (P : Nat × Region → Prop) :
    (∀ e ∈ s.rgt.entries, P e) ↔ ∀ i r, assocFind s.rgt.entries i = some r → P (i, r) := by
  obtain ⟨rising, -, -⟩ := (tableLaw_iff s).1 h
  exact ⟨fun hp i r hr => hp (i, r) (mem_of_assocFind _ _ _ hr),
    fun hp e he => hp e.1 e.2 (assocFind_of_mem _ 0 rising e he)⟩

theorem forall_signed_iff {s : State} (h : tableLaw s = true) (P : Region → Prop) :
    (∀ e ∈ s.rgt.entries, e.2.desc.signed = true → P e.2) ↔ ∀ i r, SignedAt s i r → P r := by
  rw [forall_entries_iff h]
  exact ⟨fun hp i r hr => hp i r hr.1 hr.2, fun hp i r hr hs => hp i r ⟨hr, hs⟩⟩

/-- A signed region in the ranges of R1. -/
theorem SignedAt.fits {s : State} {i : Nat} {r : Region} (h : tableLaw s = true) (hr : SignedAt s i r) :
    r.desc.slot < 16 ∧ 1 ≤ r.desc.count ∧ r.desc.first + r.desc.count ≤ 65536 := by
  obtain ⟨-, fits, -⟩ := (tableLaw_iff s).1 h
  have fit := (fits _ (mem_of_assocFind _ _ _ hr.1)).2
  have signed := hr.2
  simp only [descriptorFits, signed, if_true, Bool.and_eq_true, decide_eq_true_eq, Config.sigSlots, Config.blocks] at fit
  obtain ⟨⟨⟨⟨⟨⟨-, count⟩, stop⟩, -⟩, -⟩, -⟩, slot⟩ := fit
  exact ⟨of_decide_eq_true slot, count, of_decide_eq_true stop⟩

/-- Two signed regions of one slot are one (R6). -/
theorem SignedAt.eq_of_slot {s : State} {i j : Nat} {r q : Region} (h : tableLaw s = true) (hr : SignedAt s i r)
    (hq : SignedAt s j q) (slot : r.desc.slot = q.desc.slot) : i = j ∧ r = q := by
  have one := (slotRegion_iff s h q.desc.slot i r).2 ⟨hr.1, hr.2, slot⟩
  rw [(slotRegion_iff s h q.desc.slot j q).2 ⟨hq.1, hq.2, rfl⟩] at one
  cases one
  exact ⟨rfl, rfl⟩

/-- Two loaded regions that contain a block are one (R6). -/
theorem eq_of_covers {s : State} {i j b : Nat} {r q : Region} (h : tableLaw s = true)
    (hr : assocFind s.rgt.entries i = some r) (hq : assocFind s.rgt.entries j = some q) (cr : r.desc.covers b = true)
    (cq : q.desc.covers b = true) : i = j ∧ r = q := by
  have one := (regionOf_iff s h b i r).2 ⟨hr, cr⟩
  rw [(regionOf_iff s h b j q).2 ⟨hq, cq⟩] at one
  cases one
  exact ⟨rfl, rfl⟩

theorem slotRegion_isSome_iff {s : State} (h : tableLaw s = true) (k : Nat) (P : Region → Prop) :
    (∃ e, slotRegion s k = some e ∧ P e.2) ↔ ∃ i r, SignedAt s i r ∧ r.desc.slot = k ∧ P r := by
  constructor
  · rintro ⟨⟨i, r⟩, he, hP⟩
    obtain ⟨hr, hs, hk⟩ := (slotRegion_iff s h k i r).1 he
    exact ⟨i, r, ⟨hr, hs⟩, hk, hP⟩
  · rintro ⟨i, r, hr, hk, hP⟩
    exact ⟨(i, r), (slotRegion_iff s h k i r).2 ⟨hr.1, hr.2, hk⟩, hP⟩

/-! ### The words of a region -/

/-- The word of a region at the offset of an address (R3). -/
theorem regionWord_offsetIn {s : State} {d : Descriptor} {a : Nat} (h : d.covers (blockOf a) = true) :
    regionWord s d (offsetIn d a) = memGet s.mpu.mem a ∧ offsetIn d a < 16 * d.count := by
  rw [covers_iff, blockOf] at h
  unfold regionWord offsetIn Config.blockWords at *
  refine ⟨?_, by omega⟩
  rw [show 16 * d.first + (a - 16 * d.first) = a by omega]

/-- An address of a region's words lies in the region. -/
theorem covers_of_offset {d : Descriptor} {n : Nat} (hn : n < 16 * d.count) :
    d.covers (blockOf (16 * d.first + n)) = true := by
  rw [covers_iff, blockOf, Config.blockWords]
  omega

/-! ### The laws clause by clause -/

theorem storedLaw_iff {s : State} (h : tableLaw s = true) :
    storedLaw s = true ↔ (s.dev = .running → ∀ i r, SignedAt s i r → r.suspect = false →
      Added s r.desc r.desc.count (sigOf s r.desc.slot)) := by
  rw [← forall_signed_iff h fun r => r.suspect = false → Added s r.desc r.desc.count (sigOf s r.desc.slot)]
  simp only [storedLaw, Bool.or_eq_true, bne_iff_ne, List.all_eq_true, Bool.not_eq_true', ← signedRight_iff,
    ← imp_iff_not_or, ne_eq]
  refine imp_congr_right fun _ => forall_congr' fun e => imp_congr_right fun _ => ?_
  cases e.2.desc.signed <;> cases e.2.suspect <;> simp

/-- What a pass has signed and what lies ahead of it (R62, R63). -/
structure PassSum (s : State) (p : SigningPass) : Prop where
  nodup : p.slots.Nodup
  slots : ∀ k ∈ p.slots, ∃ i r, SignedAt s i r ∧ r.desc.slot = k ∧ (s.dev = .signing ∨ r.suspect = true)
  head : ∃ i r, SignedAt s i r ∧ p.slots.head? = some r.desc.slot ∧ r.desc.covers p.block = true ∧
    (doubted s r = true ∨ Added s r.desc (p.block - r.desc.first) p.sum)
  others : ∀ i r, SignedAt s i r → r.desc.slot ∈ p.slots ∨ doubted s r = true ∨
    Added s r.desc r.desc.count (sigOf s r.desc.slot)

theorem passSum_iff {s : State} (h : tableLaw s = true) (p : SigningPass) :
    PassSum s p ↔
      (p.slots.Nodup ∧
        p.slots.all (fun k =>
          match slotRegion s k with
          | some e => s.dev == .signing || e.2.suspect
          | none => false) = true ∧
        (match p.slots.head?.bind (slotRegion s) with
         | some e =>
           e.2.desc.first ≤ p.block && p.block < e.2.desc.first + e.2.desc.count &&
             (doubted s e.2 ||
               (p.sum == storedSum s e.2.desc (p.block - e.2.desc.first) &&
                 keptWords s e.2.desc (p.block - e.2.desc.first)))
         | none => false) = true ∧
        s.rgt.entries.all (fun e =>
          !e.2.desc.signed || p.slots.contains e.2.desc.slot || doubted s e.2 || signedRight s e.2.desc) = true) := by
  have slots : (∀ k ∈ p.slots, ∃ i r, SignedAt s i r ∧ r.desc.slot = k ∧ (s.dev = .signing ∨ r.suspect = true)) ↔
      p.slots.all (fun k =>
        match slotRegion s k with
        | some e => s.dev == .signing || e.2.suspect
        | none => false) = true := by
    simp only [List.all_eq_true, ← slotRegion_isSome_iff h _ fun r => s.dev = .signing ∨ r.suspect = true]
    refine forall_congr' fun k => imp_congr_right fun _ => ?_
    cases slotRegion s k <;> simp
  have head : (∃ i r, SignedAt s i r ∧ p.slots.head? = some r.desc.slot ∧ r.desc.covers p.block = true ∧
      (doubted s r = true ∨ Added s r.desc (p.block - r.desc.first) p.sum)) ↔
      (match p.slots.head?.bind (slotRegion s) with
       | some e =>
         e.2.desc.first ≤ p.block && p.block < e.2.desc.first + e.2.desc.count &&
           (doubted s e.2 ||
             (p.sum == storedSum s e.2.desc (p.block - e.2.desc.first) &&
               keptWords s e.2.desc (p.block - e.2.desc.first)))
       | none => false) = true := by
    cases hk : p.slots.head? with
    | none => simp
    | some k =>
      have one := slotRegion_isSome_iff h k fun r =>
        r.desc.covers p.block = true ∧ (doubted s r = true ∨ Added s r.desc (p.block - r.desc.first) p.sum)
      have form : (∃ i r, SignedAt s i r ∧ some k = some r.desc.slot ∧ r.desc.covers p.block = true ∧
          (doubted s r = true ∨ Added s r.desc (p.block - r.desc.first) p.sum)) ↔
          ∃ i r, SignedAt s i r ∧ r.desc.slot = k ∧ r.desc.covers p.block = true ∧
          (doubted s r = true ∨ Added s r.desc (p.block - r.desc.first) p.sum) := by
        simp only [Option.some.injEq, eq_comm]
      rw [form, ← one, Option.bind_some]
      cases slotRegion s k <;> simp [covers_iff, Added]
  have others : (∀ i r, SignedAt s i r → r.desc.slot ∈ p.slots ∨ doubted s r = true ∨
      Added s r.desc r.desc.count (sigOf s r.desc.slot)) ↔
      s.rgt.entries.all (fun e =>
        !e.2.desc.signed || p.slots.contains e.2.desc.slot || doubted s e.2 || signedRight s e.2.desc) = true := by
    rw [← forall_signed_iff h fun r => r.desc.slot ∈ p.slots ∨ doubted s r = true ∨
      Added s r.desc r.desc.count (sigOf s r.desc.slot)]
    simp only [List.all_eq_true, Bool.or_eq_true, Bool.not_eq_true', List.contains_iff_mem, signedRight_iff, or_assoc]
    refine forall_congr' fun e => imp_congr_right fun _ => ?_
    cases e.2.desc.signed <;> simp
  rw [← slots, ← head, ← others]
  exact ⟨fun ⟨a, b, c, d⟩ => ⟨a, b, c, d⟩, fun ⟨a, b, c, d⟩ => ⟨a, b, c, d⟩⟩

/-- The sums that the signatures and a pass in progress stand for, with what their upkeep needs (R57, R62, R63, R149). -/
structure Summed (s : State) : Prop where
  table : tableLaw s = true
  sigs : s.sgu.sigs.length = 16
  truthful : Truthful s
  stored : s.dev = .running → ∀ i r, SignedAt s i r → r.suspect = false →
    Added s r.desc r.desc.count (sigOf s r.desc.slot)
  buffers : s.rse.pull.buffers = [] ∨ s.rse.pull.phase ≠ .idle ∧ s.sgu.pass = none
  ending : s.rse.pull.phase = .completing → (s.rse.pull.ending.bind PullEndFrame.entries).isSome = true
  outside : s.sgu.pass = none → s.dev ≠ .signing
  signing : ∀ p, s.sgu.pass = some p → PassSum s p

/-- The same, and without a pass a pull that completes has only NORMAL regions clean (R149). -/
structure Sums (s : State) : Prop extends Summed s where
  unsigned : s.sgu.pass = none → s.rse.pull.phase = .completing →
    ∀ i r, SignedAt s i r → doubted s r = true ∨ r.suspect = false

theorem passSumLaw_iff {s : State} (h : tableLaw s = true) :
    passSumLaw s = true ↔
      (s.rse.pull.buffers = [] ∨ s.rse.pull.phase ≠ .idle ∧ s.sgu.pass = none) ∧
      (s.rse.pull.phase = .completing → (s.rse.pull.ending.bind PullEndFrame.entries).isSome = true) ∧
      (s.sgu.pass = none → s.dev ≠ .signing ∧
        (s.rse.pull.phase = .completing → ∀ i r, SignedAt s i r → doubted s r = true ∨ r.suspect = false)) ∧
      ∀ p, s.sgu.pass = some p → PassSum s p := by
  have buffers : (s.rse.pull.buffers.isEmpty || pulling s && s.sgu.pass.isNone) = true ↔
      (s.rse.pull.buffers = [] ∨ s.rse.pull.phase ≠ .idle ∧ s.sgu.pass = none) := by
    simp [pulling]
  have ending : (s.rse.pull.phase != .completing || (s.rse.pull.ending.bind PullEndFrame.entries).isSome) = true ↔
      (s.rse.pull.phase = .completing → (s.rse.pull.ending.bind PullEndFrame.entries).isSome = true) := by
    rw [Bool.or_eq_true, bne_iff_ne, imp_iff_not_or]
  unfold passSumLaw
  rw [Bool.and_eq_true, Bool.and_eq_true, buffers, ending, and_assoc]
  refine and_congr Iff.rfl (and_congr Iff.rfl ?_)
  cases hp : s.sgu.pass with
  | none =>
    rw [← forall_signed_iff h fun r => doubted s r = true ∨ r.suspect = false]
    simp only [Bool.and_eq_true, bne_iff_ne, Bool.or_eq_true, List.all_eq_true, Bool.not_eq_true', forall_const,
      implies_true, and_true, reduceCtorEq, false_imp_iff, ne_eq, ← imp_iff_not_or]
    refine and_congr Iff.rfl (imp_congr_right fun _ => forall_congr' fun e => imp_congr_right fun _ => ?_)
    cases e.2.desc.signed <;> simp
  | some p =>
    have form := passSum_iff h p
    simp only [Bool.and_eq_true, decide_eq_true_eq, Option.some.injEq, reduceCtorEq, false_imp_iff, true_and,
      forall_eq', and_assoc] at form ⊢
    exact form.symm

theorem sums_of_laws {s : State} (table : tableLaw s = true) (truthful : Truthful s) (signature : signatureLaw s = true)
    (stored : storedLaw s = true) (pass : passSumLaw s = true) : Sums s := by
  obtain ⟨buffers, ending, unsigned, signing⟩ := (passSumLaw_iff table).1 pass
  refine ⟨⟨table, ?_, truthful, (storedLaw_iff table).1 stored, buffers, ending, fun hp => (unsigned hp).1, signing⟩,
    fun hp => (unsigned hp).2⟩
  simp only [signatureLaw, Bool.and_eq_true, beq_iff_eq, Config.sigSlots] at signature
  obtain ⟨⟨⟨sigs, -⟩, -⟩, -⟩ := signature
  exact sigs

theorem Sums.laws {s : State} (h : Sums s) : storedLaw s = true ∧ passSumLaw s = true :=
  ⟨(storedLaw_iff h.table).2 h.stored,
    (passSumLaw_iff h.table).2 ⟨h.buffers, h.ending, fun hp => ⟨h.outside hp, h.unsigned hp⟩, h.signing⟩⟩

end Sys2Proof.Machine
end

section
/-! PROOFS. Steps that write no word and sign nothing: `Calm t u`. Regions only become SUSPECT, and then with their clean flags
down; entries only leave the queue. Such a step keeps the laws of the signatures and of the queue's signed entries. -/

namespace Sys2Proof.Machine

open Sys2Proof

/-- What `Calm` looks at, the channel state apart. -/
def calmView (s : State) :=
  (s.dev, s.mpu.mem, s.mpu.initOp, s.sgu, s.rgt.entries, s.pwq.entries, s.rse.pull.phase, s.rse.pull.buffers,
    s.rse.pull.ending, s.rse.pull.clean)

/-- No signed entry is queued. -/
def Unsigned (s : State) : Prop := ∀ e ∈ s.pwq.entries, e.signed = false

/-- From `t` to `u` no word is written and nothing is signed. -/
structure Calm (t u : State) : Prop where
  dev : u.dev = t.dev
  mem : u.mpu.mem = t.mpu.mem
  initOp : u.mpu.initOp = t.mpu.initOp
  sgu : u.sgu = t.sgu
  table : tableOf u = tableOf t
  region : ∀ i r, assocFind t.rgt.entries i = some r → ∃ r', assocFind u.rgt.entries i = some r' ∧ r'.desc = r.desc ∧
    (r.suspect = true → r'.suspect = true) ∧
    (r'.suspect = true → r.desc.signed = true → r.suspect = true ∨ Unclean r.desc.slot u)
  clean : ∀ k, Unclean k t → Unclean k u
  pull : (u.rse.pull.phase = t.rse.pull.phase ∧ u.rse.pull.buffers = t.rse.pull.buffers ∧
    u.rse.pull.ending = t.rse.pull.ending) ∨ u.rse.pull.buffers = [] ∧ u.rse.pull.phase ≠ .completing
  queue : ∀ e ∈ u.pwq.entries, e ∈ t.pwq.entries
  opened : cycleOpen t = true → cycleOpen u = true ∨ Unsigned u

/-- With the same descriptors a region has been loaded before. -/
theorem region_of_tableOf {t u : State} (h : tableOf u = tableOf t) {i : Nat} {r' : Region}
    (hr : assocFind u.rgt.entries i = some r') : ∃ r, assocFind t.rgt.entries i = some r ∧ r'.desc = r.desc := by
  have listed : ∀ l : List (Nat × Region),
      assocFind (l.map (fun e => (e.1, e.2.desc))) i = (assocFind l i).map Region.desc := by
    intro l
    induction l with
    | nil => rfl
    | cons e l ih =>
      simp only [List.map_cons, assocFind, ih]
      split <;> rfl
  have same := listed u.rgt.entries
  rw [show u.rgt.entries.map (fun e => (e.1, e.2.desc)) = t.rgt.entries.map (fun e => (e.1, e.2.desc)) from h,
    listed, hr] at same
  obtain ⟨r, hf, desc⟩ := Option.map_eq_some_iff.1 same
  exact ⟨r, hf, desc.symm⟩

namespace Calm

variable {t u v : State}

/-- A step that leaves everything but the channel state. -/
theorem of_view (h : calmView u = calmView t) (opened : cycleOpen t = true → cycleOpen u = true ∨ Unsigned u) : Calm t u := by
  simp only [calmView, Prod.mk.injEq] at h
  obtain ⟨dev, mem, initOp, sgu, entries, queue, phase, buffers, ending, clean⟩ := h
  exact
    { dev, mem, initOp, sgu, opened
      table := by rw [tableOf, tableOf, entries]
      region := fun i r hr => ⟨r, by rwa [entries], rfl, id, fun h _ => .inl h⟩
      clean := fun k h => by rwa [Unclean, clean]
      pull := .inl ⟨phase, buffers, ending⟩
      queue := fun e he => by rwa [queue] at he }

/-- A step that leaves everything. -/
theorem of (h : (calmView u, u.cju.chan) = (calmView t, t.cju.chan)) : Calm t u := by
  obtain ⟨view, chan⟩ := Prod.mk.inj h
  exact of_view view fun ho => .inl (by rwa [cycleOpen, chan])

theorem refl (t : State) : Calm t t := of rfl

theorem trans (h : Calm t u) (k : Calm u v) : Calm t v where
  dev := k.dev.trans h.dev
  mem := k.mem.trans h.mem
  initOp := k.initOp.trans h.initOp
  sgu := k.sgu.trans h.sgu
  table := k.table.trans h.table
  region i r hr := by
    obtain ⟨r', hr', desc, worse, marked⟩ := h.region i r hr
    obtain ⟨r'', hr'', desc', worse', marked'⟩ := k.region i r' hr'
    refine ⟨r'', hr'', desc'.trans desc, fun hs => worse' (worse hs), fun hs signed => ?_⟩
    rw [desc] at marked'
    rcases marked' hs signed with hs' | down
    · exact (marked hs' signed).imp id (k.clean _)
    · exact .inr down
  clean n hn := k.clean n (h.clean n hn)
  pull := by
    rcases k.pull with ⟨phase, buffers, ending⟩ | idle
    · rw [phase, buffers, ending]
      exact h.pull
    · exact .inr idle
  queue e he := h.queue e (k.queue e he)
  opened ho := by
    rcases h.opened ho with hu | none
    · exact k.opened hu
    · exact .inr fun e he => none e (k.queue e he)

/-- A region of the later state and the one that it was. -/
theorem origin (h : Calm t u) {i : Nat} {r' : Region} (hr : assocFind u.rgt.entries i = some r') :
    ∃ r, assocFind t.rgt.entries i = some r ∧ r'.desc = r.desc ∧ (r.suspect = true → r'.suspect = true) ∧
      (r'.suspect = true → r.desc.signed = true → r.suspect = true ∨ Unclean r.desc.slot u) := by
  obtain ⟨r, hf, -⟩ := region_of_tableOf h.table hr
  obtain ⟨q, hq, rest⟩ := h.region i r hf
  rw [hr] at hq
  cases hq
  exact ⟨r, hf, rest⟩

theorem signedAt (h : Calm t u) {i : Nat} {r' : Region} (hr : SignedAt u i r') :
    ∃ r, SignedAt t i r ∧ r'.desc = r.desc ∧ (r.suspect = true → r'.suspect = true) ∧
      (r'.suspect = true → r.suspect = true ∨ Unclean r.desc.slot u) := by
  obtain ⟨r, hf, desc, worse, marked⟩ := h.origin hr.1
  have signed : r.desc.signed = true := desc ▸ hr.2
  exact ⟨r, ⟨hf, signed⟩, desc, worse, fun hs => marked hs signed⟩

theorem signedAt_image (h : Calm t u) {i : Nat} {r : Region} (hr : SignedAt t i r) :
    ∃ r', SignedAt u i r' ∧ r'.desc = r.desc ∧ (r.suspect = true → r'.suspect = true) := by
  obtain ⟨r', hf, desc, worse, -⟩ := h.region i r hr.1
  exact ⟨r', ⟨hf, by rw [desc]; exact hr.2⟩, desc, worse⟩

theorem doubted (h : Calm t u) {r r' : Region} (desc : r'.desc = r.desc) (worse : r.suspect = true → r'.suspect = true)
    (hd : Machine.doubted t r = true) : Machine.doubted u r' = true := by
  unfold Machine.doubted at hd ⊢
  rw [h.dev, desc]
  split at hd
  · rw [if_pos ‹_›]
    exact worse hd
  · rw [if_neg ‹_›]
    simp only [Bool.not_eq_true'] at hd ⊢
    exact h.clean _ hd

theorem added (h : Calm t u) {d : Descriptor} {n v : Nat} (ha : Added t d n v) : Added u d n v :=
  ha.of_words fun i _ => by rw [regionWord, regionWord, h.mem]

/-! ### The laws -/

theorem passSum (h : Calm t u) {p : SigningPass} (hp : PassSum t p) : PassSum u p where
  nodup := hp.nodup
  slots k hk := by
    obtain ⟨i, r, hr, slot, hs⟩ := hp.slots k hk
    obtain ⟨r', hr', desc, worse⟩ := h.signedAt_image hr
    exact ⟨i, r', hr', by rw [desc, slot], hs.imp h.dev.trans worse⟩
  head := by
    obtain ⟨i, r, hr, slot, covers, sum⟩ := hp.head
    obtain ⟨r', hr', desc, worse⟩ := h.signedAt_image hr
    refine ⟨i, r', hr', by rw [desc, slot], by rw [desc, covers], ?_⟩
    rw [desc]
    exact sum.imp (h.doubted desc worse) h.added
  others i r' hr' := by
    obtain ⟨r, hr, desc, worse, -⟩ := h.signedAt hr'
    rw [desc, sigOf, h.sgu]
    exact (hp.others i r hr).imp id (Or.imp (h.doubted desc worse) h.added)

theorem summed (h : Calm t u) (hs : Summed t) : Summed u where
  table := by rw [tableLaw_congr h.table]; exact hs.table
  sigs := by rw [h.sgu]; exact hs.sigs
  truthful a hc := by
    rw [readWord_of_mem (s := t) (by rw [h.mem])] at hc ⊢
    rw [h.mem]
    exact hs.truthful a hc
  stored hd i r' hr' normal := by
    obtain ⟨r, hr, desc, worse, -⟩ := h.signedAt hr'
    have before : r.suspect = false := by
      rw [Bool.eq_false_iff] at normal ⊢
      exact fun h => normal (worse h)
    rw [desc, sigOf, h.sgu]
    exact h.added (hs.stored (h.dev ▸ hd) i r hr before)
  buffers := by
    rcases h.pull with ⟨phase, buffers, -⟩ | ⟨none, -⟩
    · rw [phase, buffers, h.sgu]
      exact hs.buffers
    · exact .inl none
  ending hp := by
    rcases h.pull with ⟨phase, -, ending⟩ | ⟨-, other⟩
    · rw [ending]
      exact hs.ending (phase ▸ hp)
    · exact absurd hp other
  outside hp := by
    rw [h.dev]
    exact hs.outside (h.sgu ▸ hp)
  signing p hp := h.passSum (hs.signing p (h.sgu ▸ hp))

theorem sums (h : Calm t u) (hs : Sums t) : Sums u where
  toSummed := h.summed hs.toSummed
  unsigned hp completing i r' hr' := by
    rw [h.sgu] at hp
    rcases h.pull with ⟨phase, -⟩ | ⟨-, other⟩
    · obtain ⟨r, hr, desc, worse, marked⟩ := h.signedAt hr'
      rcases hs.unsigned hp (phase ▸ completing) i r hr with hd | normal
      · exact .inl (h.doubted desc worse hd)
      · by_cases hs' : r'.suspect = true
        · have down : Unclean r.desc.slot u := (marked hs').resolve_left (by simp [normal])
          refine .inl ?_
          unfold Machine.doubted
          rw [if_neg (by rw [h.dev]; exact hs.outside hp), desc, down]
          rfl
        · exact .inr (by simpa using hs')
    · exact absurd completing other

end Calm

/-! ### The queue's signed entries (R24, R27) -/

theorem signedQueueLaw_iff (s : State) : signedQueueLaw s = true ↔
    (∀ e ∈ s.pwq.entries, e.signed = signedBlock s (blockOf e.word)) ∧
      (s.dev = .configuring ∨ cycleOpen s = true ∨ Unsigned s) := by
  simp only [signedQueueLaw, Unsigned, Bool.and_eq_true, Bool.or_eq_true, List.all_eq_true, beq_iff_eq, Bool.not_eq_true',
    or_assoc]

theorem Calm.signedQueue {t u : State} (h : Calm t u) (hq : signedQueueLaw t = true) : signedQueueLaw u = true := by
  rw [signedQueueLaw_iff] at hq ⊢
  obtain ⟨flags, place⟩ := hq
  refine ⟨fun e he => ?_, ?_⟩
  · rw [signedBlock_congr h.table]
    exact flags e (h.queue e he)
  · rcases place with configuring | opened | none
    · exact .inl (h.dev.trans configuring)
    · exact .inr (h.opened opened)
    · exact .inr (.inr fun e he => none e (h.queue e he))

theorem signedQueueLaw_of_empty {s : State} (h : s.pwq.entries = []) : signedQueueLaw s = true := by
  rw [signedQueueLaw_iff, Unsigned, h]
  simp

/-- Outside CONFIGURING and away from an open cycle no signed entry is queued. -/
theorem unsigned_of_signedQueueLaw {s : State} (hq : signedQueueLaw s = true) (hd : s.dev ≠ .configuring)
    (ho : cycleOpen s = false) : Unsigned s := by
  obtain ⟨-, place⟩ := (signedQueueLaw_iff s).1 hq
  exact (place.resolve_left hd).resolve_left (by simp [ho])

theorem signedQueueLaw_congr {s t : State} (table : tableOf t = tableOf s) (dev : t.dev = s.dev)
    (queue : t.pwq.entries = s.pwq.entries) (chan : t.cju.chan = s.cju.chan) : signedQueueLaw t = signedQueueLaw s := by
  simp only [signedQueueLaw, signedBlock_congr table, cycleOpen, dev, queue, chan]

end Sys2Proof.Machine
end

section
/-! PROOFS. The walk over the operations for `Calm`: findings, the start and the failure of a pull, decisions, rollbacks and
abandons. -/

namespace Sys2Proof.Machine

open Sys2Proof

namespace Calm

variable {t u : State}

/-! ### Records, frames and PERMIT -/

theorem recordEvent (b : EventBody) (t : State) : Calm t (recordEvent b t) := .of rfl

theorem recordRefusal (r : AccessReason) (i : Initiator) (a : Nat) (g : Option Nat) (t : State) :
    Calm t (recordRefusal r i a g t) := .of (by simp [calmView])

theorem dropPermit (c : PermitCause) (t : State) : Calm t (dropPermit c t) := .of (by simp [calmView])

theorem sendCtrl (f : CtrlFrame) (l : Link) (t : State) : Calm t (sendCtrl f l t) := .of (by simp [calmView])

theorem sendBoth (f : CtrlFrame) (t : State) : Calm t (sendBoth f t) := .of (by simp [calmView])

theorem setAgreed (b : Bool) (t : State) : Calm t (setAgreed b t) := .of (by simp [calmView])

theorem endService (r : PullResult) (es : Option (List SigEntry)) (t : State) : Calm t (endService r es t) :=
  .of (by simp [calmView])

theorem suspectPermit (i : Nat) (t : State) : Calm t (suspectPermit i t) := .of (by simp [calmView])

/-- The channel moves where no cycle is open, or within an open one, or with no signed entry queued. -/
theorem setChan (c : Option ChannelState) (t : State)
    (h : cycleOpen t = true → c = some .opened ∨ c = some .closing ∨ Unsigned t) : Calm t (setChan c t) := by
  refine of_view (by simp [calmView]) fun ho => ?_
  rcases h ho with rfl | rfl | none
  · exact .inl (by simp [cycleOpen])
  · exact .inl (by simp [cycleOpen])
  · exact .inr (by simpa [Unsigned] using none)

/-! ### Findings (R12, R34, R46, R149) -/

/-- Counts change. -/
theorem modifyCounts (i : Nat) (f : Region → Region) (hd : ∀ r, (f r).desc = r.desc) (hs : ∀ r, (f r).suspect = r.suspect)
    (t : State) : Calm t (modifyRegion i f t) where
  dev := rfl
  mem := rfl
  initOp := rfl
  sgu := rfl
  table := tableOf_modifyRegion i f hd t
  region j r hr := by
    simp only [modifyRegion]
    rw [assocFind_modify, hr]
    split
    · exact ⟨f r, rfl, hd r, fun h => (hs r).trans h, fun h _ => .inl ((hs r).symm.trans h)⟩
    · exact ⟨r, rfl, rfl, id, fun h _ => .inl h⟩
  clean _ := id
  pull := .inl ⟨rfl, rfl, rfl⟩
  queue _ := id
  opened := .inl

theorem countCorrected (i : Nat) (t : State) : Calm t (countCorrected i t) :=
  modifyCounts i _ (by intro _; rfl) (by intro _; rfl) t

theorem countUncorrectable (i : Nat) (t : State) : Calm t (countUncorrectable i t) :=
  modifyCounts i _ (by intro _; rfl) (by intro _; rfl) t

/-- A region that becomes SUSPECT loses its clean flag (R149). -/
theorem markSuspect (i : Nat) (located : Bool) (t : State) : Calm t (markSuspect i located t) where
  dev := by simp
  mem := by simp
  initOp := by simp
  sgu := by simp
  table := tableOf_markSuspect i located t
  region j r hr := by
    have worse := Worsens.markSuspect i located t
    obtain ⟨r', hr', desc, lasts⟩ := worse.region j r hr
    have suspect : ∀ q : Region, q.suspect = true ↔ q.state ≠ .normal := fun q => by simp [Region.suspect]
    refine ⟨r', hr', desc, fun hs => (suspect r').2 (lasts _ lasts_suspect ((suspect r).1 hs)), fun _ signed => ?_⟩
    by_cases hd : t.dev = .configuring
    · have same : Machine.markSuspect i located t = t := by
        unfold Machine.markSuspect
        rw [if_pos hd]
      rw [same, hr] at hr'
      cases hr'
      exact .inl ‹_›
    · by_cases hij : i = j
      · subst hij
        right
        unfold Unclean Machine.markSuspect
        rw [if_neg hd, hr]
        dsimp only
        rw [if_pos signed, BitVec.getLsbD_and, BitVec.getLsbD_not, BitVec.getLsbD_shiftLeft]
        by_cases slot : r.desc.slot < 16
        · simp [slot]
        · simp [BitVec.getLsbD_of_ge _ _ (Nat.not_lt.1 slot)]
      · rw [assocFind_markSuspect i j located t hij, hr] at hr'
        cases hr'
        exact .inl ‹_›
  clean k hk := unclean_markSuspect k i located t hk
  pull := .inl (by simp)
  queue e he := by simpa using he
  opened ho := .inl (by simpa [cycleOpen] using ho)

/-- A region is marked and PERMIT tested, whatever is recorded between. -/
theorem marked (i : Nat) (located : Bool) (f : State → State) (hf : ∀ u, Calm u (f u)) (t : State) :
    Calm t (Machine.suspectPermit i (f (Machine.markSuspect i located t))) :=
  ((markSuspect i located t).trans (hf _)).trans (suspectPermit i _)

theorem offerRepair (i a : Nat) (t : State) : Calm t (offerRepair i a t) := by
  unfold Machine.offerRepair
  split
  · exact marked i true id refl _
  · split
    · have offered : Calm t { t with cju.repair := t.cju.repair ++ [blockOf a] } := .of rfl
      exact offered.trans (marked i true id refl _)
    · have lost : Calm t { t with cju.repairOverflow := true } := .of rfl
      dsimp only
      split
      · exact lost.trans (marked i false id refl _)
      · exact lost.trans (marked i false _ (recordEvent _) _)

theorem damaged (i : Nat) (k : RegionKind) (a : Nat) (t : State) : Calm t (damaged i k a t) := by
  unfold Machine.damaged
  split
  · exact refl t
  · cases k with
    | vital => exact offerRepair i a t
    | code => exact marked i false id refl _
    | plain => exact refl t

theorem findUncorrectable (ini : Option Initiator) (a : Nat) (t : State) :
    Calm t (findUncorrectable ini a t) := by
  unfold Machine.findUncorrectable
  split
  · rename_i i r _
    have counted := (countUncorrectable i t).trans (recordEvent (.uncorrectable (some i) (byteAddr a) ini) _)
    exact counted.trans (damaged _ _ _ _)
  · exact recordEvent _ t

theorem findInPass (a : Nat) (t : State) : Calm t (findInPass a t) := by
  unfold Machine.findInPass
  split
  · rename_i i r _
    have counted := (countUncorrectable i t).trans (recordEvent (.uncorrectable (some i) (byteAddr a) none) _)
    exact counted.trans (marked i false id refl _)
  · exact refl t

theorem findOverwritten (a : Nat) (t : State) : Calm t (findOverwritten a t) := by
  unfold Machine.findOverwritten
  split
  · rename_i i r _
    split
    · have recorded := recordEvent (.uncorrectable (some i) (byteAddr a) none) t
      exact recorded.trans (marked i false id refl _)
    · exact refl t
  · exact refl t

/-! ### The start and the failure of a pull (R142, R143, R150) -/

/-- The pull record changes: nothing is received or clean any more, and nothing is completed. -/
theorem emptied (p : Pull) (hb : p.buffers = []) (hp : p.phase ≠ .completing)
    (hc : ∀ k, Unclean k t → p.clean.getLsbD k = false) : Calm t { t with rse.pull := p } where
  dev := rfl
  mem := rfl
  initOp := rfl
  sgu := rfl
  table := rfl
  region _ r hr := ⟨r, hr, rfl, id, fun h _ => .inl h⟩
  clean := hc
  pull := .inr ⟨hb, hp⟩
  queue _ := id
  opened := .inl

theorem beginPull (k : PullKind) (l : Link) (f : PullFrame) (t : State) : Calm t (beginPull k l f t) := by
  unfold Machine.beginPull
  refine Calm.trans (emptied (t := t) _ ?_ ?_ ?_) ((sendCtrl _ _ _).trans (recordEvent _ _))
  · rfl
  · nofun
  · intro _ _
    exact BitVec.getLsbD_zero

theorem clearPrev (t : State) : Calm t (clearPrev t) := .of rfl

theorem startDelta (l : Link) (t : State) : Calm t (startDelta l t) := (clearPrev t).trans (beginPull _ _ _ _)

theorem startFull (l : Link) (t : State) (h : cycleOpen t = true → Unsigned t) : Calm t (startFull l t) := by
  unfold Machine.startFull
  have moved : Calm (Machine.clearPrev t) (Machine.setChan (some .restoring) (Machine.clearPrev t)) :=
    setChan _ _ fun ho => .inr (.inr (h ho))
  exact ((clearPrev t).trans moved).trans (beginPull _ _ _ _)

theorem testFull (t : State) : Calm t (testFull t) := by
  unfold Machine.testFull
  split
  · rename_i h
    split
    · exact startFull _ t fun ho => by simp [cycleOpen, h.1] at ho
    · exact refl t
  · exact refl t

theorem failPull (c : PullCause) (r : Option PullResult) (t : State) (h : cycleOpen t = true → Unsigned t) :
    Calm t (failPull c r t) := by
  unfold Machine.failPull
  split
  · dsimp only
    have ended : Calm t { t with rse.pull :=
        { t.rse.pull with
          phase := .idle, buffers := [], timer := none, attempts := min 3 (t.rse.pull.attempts + 1), ending := none } } :=
      emptied _ rfl nofun fun _ => id
    refine (ended.trans ((clearPrev _).trans ((setAgreed false _).trans ((recordEvent _ _).trans (setChan _ _ ?_))))).trans
      (testFull _)
    intro ho
    simp only [cycleOpen, recordEvent_keeps, setAgreed_keeps, clearPrev_keeps] at ho
    exact .inr (.inr (by simpa [Unsigned] using h ho))
  · exact refl t

end Calm

end Sys2Proof.Machine
end

section
/-! PROOFS. The walk for `Calm` over decisions, rollbacks, abandons and the link state. -/

namespace Sys2Proof.Machine

open Sys2Proof

/-- The channel may leave OPEN and CLOSING: no cycle is open, or no signed entry is queued (R27). -/
def Sealed (t : State) : Prop := cycleOpen t = true → Unsigned t

theorem Sealed.of_closed {t : State} (h : cycleOpen t = false) : Sealed t := fun ho => by simp [h] at ho

theorem Sealed.of_chan {t : State} {c : ChannelState} (hc : t.cju.chan = some c) (h1 : c ≠ .opened) (h2 : c ≠ .closing) :
    Sealed t :=
  .of_closed (by simp [cycleOpen, hc, h1, h2])

theorem Sealed.congr {t u : State} (h : Sealed t) (chan : u.cju.chan = t.cju.chan) (queue : u.pwq.entries = t.pwq.entries) :
    Sealed u := fun ho => by
  rw [cycleOpen, chan] at ho
  unfold Unsigned
  rw [queue]
  exact h ho

namespace Calm

variable {t u : State}

/-! ### Decisions (R124 to R134) -/

theorem decided (o : VoteOutcome) (own : VoteFrame) (frames : PerLink (Option VoteFrame)) (t : State) (h : Sealed t) :
    Calm t (decided o own frames t) := by
  refine of_view (by simp [calmView, Machine.decided]) fun ho => .inr ?_
  have none := h ho
  simpa [Unsigned, Machine.decided] using none

theorem completeDecision (o : VoteOutcome) (server : Option Link) (own : VoteFrame) (frames : PerLink (Option VoteFrame))
    (t : State) (h : Sealed t) : Calm t (completeDecision o server own frames t) := by
  rw [completeDecision_eq]
  refine (decided o own frames t h).trans ?_
  unfold afterDecision
  split
  · exact startDelta _ _
  · exact testFull _
  · exact refl _

theorem checkRegion (e : Nat × Region) (t : State) : Calm t (checkRegion t e) := by
  unfold Machine.checkRegion
  dsimp only
  split
  · split
    · exact marked e.1 false _ (recordEvent _) _
    · exact refl t
  · exact refl t

theorem foldl {α : Type} (f : State → α → State) (hf : ∀ u a, Calm u (f u a)) (l : List α) (t : State) :
    Calm t (l.foldl f t) := by
  induction l generalizing t with
  | nil => exact refl t
  | cons a l ih => exact (hf t a).trans (ih _)

theorem rollbackCheck (t : State) : Calm t (rollbackCheck t) := foldl _ (fun u e => checkRegion e u) _ t

theorem finishDecisionRollback (d : Deciding) (t : State) (h : Sealed t) : Calm t (finishDecisionRollback d t) := by
  rw [finishDecisionRollback_eq]
  have post : Calm t (rolledBack t) := (rollbackCheck t).trans (.of rfl)
  exact post.trans (completeDecision _ _ _ _ _ (h.congr (by simp [rolledBack]) (by simp [rolledBack])))

theorem takeDecision (t : State) (hc : t.cju.chan = some .voting) : Calm t (takeDecision t) := by
  have closed : Sealed t := .of_chan hc nofun nofun
  have rolling : ∀ m, Calm t (toRollBack m t) := fun m => by
    refine of_view (by simp [calmView, toRollBack]) fun ho => ?_
    simp [cycleOpen, hc] at ho
  refine takeDecision_cases (P := fun u => Calm t u) t (fun _ => refl t) (fun own o server _ _ => ?_) (fun own m _ _ _ => ?_)
    fun own m _ _ _ => rolling m
  · have toDecided : Calm t (toDecide o t) := .of (by unfold toDecide; split <;> simp [calmView])
    exact toDecided.trans (completeDecision _ _ _ _ _ (closed.congr (by unfold toDecide; split <;> simp)
      (by unfold toDecide; split <;> simp)))
  · exact (rolling m).trans (finishDecisionRollback _ _ (.of_chan (toRollBack_chan m t) nofun nofun))

theorem testDecision (t : State) : Calm t (testDecision t) := by
  unfold Machine.testDecision
  split
  · rename_i h
    exact takeDecision t h.1
  · exact refl t

theorem linkChanged (t : State) : Calm t (linkChanged t) := (testDecision t).trans (testFull _)

/-! ### Rollbacks and abandons (R74 to R78, R86) -/

theorem handOver (f : VoteFrame) (t : State) (h : Sealed t) : Calm t (handOver f t) := by
  rw [handOver_eq]
  refine Calm.trans ?_ (testDecision _)
  refine of_view (by simp [calmView, handed]) fun ho => .inr ?_
  have none := h ho
  simpa [Unsigned, handed] using none

theorem finishRollback (t : State) (h : Sealed t) : Calm t (finishRollback t) := by
  unfold Machine.finishRollback
  split
  · exact finishDecisionRollback _ t h
  · exact (rollbackCheck t).trans (handOver _ _ (h.congr (by simp) (by simp)))

/-- The signed entries leave the queue (R35). -/
theorem abandoning (c : AbandonCause) (t : State) : Calm t (abandoning c t) ∧ Unsigned (abandoning c t) := by
  have entries : (Machine.abandoning c t).pwq.entries = t.pwq.entries.filter (fun e => !e.signed) := by
    unfold Machine.abandoning dropSigned leaveQueue
    rw [show ∀ u, (lowerHold u).pwq.entries = u.pwq.entries by simp]
    simp
  have unsigned : Unsigned (Machine.abandoning c t) := fun e he => by
    rw [entries] at he
    simpa using (List.mem_filter.1 he).2
  refine ⟨?_, unsigned⟩
  have frame := abandoning_frame c t
  generalize Machine.abandoning c t = u at *
  rw [frame] at entries unsigned ⊢
  generalize u.pwq = q at *
  exact
    { dev := rfl
      mem := rfl
      initOp := rfl
      sgu := rfl
      table := rfl
      region := fun i r hr => ⟨r, hr, rfl, id, fun hs _ => .inl hs⟩
      clean := fun _ => id
      pull := .inl ⟨rfl, rfl, rfl⟩
      queue := fun e he => by
        rw [entries] at he
        exact (List.mem_filter.1 he).1
      opened := fun _ => .inr unsigned }

theorem abandon (c : AbandonCause) (t : State) : Calm t (abandon c t) := by
  cases ho : cycleOpen t with
  | false =>
    have same : Machine.abandon c t = t := by
      unfold Machine.abandon
      rw [ho]
      rfl
    rw [same]
    exact refl t
  | true =>
    obtain ⟨dropped, unsigned⟩ := abandoning c t
    have rolling : Calm t (Machine.setChan (some .rollingBack) (Machine.abandoning c t)) :=
      dropped.trans (setChan _ _ fun _ => .inr (.inr unsigned))
    rw [abandon_of_open c t ho]
    split
    · exact dropped.trans (handOver _ _ fun _ => unsigned)
    · split
      · exact rolling.trans (finishRollback _ (.of_chan (setChan_chan _ _) nofun nofun))
      · exact rolling

theorem abandonFor (a : Nat) (t : State) : Calm t (abandonFor a t) := by
  unfold Machine.abandonFor
  split
  · split
    · exact abandon _ t
    · exact refl t
  · exact refl t

theorem endDrain (t : State) (h : Unsigned t) : Calm t (endDrain t) := by
  unfold Machine.endDrain
  split
  · exact abandon _ t
  · exact handOver _ t fun _ => h

/-! ### The link state (R118, R119) -/

theorem silenceCheck (l : Link) (t : State) : Calm t (silenceCheck l t) := by
  unfold Machine.silenceCheck
  dsimp only
  split
  · exact Calm.trans (.of (by rfl)) (linkChanged _)
  · exact refl t

theorem refresh (l : Link) (t : State) : Calm t (refresh l t) := by
  unfold Machine.refresh
  dsimp only
  split
  · exact .of rfl
  · exact Calm.trans (.of (by rfl)) (linkChanged _)

theorem receiveHello (l : Link) (fp : BitVec 16) (f : HelloFields) (t : State) : Calm t (receiveHello l fp f t) := by
  have heard : ∀ p, Calm t (putPeer l p t) := fun p => .of rfl
  have silence : ∀ m u, Calm u (restartSilence l f m u) := fun m u => by
    unfold restartSilence
    split
    · exact .of rfl
    · exact refl u
  have ends : ∀ u, Calm u (abortService l f u) := fun u => by
    unfold abortService
    split
    · split
      · exact endService _ _ u
      · exact refl u
    · exact refl u
  have tested : ∀ p m, Calm t (abortService l f (restartSilence l f m (putPeer l p t))) := fun p m =>
    ((heard p).trans (silence m _)).trans (ends _)
  have recorded : ∀ p m b, Calm t (abortService l f (restartSilence l f m (Machine.recordEvent b (putPeer l p t)))) :=
    fun p m b => (((heard p).trans (recordEvent b _)).trans (silence m _)).trans (ends _)
  unfold Machine.receiveHello
  dsimp only
  split
  · split
    · exact (tested _ _).trans (testFull _)
    · exact (recorded _ _ _).trans (testFull _)
  · split
    · exact ((tested _ _).trans (testDecision _)).trans (testFull _)
    · exact ((recorded _ _ _).trans (testDecision _)).trans (testFull _)

theorem takeVote (l : Link) (f : VoteFrame) (t : State) : Calm t (takeVote l f t) := by
  have put : ∀ fs, Calm t (putTable l fs t) := fun _ => .of rfl
  unfold Machine.takeVote
  split
  · exact put _
  · unfold placeVote
    split
    · exact (put _).trans (testDecision _)
    · split
      · exact put _
      · split
        · exact refl t
        · split
          · exact recordEvent _ t
          · exact refl t

theorem takePull (l : Link) (f : PullFrame) (t : State) : Calm t (takePull l f t) := .of (by simp [calmView])

theorem takeCredit (l : Link) (n : Byte) (t : State) : Calm t (takeCredit l n t) := .of (by simp [calmView])

end Calm

end Sys2Proof.Machine
end

section
/-! PROOFS. The sums under the corrections and the word writes of the grants (R45, R46, R58). -/

namespace Sys2Proof.Machine

open Sys2Proof

/-! ### What reads as written -/

theorem checkWord_fresh (v : Word) : checkWord (freshWord v) = ⟨.good, v⟩ := by
  have undisturbed : countBits (freshWord v).flips = 0 := (by decide : countBits 0 = 0)
  unfold checkWord
  rw [undisturbed]
  rfl

theorem truthful_put_fresh {s t : State} {a : Nat} {v : Word} (h : Truthful s)
    (hm : t.mpu.mem = memPut s.mpu.mem a (freshWord v)) : Truthful t := by
  intro b hc
  unfold readWord at hc ⊢
  rw [hm, memGet_memPut_fresh] at hc ⊢
  split at hc
  · rw [if_pos ‹_›, checkWord_fresh]
    rfl
  · rw [if_neg ‹_›]
    exact h b hc

/-! ### The sums where only words change -/

/-- What `Sums` looks at, the array apart. -/
def sumView (s : State) :=
  (s.dev, s.sgu, s.rgt.entries, s.rse.pull.phase, s.rse.pull.buffers, s.rse.pull.ending, s.rse.pull.clean)

section
variable {t u : State}

theorem signedAt_of_entries (h : u.rgt.entries = t.rgt.entries) (i : Nat) (r : Region) : SignedAt u i r ↔ SignedAt t i r := by
  rw [SignedAt, SignedAt, h]

/-- The array changes, and the sums of the signed regions stand. -/
theorem Sums.of_mem (h : Sums t) (view : sumView u = sumView t) (truthful : Truthful u)
    (added : ∀ i r n v, SignedAt t i r → n ≤ r.desc.count → Added t r.desc n v → Added u r.desc n v) : Sums u := by
  simp only [sumView, Prod.mk.injEq] at view
  obtain ⟨dev, sgu, entries, phase, buffers, ending, clean⟩ := view
  have doubts : ∀ r, doubted u r = doubted t r := fun r => by simp only [doubted, dev, clean]
  have sig : ∀ k, sigOf u k = sigOf t k := fun k => by rw [sigOf, sigOf, sgu]
  exact
    { truthful
      table := by
        rw [tableLaw_congr (s := t) (by rw [entries])]
        exact h.table
      sigs := by rw [sgu]; exact h.sigs
      stored := fun hd i r hr normal => by
        rw [signedAt_of_entries entries] at hr
        rw [sig]
        exact added i r _ _ hr le_rfl (h.stored (dev ▸ hd) i r hr normal)
      buffers := by rw [buffers, phase, sgu]; exact h.buffers
      ending := by rw [ending, phase]; exact h.ending
      outside := by rw [sgu, dev]; exact h.outside
      unsigned := by simpa only [sgu, phase, doubts, signedAt_of_entries entries] using h.unsigned
      signing := fun p hp => by
        rw [sgu] at hp
        obtain ⟨nodup, slots, head, others⟩ := h.signing p hp
        refine ⟨nodup, ?_, ?_, fun i r hr => ?_⟩
        · simpa only [signedAt_of_entries entries, dev] using slots
        · obtain ⟨i, r, hr, slot, covers, sum⟩ := head
          refine ⟨i, r, (signedAt_of_entries entries i r).2 hr, slot, covers, ?_⟩
          rw [doubts]
          refine sum.imp id (added i r _ _ hr ?_)
          rw [covers_iff] at covers
          omega
        · rw [signedAt_of_entries entries] at hr
          rw [doubts, sig]
          exact (others i r hr).imp id (Or.imp id (added i r _ _ hr le_rfl)) }

/-- Nothing that `Sums` looks at changes. -/
theorem Sums.of_view (h : Sums t) (view : sumView u = sumView t) (mem : u.mpu.mem = t.mpu.mem) : Sums u := by
  refine h.of_mem view (fun a hc => ?_) fun i r n v _ _ ha => ha.of_words fun _ _ => by rw [regionWord, regionWord, mem]
  rw [readWord_of_mem (s := t) (by rw [mem])] at hc ⊢
  rw [mem]
  exact h.truthful a hc

/-! ### Corrections (R45, R46) -/

theorem Sums.correct (h : Sums t) {a : Nat} (hc : (readWord t a).cond ≠ .uncorrectable) :
    Sums (storeWord a (readWord t a).value t) := by
  refine h.of_mem rfl (truthful_put_fresh h.truthful rfl) fun i r n v _ _ ha => ha.congr fun k _ kept => ?_
  have value := h.truthful a hc
  unfold regionWord at kept ⊢
  rw [storeWord_mem, memGet_memPut_fresh]
  split
  · rename_i here
    obtain ⟨rfl, -⟩ := here
    rw [value, kept]
    exact ⟨rfl, rfl⟩
  · exact ⟨rfl, rfl⟩

theorem Sums.scrubWord (h : Sums t) (found : Nat → State → State) (hf : ∀ a u, Calm u (found a u)) (a : Nat) :
    Sums (scrubWord found a t) := by
  cases hc : (readWord t a).cond with
  | good =>
    rw [scrubWord_of_good a t found hc]
    exact h
  | uncorrectable =>
    rw [scrubWord_of_uncorrectable a t found hc]
    exact (hf a t).sums h
  | correctable =>
    have corrected := h.correct (a := a) (by simp [hc])
    unfold Machine.scrubWord
    rw [hc]
    dsimp only
    split
    · exact (Calm.countCorrected _ _).sums corrected
    · exact corrected

theorem Sums.scrubBlock (h : Sums t) (found : Nat → State → State) (hf : ∀ a u, Calm u (found a u)) (b : Nat) :
    Sums (scrubBlock found b t) := by
  unfold Machine.scrubBlock
  generalize blockWords b = as
  induction as generalizing t with
  | nil => exact h
  | cons a as ih => exact ih (h.scrubWord found hf a)

/-! ### Word writes (R58) -/

/-- A write outside the signed regions. -/
theorem Sums.write_unsigned (h : Sums t) {a : Nat} (old new : Word) (hs : signedBlock t (blockOf a) = false) :
    Sums (writeWord a old new t) := by
  have same : writeWord a old new t = storeWord a new t := by
    refine accountWrite_unsigned _ _ _ _ fun i r hr => ?_
    rw [signedBlock, show regionOf t (blockOf a) = some (i, r) from hr] at hs
    exact hs
  rw [same]
  refine h.of_mem rfl (truthful_put_fresh h.truthful rfl) fun i r n v hr hn ha => ha.of_words fun k hk => ?_
  have inside := covers_of_offset (d := r.desc) (n := k) (by omega)
  unfold regionWord Config.blockWords
  rw [storeWord_mem, memGet_memPut_fresh, if_neg]
  rintro ⟨rfl, -⟩
  rw [signedBlock, (regionOf_iff t h.table _ i r).2 ⟨hr.1, inside⟩] at hs
  exact Bool.false_ne_true (hs.symm.trans hr.2)

theorem sigOf_of_set_ne {k n x : Nat} (hs : u.sgu.sigs = t.sgu.sigs.set k x) (hn : k ≠ n) : sigOf u n = sigOf t n := by
  rw [sigOf, sigOf, hs, List.getD_eq_getElem?_getD, List.getElem?_set_ne hn, ← List.getD_eq_getElem?_getD]

/-- A word of a region after one word has been written. -/
theorem regionWord_put {a k : Nat} {v : Word} (d : Descriptor) (mem : u.mpu.mem = memPut t.mpu.mem a (freshWord v))
    (inside : a < Config.words) :
    regionWord u d k = if a = 16 * d.first + k then freshWord v else regionWord t d k := by
  unfold regionWord
  rw [mem, memGet_memPut_fresh]
  simp only [inside, and_true, Config.blockWords]

/-- A word of the region is written, which was readable, and the term of the update goes into its signature (R58). -/
theorem Added.written {a v : Nat} {new : Word} {d : Descriptor} (h : Added t d d.count v) (truthful : Truthful t)
    (covers : d.covers (blockOf a) = true) (inside : a < Config.words) (readable : (readWord t a).cond ≠ .uncorrectable)
    (mem : u.mpu.mem = memPut t.mpu.mem a (freshWord new)) :
    Added u d d.count ((v + updateTerm d (offsetIn d a) (readWord t a).value new) % Config.p) := by
  obtain ⟨here, offset⟩ := regionWord_offsetIn (s := t) covers
  have place : a = 16 * d.first + offsetIn d a := by
    rw [covers_iff, blockOf, Config.blockWords] at covers
    unfold offsetIn Config.blockWords
    omega
  have value : (readWord t a).value = (regionWord t d (offsetIn d a)).written := by
    rw [here]
    exact truthful a readable
  rw [value]
  refine h.update offset ?_ fun k _ hk => ?_
  · rw [regionWord_put d mem inside, if_pos place]
    exact ⟨rfl, rfl⟩
  · rw [regionWord_put d mem inside, if_neg (by omega)]

/-- A write into a signed region, of a word whose finding has made the region SUSPECT where it was UNCORRECTABLE. -/
theorem Sums.write_signed (h : Sums t) (pass : t.sgu.pass = none) {a i : Nat} {r : Region} (new : Word)
    (hr : regionOf t (blockOf a) = some (i, r)) (hs : r.desc.signed = true)
    (bad : (readWord t a).cond = .uncorrectable → t.dev = .running → r.suspect = true) :
    Sums (writeWord a (readWord t a).value new t) := by
  have write := accountWrite_signed a (readWord t a).value new (storeWord a new t) i r hr hs
  rw [← updateTerm_eq] at write
  obtain ⟨hf, covers⟩ := (regionOf_iff t h.table _ i r).1 hr
  obtain ⟨small, -, stop⟩ := SignedAt.fits h.table ⟨hf, hs⟩
  have inside : a < Config.words := by
    rw [covers_iff, blockOf, Config.blockWords] at covers
    unfold Config.words
    omega
  have mem := writeWord_mem a (readWord t a).value new t
  have sigs : (writeWord a (readWord t a).value new t).sgu.sigs = t.sgu.sigs.set r.desc.slot
      ((sigOf t r.desc.slot + updateTerm r.desc (offsetIn r.desc a) (readWord t a).value new) % Config.p) :=
    congrArg (fun u => u.sgu.sigs) write
  have passes : (writeWord a (readWord t a).value new t).sgu.pass = t.sgu.pass := congrArg (fun u => u.sgu.pass) write
  obtain ⟨dev, entries, pull⟩ : (writeWord a (readWord t a).value new t).dev = t.dev ∧
      (writeWord a (readWord t a).value new t).rgt.entries = t.rgt.entries ∧
      (writeWord a (readWord t a).value new t).rse.pull = t.rse.pull := by simp
  generalize writeWord a (readWord t a).value new t = u at *
  exact
    { truthful := truthful_put_fresh h.truthful mem
      table := by
        rw [tableLaw_congr (s := t) (by rw [entries])]
        exact h.table
      sigs := by simpa [sigs] using h.sigs
      stored := fun hd j q hq normal => by
        rw [signedAt_of_entries entries] at hq
        rw [dev] at hd
        have before := h.stored hd j q hq normal
        by_cases hc : q.desc.covers (blockOf a) = true
        · obtain ⟨rfl, rfl⟩ := eq_of_covers h.table hf hq.1 covers hc
          have readable : (readWord t a).cond ≠ .uncorrectable := fun hu => by
            rw [bad hu hd] at normal
            cases normal
          rw [sigOf_of_set sigs (by rw [h.sigs]; exact small)]
          exact before.written h.truthful covers inside readable mem
        · have other : r.desc.slot ≠ q.desc.slot := fun hk => by
            obtain ⟨-, rfl⟩ := SignedAt.eq_of_slot h.table ⟨hf, hs⟩ hq hk
            exact hc covers
          rw [sigOf_of_set_ne sigs other]
          refine before.of_words fun k hk => ?_
          rw [regionWord_put q.desc mem inside, if_neg]
          rintro rfl
          exact hc (covers_of_offset hk)
      buffers := by rw [pull, passes]; exact h.buffers
      ending := by rw [pull]; exact h.ending
      outside := by rw [passes, dev]; exact h.outside
      unsigned := by
        simpa only [passes, dev, pull, signedAt_of_entries entries, doubted] using h.unsigned
      signing := fun p hp => by
        rw [passes, pass] at hp
        cases hp }

/-- A word write outside a pass, or outside the signed regions. -/
theorem Sums.write (h : Sums t) {a : Nat} (new : Word) (pass : signedBlock t (blockOf a) = true → t.sgu.pass = none)
    (bad : ∀ i r, (readWord t a).cond = .uncorrectable → t.dev = .running → regionOf t (blockOf a) = some (i, r) →
      r.desc.signed = true → r.suspect = true) : Sums (writeWord a (readWord t a).value new t) := by
  cases hb : signedBlock t (blockOf a) with
  | false => exact h.write_unsigned _ _ hb
  | true =>
    have off := pass hb
    unfold signedBlock at hb
    split at hb
    · exact h.write_signed off new ‹_› hb fun hc hd => bad _ _ hc hd ‹_› hb
    · cases hb

/-! ### Block writes (R46) -/

/-- A finding in a region that is written makes it SUSPECT (R46). -/
theorem suspect_findOverwritten {a i : Nat} {r : Region} (h : tableLaw t = true) (hr : regionOf t (blockOf a) = some (i, r))
    (hs : r.desc.signed = true) (hd : t.dev ≠ .configuring) :
    ∃ q, regionOf (findOverwritten a t) (blockOf a) = some (i, q) ∧ q.desc = r.desc ∧ q.suspect = true := by
  obtain ⟨hf, -⟩ := (regionOf_iff t h _ i r).1 hr
  obtain ⟨q, hq, desc⟩ := regionOf_congr (tableOf_findOverwritten a t) hr
  have law : tableLaw (findOverwritten a t) = true := by
    rw [tableLaw_congr (tableOf_findOverwritten a t)]
    exact h
  obtain ⟨found, -⟩ := (regionOf_iff _ law _ i q).1 hq
  have marked := markSuspect_of_signed i false (recordEvent (.uncorrectable (some i) (byteAddr a) none) t) r hd hf hs
  have table : (findOverwritten a t).rgt =
      (markSuspect i false (recordEvent (.uncorrectable (some i) (byteAddr a) none) t)).rgt := by
    rw [findOverwritten_of_signed hr hs hd]
    simp
  rw [table, marked] at found
  refine ⟨q, hq, desc, ?_⟩
  cases found
  simp [Region.suspect, calledState_ne]

/-- A word of a block-write grant, outside a pass. -/
theorem Sums.overwriteWord (h : Sums t) (pass : t.sgu.pass = none) (a : Nat) (v : Word) : Sums (overwriteWord a v t) := by
  unfold Machine.overwriteWord
  dsimp only
  split
  · have read : readWord (findOverwritten a t) a = readWord t a := readWord_of_mem (by simp)
    rw [← read]
    refine Sums.write ((Calm.findOverwritten a t).sums h) v (fun _ => by simpa using pass) fun i q _ hd hq hs => ?_
    obtain ⟨r, hr, desc⟩ := regionOf_congr (tableOf_findOverwritten a t).symm hq
    obtain ⟨q', hq', -, suspect⟩ := suspect_findOverwritten h.table hr (by rw [desc]; exact hs)
      (by rw [show t.dev = .running by simpa using hd]; nofun)
    rw [hq] at hq'
    cases hq'
    exact suspect
  · exact h.write v (fun _ => pass) fun _ _ hc => absurd hc ‹_›

theorem Sums.overwriteAll (h : Sums t) (pass : t.sgu.pass = none) (ws : List (Nat × Word)) : Sums (overwriteAll ws t) := by
  unfold Machine.overwriteAll
  induction ws generalizing t with
  | nil => exact h
  | cons w ws ih => exact ih (h.overwriteWord pass w.1 w.2) (by simpa using pass)

end

end Sys2Proof.Machine
end

section
/-! PROOFS. The sums under the start and the end of a re-signing pass, and under the frames and the grants of a pull (R145 to
R149). -/

namespace Sys2Proof.Machine

open Sys2Proof

section
variable {t u : State}

/-! ### A pass that begins or ends -/

/-- What a pass stands on that goes on to these slots: each signed region is ahead of it, or doubted, or has its sum. -/
structure Ahead (t : State) (ks : List Nat) : Prop where
  table : tableLaw t = true
  sigs : t.sgu.sigs.length = 16
  truthful : Truthful t
  stored : t.dev = .running → ∀ i r, SignedAt t i r → r.suspect = false →
    Added t r.desc r.desc.count (sigOf t r.desc.slot)
  buffers : t.rse.pull.buffers = []
  ending : t.rse.pull.phase = .completing → (t.rse.pull.ending.bind PullEndFrame.entries).isSome = true
  nodup : ks.Nodup
  slots : ∀ k ∈ ks, ∃ i r, SignedAt t i r ∧ r.desc.slot = k ∧ (t.dev = .signing ∨ r.suspect = true)
  others : ∀ i r, SignedAt t i r → r.desc.slot ∈ ks ∨ doubted t r = true ∨
    Added t r.desc r.desc.count (sigOf t r.desc.slot)

theorem getLsbD_or_bit (c : BitVec 16) {j k : Nat} (h : j ≠ k) :
    (c ||| (1 : BitVec 16) <<< k).getLsbD j = c.getLsbD j := by
  have power : (BitVec.twoPow 16 k).getLsbD j = (decide (k < 16) && decide (k = j)) := BitVec.getLsbD_twoPow k j
  rw [BitVec.getLsbD_or, show (1 : BitVec 16) <<< k = BitVec.twoPow 16 k from rfl, power]
  simp [Ne.symm h]

/-- The pass begins at the region of its first slot (R62, R149). -/
theorem Ahead.begin {k : Nat} {rest : List Nat} (h : Ahead t (k :: rest)) (bad : Nat) :
    Sums (beginRegion (k :: rest) bad t) ∧ (beginRegion (k :: rest) bad t).sgu.pass ≠ none := by
  obtain ⟨i, r, hr, rfl, state⟩ := h.slots k (by simp)
  have found : slotRegion t r.desc.slot = some (i, r) := (slotRegion_iff t h.table _ i r).2 ⟨hr.1, hr.2, rfl⟩
  obtain ⟨small, count, -⟩ := hr.fits h.table
  have doubts : ∀ q : Region, q.desc.slot ≠ r.desc.slot →
      doubted (beginRegion (r.desc.slot :: rest) bad t) q = doubted t q := fun q hq => by
    simp only [beginRegion, doubted, found]
    split
    · rfl
    · rw [getLsbD_or_bit _ hq]
  have pass := beginRegion_pass r.desc.slot rest bad t (i, r) found
  have frame := beginRegion_frame (r.desc.slot :: rest) bad t
  generalize beginRegion (r.desc.slot :: rest) bad t = u at *
  refine ⟨?_, by rw [pass]; nofun⟩
  rw [pass] at frame
  generalize u.rse.pull.clean = c at frame
  subst frame
  exact
    { table := h.table
      sigs := h.sigs
      truthful := h.truthful
      stored := h.stored
      buffers := .inl h.buffers
      ending := h.ending
      outside := nofun
      unsigned := nofun
      signing := fun p hp => by
        cases hp
        exact
          { nodup := h.nodup
            slots := h.slots
            head := ⟨i, r, hr, rfl, by rw [covers_iff]; dsimp only; omega, .inr (by
              dsimp only
              rw [Nat.sub_self]
              exact added_zero _ _)⟩
            others := fun j q hq => by
              by_cases slot : q.desc.slot = r.desc.slot
              · exact .inl (by simp [slot])
              · rw [doubts q slot]
                exact h.others j q hq } }

/-- Without a pass, outside SIGNING. -/
theorem Ahead.summed {slots : List Nat} (h : Ahead t slots) (pass : t.sgu.pass = none) (hd : t.dev ≠ .signing) : Summed t where
  table := h.table
  sigs := h.sigs
  truthful := h.truthful
  stored := h.stored
  buffers := .inl h.buffers
  ending := h.ending
  outside _ := hd
  signing p hp := by
    rw [pass] at hp
    cases hp

/-! ### The end of a pull (R149, R150) -/

theorem phase_failPull {l : Link} (cause : PullCause) (result : Option PullResult) (hl : t.rse.pull.server = some l) :
    (failPull cause result t).rse.pull.phase ≠ .completing := by
  have failed : (failedPull l cause result t).rse.pull.phase = .idle := by
    rw [failedPull_frame]
    rfl
  rw [failPull_of_server l cause result t hl]
  by_cases due : Claim.pullDue (failedPull l cause result t)
  · obtain ⟨-, phase, -⟩ := testFull_starts _ due
    rw [phase]
    nofun
  · rw [testFull_of_not_due _ due, failed]
    nofun

theorem Summed.failPull (h : Summed t) {l : Link} (cause : PullCause) (result : Option PullResult)
    (hl : t.rse.pull.server = some l) (hs : Sealed t) : Sums (failPull cause result t) where
  toSummed := (Calm.failPull cause result t hs).summed h
  unsigned _ completing := absurd completing (phase_failPull cause result hl)

/-- With a slot in use that has passed, its region is not doubted. -/
theorem not_doubted_of_slotPasses {i : Nat} {r : Region} {es : List SigEntry} (h : tableLaw t = true) (hd : t.dev ≠ .signing)
    (hr : SignedAt t i r) (passes : Claim.slotPasses t es r.desc.slot) : doubted t r = false := by
  have used : slotRegion t r.desc.slot ≠ none := by
    rw [(slotRegion_iff t h _ i r).2 ⟨hr.1, hr.2, rfl⟩]
    nofun
  unfold doubted
  rw [if_neg hd, Bool.not_eq_false', ← Bool.not_eq_false]
  exact fun unclean => not_slotPasses es used unclean passes

/-- Every slot has passed: each signed region has its sum and becomes NORMAL (R14, R149). -/
theorem Ahead.succeedPull (h : Ahead t []) (pass : t.sgu.pass = none) (hd : t.dev ≠ .signing) {l : Link}
    (hl : t.rse.pull.server = some l) (f : PullEndFrame) (es : List SigEntry) (passes : ∀ k < 16, Claim.slotPasses t es k) :
    Sums (succeedPull f es t) := by
  have frame := succeedPull_frame l f es t hl
  obtain ⟨dev, mem, sgu, entries, pull⟩ : (Machine.succeedPull f es t).dev = t.dev ∧
      (Machine.succeedPull f es t).mpu = t.mpu ∧ (Machine.succeedPull f es t).sgu = t.sgu ∧
      (Machine.succeedPull f es t).rgt.entries = mended t.rgt.entries ∧
      (Machine.succeedPull f es t).rse.pull = t.rse.pull.succeeded := by
    rw [frame]
    exact ⟨rfl, rfl, rfl, rfl, rfl⟩
  clear frame
  generalize Machine.succeedPull f es t = u at *
  have table : tableOf u = tableOf t := by
    rw [tableOf, tableOf, entries, mended, List.map_map]
    refine List.map_congr_left fun e _ => ?_
    dsimp only [Function.comp]
    split <;> rfl
  exact
    { table := by rw [tableLaw_congr table]; exact h.table
      sigs := by rw [sgu]; exact h.sigs
      truthful := fun a hc => by
        rw [readWord_of_mem (s := t) (by rw [mem])] at hc ⊢
        rw [mem]
        exact h.truthful a hc
      stored := fun _ i r' hr' _ => by
        obtain ⟨r, hf, desc⟩ := region_of_tableOf table hr'.1
        have hr : SignedAt t i r := ⟨hf, desc ▸ hr'.2⟩
        obtain ⟨small, -⟩ := hr.fits h.table
        have clean := not_doubted_of_slotPasses h.table hd hr (passes _ small)
        rcases h.others i r hr with ahead | doubts | sum
        · cases ahead
        · rw [clean] at doubts
          cases doubts
        · rw [desc, sigOf, sgu]
          exact sum.of_words fun _ _ => by rw [regionWord, regionWord, mem]
      buffers := .inl (by rw [pull]; exact h.buffers)
      ending := by rw [pull]; nofun
      outside := fun _ => by rw [dev]; exact hd
      unsigned := by rw [pull]; nofun
      signing := fun p hp => by
        rw [sgu, pass] at hp
        cases hp }

theorem Ahead.completionCheck (h : Ahead t []) (pass : t.sgu.pass = none) (hd : t.dev ≠ .signing) {l : Link}
    (hl : t.rse.pull.server = some l) (hp : t.rse.pull.phase = .completing) (hs : Sealed t) : Sums (completionCheck t) := by
  obtain ⟨f, es, hf, he⟩ : ∃ f es, t.rse.pull.ending = some f ∧ f.entries = some es := by
    obtain ⟨es, hes⟩ := Option.isSome_iff_exists.1 (h.ending hp)
    obtain ⟨f, hf, he⟩ := Option.bind_eq_some_iff.1 hes
    exact ⟨f, es, hf, he⟩
  unfold Machine.completionCheck
  rw [hf]
  dsimp only
  rw [he]
  dsimp only
  split
  · exact h.succeedPull pass hd hl f es ((slotsPass_iff t es).1 ‹_›)
  · exact (h.summed pass hd).failPull _ _ hl hs

/-! ### The checks of R148 -/

/-- While a pull completes the part is RUNNING, with a server and in no cycle (R139). -/
structure PullStands (t : State) : Prop where
  dev : t.dev = .running
  server : ∃ l, t.rse.pull.server = some l
  sealed : Sealed t

theorem PullStands.of_stands {s t : State} (h : Stands s t) (hp : t.rse.pull.phase ≠ .idle) : PullStands t := by
  have chan := h.pulled hp
  refine ⟨h.channel.2 ?_, Option.isSome_iff_exists.1 (h.server hp), ?_⟩
  · rcases chan with hc | hc <;> simp [hc]
  · rcases chan with hc | hc
    · exact .of_chan hc nofun nofun
    · exact .of_chan hc nofun nofun

/-- The regions that are SUSPECT now lie ahead of the pass (R63). -/
theorem Summed.ahead (h : Summed t) (hd : t.dev = .running) (hb : t.rse.pull.buffers = []) :
    Ahead t (slotsWith t Region.suspect) where
  table := h.table
  sigs := h.sigs
  truthful := h.truthful
  stored := h.stored
  buffers := hb
  ending := h.ending
  nodup := (slotsWith_pairwise t Region.suspect).imp fun hlt heq => by omega
  slots k hk := by
    obtain ⟨-, ⟨i, r⟩, hr, state⟩ := (mem_slotsWith_suspect t k).1 hk
    obtain ⟨hf, signed, slot⟩ := (slotRegion_iff t h.table k i r).1 hr
    exact ⟨i, r, ⟨hf, signed⟩, slot, .inr (by simpa [Region.suspect] using state)⟩
  others i r hr := by
    obtain ⟨small, -⟩ := hr.fits h.table
    by_cases hs : r.suspect = true
    · refine .inl ((mem_slotsWith_suspect t _).2 ⟨small, (i, r), ?_, by simpa [Region.suspect] using hs⟩)
      exact (slotRegion_iff t h.table _ i r).2 ⟨hr.1, hr.2, rfl⟩
    · exact .inr (.inr (h.stored hd i r hr (by simpa using hs)))

theorem Sums.pullProgress (h : Sums t) (hp : t.rse.pull.phase = .completing → PullStands t) : Sums (pullProgress t) := by
  unfold Machine.pullProgress
  split
  · rename_i due
    obtain ⟨completing, buffers, pass⟩ := due
    obtain ⟨dev, ⟨l, hl⟩, sealed_⟩ := hp completing
    have running : t.dev ≠ .signing := by rw [dev]; nofun
    split
    · split
      · exact h.toSummed.failPull _ _ hl sealed_
      · split
        · exact h.toSummed.failPull _ _ hl sealed_
        · have ahead := h.toSummed.ahead dev buffers
          split
          · rename_i none
            rw [none] at ahead
            exact ahead.completionCheck pass running hl completing sealed_
          · rename_i slots _
            cases hsl : slotsWith t Region.suspect with
            | nil => exact absurd hsl ‹_›
            | cons k rest =>
              rw [hsl] at ahead
              exact (ahead.begin 0).1
    · exact h
  · exact h

/-! ### The frames of a pull (R145, R148) -/

theorem Sums.takeBlock (h : Sums t) (hp : t.rse.pull.phase = .receiving → t.sgu.pass = none) (l : Link) (f : BlockFrame) :
    Sums (takeBlock l f t) := by
  have event : ∀ r a u, Sums u → Sums (linkErrorEvent l r a u) := fun r a u hu =>
    hu.of_view (by simp [sumView]) (by simp)
  unfold Machine.takeBlock
  split
  · rename_i receiving
    have timed : Sums { t with rse.pull.timer := some t.times.pullSilence } := h.of_view rfl rfl
    dsimp only
    split
    · split
      · exact
          { table := h.table
            sigs := h.sigs
            truthful := h.truthful
            stored := h.stored
            buffers := .inr ⟨by rw [receiving.1]; nofun, hp receiving.1⟩
            ending := h.ending
            outside := h.outside
            signing := fun p hq => by
              rw [show t.sgu.pass = some p from hq] at hp
              cases hp receiving.1
            unsigned := h.unsigned }
      · exact event _ _ _ timed
    · exact event _ _ _ timed
  · exact h

/-- A region whose slot is clean at the PULL_END is NORMAL (R149). -/
theorem doubted_at_end (h : tableLaw t = true) (hd : u.dev ≠ .signing)
    (mask : u.rse.pull.clean = slotMask (slotsWith t (fun r => !r.suspect))) {i : Nat} {r : Region}
    (hr : SignedAt t i r) : doubted u r = true ∨ r.suspect = false := by
  obtain ⟨small, -⟩ := hr.fits h
  unfold doubted
  rw [if_neg hd, mask]
  by_cases hs : r.suspect = true
  · refine .inl ?_
    rw [Bool.not_eq_true', ← Bool.not_eq_true, getLsbD_slotMask _ _ small]
    simp [slotsWith, (slotRegion_iff t h _ i r).2 ⟨hr.1, hr.2, rfl⟩, hs]
  · exact .inr (by simpa using hs)

theorem Sums.takePullEnd (h : Sums t) (hp : t.rse.pull.phase ≠ .idle → PullStands t)
    (pass : t.rse.pull.phase = .receiving → t.sgu.pass = none) (l : Link) (f : PullEndFrame) : Sums (takePullEnd l f t) := by
  unfold Machine.takePullEnd
  split
  · rename_i receiving
    obtain ⟨phase, server⟩ := receiving
    obtain ⟨dev, -, sealed_⟩ := hp (by rw [phase]; nofun)
    split
    · rename_i given
      refine Sums.pullProgress ?_ fun _ => ⟨dev, ⟨l, server⟩, sealed_⟩
      have running : t.dev ≠ .signing := by rw [dev]; nofun
      exact
        { table := h.table
          sigs := h.sigs
          truthful := h.truthful
          stored := h.stored
          buffers := .inr ⟨nofun, pass phase⟩
          ending := fun _ => given.2
          outside := h.outside
          signing := fun p hp => by
            rw [show t.sgu.pass = some p from hp] at pass
            cases pass phase
          unsigned := fun _ _ i r hr => doubted_at_end h.table (by exact running) (by rfl) hr }
    · exact h.toSummed.failPull _ _ server sealed_
  · exact h

end

end Sys2Proof.Machine
end

section
/-! PROOFS. The sums under a grant of a signing or re-signing pass (R62, R63). -/

namespace Sys2Proof.Machine

open Sys2Proof

/-! ### The block read -/

theorem normalWord_reads (w : StoredWord) (v : Word) :
    checkWord (normalWord { w with stored := v }) = checkWord w ∧
      (normalWord { w with stored := v }).written = w.written ∧ (normalWord { w with stored := v }).stored = v := by
  unfold normalWord
  split
  · rename_i few
    refine ⟨?_, rfl, rfl⟩
    have small : countBits w.flips < 3 := few
    unfold checkWord storedRaw
    dsimp only
    generalize countBits w.flips = n at small
    match n, small with
    | 0, _ => rfl
    | 1, _ => rfl
    | 2, _ => rfl
  · exact ⟨rfl, rfl, rfl⟩

section
variable {s : State} {b : Nat}

/-- What a pass reads it leaves as what was last written (R62). -/
theorem truthful_passRead (h : Truthful s) : Truthful (passRead b s) := by
  intro a hc
  unfold readWord at hc ⊢
  rw [passRead_mem] at hc ⊢
  obtain ⟨reads, written, -⟩ := normalWord_reads (memGet s.mpu.mem a) (readWord s a).value
  split at hc
  · rw [if_pos ‹_›]
    split at hc
    · rw [if_pos ‹_›, checkWord_fresh]
      rfl
    · rw [if_neg ‹_›, reads, written]
      rw [reads] at hc
      exact h a hc
  · rw [if_neg ‹_›]
    exact h a hc

theorem sumView_passRead : sumView (passRead b s) = sumView (scrubBlock findInPass b s) := by
  unfold passRead
  rw [takeAll_frame]
  rfl

theorem passRead_other {a : Nat} (h : blockOf a ≠ b) :
    memGet (passRead b s).mpu.mem a = memGet (scrubBlock findInPass b s).mpu.mem a := by
  unfold passRead
  rw [memGet_takeAll _ _ _ (blockWords_nodup b), if_neg]
  rw [mem_blockWords]
  exact fun hb => h hb.1

/-- A word of the block that could be read has its value, which is what was last written. -/
theorem passRead_kept (h : Truthful s) {a : Nat} (hb : blockOf a = b) (ha : a < Config.words)
    (hc : (readWord s a).cond ≠ .uncorrectable) :
    (memGet (passRead b s).mpu.mem a).stored = (readWord s a).value ∧
      (memGet (passRead b s).mpu.mem a).written = (readWord s a).value := by
  obtain ⟨-, written, stored⟩ := normalWord_reads (memGet s.mpu.mem a) (readWord s a).value
  rw [passRead_mem, if_pos ⟨hb, ha⟩]
  split
  · exact ⟨rfl, rfl⟩
  · exact ⟨stored, by rw [written]; exact (h a hc).symm⟩

/-- An UNCORRECTABLE word of the block makes the pass doubt its region. -/
theorem doubted_passRead {i : Nat} {r q : Region} (hd : s.dev ≠ .configuring) (h : tableLaw s = true) (hr : SignedAt s i r)
    (covers : r.desc.covers b = true) (hq : SignedAt (passRead b s) i q) (desc : q.desc = r.desc)
    (bad : ∃ a ∈ blockWords b, (readWord s a).cond = .uncorrectable) : doubted (passRead b s) q = true := by
  have region : regionOf s b = some (i, r) := (regionOf_iff s h b i r).2 ⟨hr.1, covers⟩
  obtain ⟨small, -⟩ := hr.fits h
  unfold doubted
  split
  · obtain ⟨⟨x, hx, -, state⟩, -⟩ := marked_pass hd region hr.1 hr.2 bad
    obtain ⟨rgt, -⟩ := passRead_scrub b s
    obtain ⟨hq, -⟩ := hq
    rw [rgt, hx] at hq
    cases hq
    simp [Region.suspect, state]
  · rw [desc, unclean_passRead hd region hr.1 hr.2 small bad]
    rfl

end

/-! ### The sums after the block -/

section
variable {s : State} {p : SigningPass} {k : Nat} {rest : List Nat} {i : Nat} {r : Region}

/-- The block that a pass reads, of the first of its regions. -/
structure Reading (s : State) (p : SigningPass) (k : Nat) (rest : List Nat) (i : Nat) (r : Region) : Prop where
  sums : Sums s
  dev : s.dev ≠ .configuring
  pass : s.sgu.pass = some p
  slots : p.slots = k :: rest
  region : SignedAt s i r
  slot : r.desc.slot = k
  covers : r.desc.covers p.block = true

namespace Reading

variable (h : Reading s p k rest i r)
include h

theorem scrubbed : Sums (scrubBlock findInPass p.block s) := h.sums.scrubBlock _ Calm.findInPass _

theorem table : tableLaw (passRead p.block s) = true := by
  rw [tableLaw_congr (passRead_table p.block s)]
  exact h.sums.table

theorem inPass : PassSum (scrubBlock findInPass p.block s) p := by
  refine h.scrubbed.signing p ?_
  rw [scrubBlock_frame findInPass unread_findInPass]
  exact h.pass

/-- The region after the block. -/
theorem region_after : ∃ q, SignedAt (passRead p.block s) i q ∧ q.desc = r.desc := by
  obtain ⟨q, hq, desc⟩ := region_of_tableOf (passRead_table p.block s).symm h.region.1
  exact ⟨q, ⟨hq, by rw [← desc]; exact h.region.2⟩, desc.symm⟩

omit h in
/-- Sums over other blocks stand. -/
theorem added {d : Descriptor} {n v : Nat} (ha : Added (scrubBlock findInPass p.block s) d n v)
    (away : ∀ x < 16 * n, blockOf (16 * d.first + x) ≠ p.block) : Added (passRead p.block s) d n v :=
  ha.of_words fun x hx => passRead_other (away x hx)

omit h in
theorem view : (∀ j q, SignedAt (passRead p.block s) j q ↔ SignedAt (scrubBlock findInPass p.block s) j q) ∧
    (∀ q, doubted (passRead p.block s) q = doubted (scrubBlock findInPass p.block s) q) ∧
    (∀ n, sigOf (passRead p.block s) n = sigOf (scrubBlock findInPass p.block s) n) ∧
    (passRead p.block s).dev = (scrubBlock findInPass p.block s).dev := by
  have view := sumView_passRead (b := p.block) (s := s)
  simp only [sumView, Prod.mk.injEq] at view
  obtain ⟨dev, sgu, entries, -, -, -, clean⟩ := view
  exact ⟨signedAt_of_entries entries, fun q => by rw [doubted, doubted, dev, clean], fun n => by rw [sigOf, sigOf, sgu], dev⟩

/-- Another slot's region does not contain the block. -/
theorem away {j : Nat} {q : Region} (hq : SignedAt (passRead p.block s) j q) (hk : q.desc.slot ≠ k) :
    ∀ x < 16 * q.desc.count, blockOf (16 * q.desc.first + x) ≠ p.block := by
  rintro x hx hb
  obtain ⟨q', hq', desc⟩ := h.region_after
  have covers := covers_of_offset hx
  rw [hb] at covers
  obtain ⟨-, rfl⟩ := eq_of_covers h.table hq.1 hq'.1 covers (by rw [desc]; exact h.covers)
  exact hk (by rw [desc]; exact h.slot)

/-- The sum after the block (R62). -/
theorem sum_after {q : Region} (hq : SignedAt (passRead p.block s) i q) (desc : q.desc = r.desc) :
    doubted (passRead p.block s) q = true ∨
      Added (passRead p.block s) r.desc (p.block - r.desc.first + 1) (passSum p.block r.desc p s) := by
  obtain ⟨regions, doubts, -, -⟩ := view (s := s) (p := p)
  obtain ⟨first, stop⟩ := (covers_iff _ _).1 h.covers
  obtain ⟨-, -, top⟩ := h.region.fits h.sums.table
  by_cases bad : ∃ a ∈ blockWords p.block, (readWord s a).cond = .uncorrectable
  · exact .inl (doubted_passRead h.dev h.sums.table h.region h.covers hq desc bad)
  · obtain ⟨j, q', hq', slot, -, sum⟩ := h.inPass.head
    rw [h.slots, List.head?_cons, Option.some.injEq] at slot
    obtain ⟨-, rfl⟩ := SignedAt.eq_of_slot h.scrubbed.table hq' ((regions i q).1 hq) (by rw [desc, h.slot, slot])
    rw [doubts]
    rw [desc] at sum
    refine sum.imp id fun before => ?_
    have known : ∀ x < 16, (regionWord (passRead p.block s) r.desc (16 * (p.block - r.desc.first) + x)).stored =
          (readWord s (16 * p.block + x)).value ∧
        (regionWord (passRead p.block s) r.desc (16 * (p.block - r.desc.first) + x)).written =
          (readWord s (16 * p.block + x)).value := by
      intro x hx
      have place : Config.blockWords * r.desc.first + (16 * (p.block - r.desc.first) + x) = 16 * p.block + x := by
        unfold Config.blockWords
        omega
      have inBlock : blockOf (16 * p.block + x) = p.block := by
        unfold blockOf Config.blockWords
        omega
      rw [regionWord, place]
      refine passRead_kept h.sums.truthful inBlock ?_ fun hc => bad ⟨_, (mem_blockWords _ _).2 inBlock, hc⟩
      unfold Config.words
      omega
    have step := (added before fun x hx => by unfold blockOf Config.blockWords; omega).step fun x low high => by
      obtain ⟨y, rfl⟩ := Nat.exists_eq_add_of_le low
      obtain ⟨stored, written⟩ := known y (by omega)
      rw [stored, written]
    have terms : (List.range 16).map (fun x => wordTerm r.desc (16 * (p.block - r.desc.first) + x)
          (regionWord (passRead p.block s) r.desc (16 * (p.block - r.desc.first) + x)).stored) =
        (blockWords p.block).map (fun a => wordTerm r.desc (offsetIn r.desc a) (readWord s a).value) := by
      unfold blockWords
      rw [List.map_map]
      refine List.map_congr_left fun x hx => ?_
      have offset : offsetIn r.desc (16 * p.block + x) = 16 * (p.block - r.desc.first) + x := by
        unfold offsetIn Config.blockWords
        omega
      obtain ⟨stored, -⟩ := known x (List.mem_range.1 hx)
      rw [stored, ← offset]
      rfl
    rw [terms] at step
    exact step

/-- The other slots' regions have what they had. -/
theorem others_after {j : Nat} {q : Region} (hq : SignedAt (passRead p.block s) j q) (hk : q.desc.slot ≠ k) :
    q.desc.slot ∈ rest ∨ doubted (passRead p.block s) q = true ∨
      Added (passRead p.block s) q.desc q.desc.count (sigOf (passRead p.block s) q.desc.slot) := by
  obtain ⟨regions, doubts, sigs, -⟩ := view (s := s) (p := p)
  rw [doubts, sigs]
  rcases h.inPass.others j q ((regions j q).1 hq) with ahead | doubts | sum
  · rw [h.slots] at ahead
    exact .inl ((List.mem_cons.1 ahead).resolve_left hk)
  · exact .inr (.inl doubts)
  · exact .inr (.inr (added sum (h.away hq hk)))

theorem slots_after : ∀ n ∈ p.slots, ∃ j q, SignedAt (passRead p.block s) j q ∧ q.desc.slot = n ∧
    ((passRead p.block s).dev = .signing ∨ q.suspect = true) := by
  obtain ⟨regions, -, -, dev⟩ := view (s := s) (p := p)
  intro n hn
  obtain ⟨j, q, hq, rest⟩ := h.inPass.slots n hn
  exact ⟨j, q, (regions j q).2 hq, by rwa [dev]⟩

/-- The NORMAL regions are not those that the pass signs anew. -/
theorem stored_after (hd : (passRead p.block s).dev = .running) {j : Nat} {q : Region}
    (hq : SignedAt (passRead p.block s) j q) (normal : q.suspect = false) :
    q.desc.slot ≠ k ∧ Added (passRead p.block s) q.desc q.desc.count (sigOf (passRead p.block s) q.desc.slot) := by
  obtain ⟨regions, -, sigs, dev⟩ := view (s := s) (p := p)
  have other : q.desc.slot ≠ k := by
    rintro rfl
    obtain ⟨j', q', hq', slot, state⟩ := h.slots_after q.desc.slot (by rw [h.slots]; simp)
    obtain ⟨-, rfl⟩ := hq'.eq_of_slot h.table hq slot
    rw [hd, normal] at state
    rcases state with hs | hs <;> cases hs
  rw [sigs]
  exact ⟨other, added (h.scrubbed.stored (dev ▸ hd) j q ((regions j q).1 hq) normal) (h.away hq other)⟩

theorem buffers_after : (passRead p.block s).rse.pull.buffers = [] := by
  have view := sumView_passRead (b := p.block) (s := s)
  simp only [sumView, Prod.mk.injEq] at view
  obtain ⟨-, -, -, -, buffers, -⟩ := view
  rw [buffers, scrubBlock_frame findInPass unread_findInPass]
  exact h.sums.buffers.resolve_right fun ⟨_, off⟩ => by rw [h.pass] at off; cases off

theorem ending_after : (passRead p.block s).rse.pull.phase = .completing →
    ((passRead p.block s).rse.pull.ending.bind PullEndFrame.entries).isSome = true := by
  have view := sumView_passRead (b := p.block) (s := s)
  simp only [sumView, Prod.mk.injEq] at view
  obtain ⟨-, -, -, phase, -, ending, -⟩ := view
  rw [phase, ending]
  exact h.scrubbed.ending

theorem sigs_after : (passRead p.block s).sgu.sigs.length = 16 := by
  rw [passRead_frame]
  exact h.sums.sigs

/-! ### The grant -/

/-- The region has further blocks. -/
theorem goesOn (bad : Nat) (more : p.block + 1 < r.desc.first + r.desc.count) :
    Sums { passRead p.block s with
      sgu.pass := some ⟨p.slots, p.block + 1, passSum p.block r.desc p s, bad⟩ } := by
  obtain ⟨q, hq, desc⟩ := h.region_after
  have table := h.table
  have truthful := truthful_passRead (b := p.block) h.sums.truthful
  have sum := h.sum_after hq desc
  have others := fun j q' hq' hk => h.others_after (j := j) (q := q') hq' hk
  have slots := h.slots_after
  have stored := fun hd j q' hq' normal => (h.stored_after hd (j := j) (q := q') hq' normal).2
  have buffers := h.buffers_after
  have ending := h.ending_after
  have sigs := h.sigs_after
  have first := ((covers_iff _ _).1 h.covers).1
  generalize passRead p.block s = t at *
  exact
    { table, sigs, truthful, stored, ending
      buffers := .inl buffers
      outside := nofun
      unsigned := nofun
      signing := fun p' hp => by
        cases hp
        exact
          { nodup := h.inPass.nodup
            slots
            head := by
              refine ⟨i, q, hq, by rw [desc, h.slot, h.slots]; rfl, by rw [desc, covers_iff]; dsimp only; omega, ?_⟩
              rw [desc]
              dsimp only
              rw [show p.block + 1 - r.desc.first = p.block - r.desc.first + 1 by omega]
              exact sum
            others := fun j q' hq' => by
              rw [h.slots]
              by_cases hk : q'.desc.slot = k
              · exact .inl (by simp [hk])
              · exact (others j q' hq' hk).imp (List.mem_cons_of_mem k) id } }

/-- The region ends: its signature is its sum. -/
theorem ends (last : ¬p.block + 1 < r.desc.first + r.desc.count) :
    Ahead (setSig k (passSum p.block r.desc p s) (passRead p.block s)) rest := by
  obtain ⟨q, hq, desc⟩ := h.region_after
  have table := h.table
  have truthful := truthful_passRead (b := p.block) h.sums.truthful
  have sum := h.sum_after hq desc
  have others := fun j q' hq' hk => h.others_after (j := j) (q := q') hq' hk
  have slots := h.slots_after
  have stored := fun hd j q' hq' normal => h.stored_after hd (j := j) (q := q') hq' normal
  have buffers := h.buffers_after
  have ending := h.ending_after
  have sigs := h.sigs_after
  obtain ⟨first, stop⟩ := (covers_iff _ _).1 h.covers
  obtain ⟨small, -⟩ := hq.fits table
  have nodup := h.inPass.nodup
  rw [h.slots] at nodup slots
  generalize passRead p.block s = t at *
  have all : p.block - r.desc.first + 1 = r.desc.count := by omega
  rw [all] at sum
  have set : (setSig k (passSum p.block r.desc p s) t).sgu.sigs = t.sgu.sigs.set k (passSum p.block r.desc p s) := rfl
  have own : sigOf (setSig k (passSum p.block r.desc p s) t) k = passSum p.block r.desc p s :=
    sigOf_of_set set (by rw [sigs, ← h.slot, ← desc]; exact small)
  exact
    { table, truthful, buffers, ending
      sigs := by rw [set, List.length_set]; exact sigs
      nodup := (List.nodup_cons.1 nodup).2
      slots := fun n hn => slots n (List.mem_cons_of_mem k hn)
      stored := fun hd j q' hq' normal => by
        obtain ⟨other, added⟩ := stored hd j q' hq' normal
        rw [sigOf_of_set_ne set (Ne.symm other)]
        exact added
      others := fun j q' hq' => by
        by_cases hk : q'.desc.slot = k
        · obtain ⟨-, rfl⟩ := hq'.eq_of_slot table hq (by rw [hk, desc, h.slot])
          rw [hk, own, desc]
          exact .inr sum
        · rw [sigOf_of_set_ne set (Ne.symm hk)]
          exact others j q' hq' hk }

/-- After the grant the pass goes on, or every region has been signed (R62, R63). -/
theorem signBlock : Sums (signBlock s) ∧ (signBlock s).sgu.pass ≠ none ∨
    Ahead (signBlock s) [] ∧ (signBlock s).sgu.pass = none := by
  rw [signBlock_eq h.pass h.slots ((slotRegion_iff s h.sums.table k i r).2 ⟨h.region.1, h.region.2, h.slot⟩)]
  split
  · exact .inl ⟨h.goesOn _ ‹_›, nofun⟩
  · have ahead := h.ends ‹_›
    generalize setSig k (passSum p.block r.desc p s) (passRead p.block s) = t at ahead
    cases rest with
    | cons k' rest' => exact .inl (ahead.begin _)
    | nil =>
      exact .inr ⟨⟨ahead.table, ahead.sigs, ahead.truthful, ahead.stored, ahead.buffers, ahead.ending, ahead.nodup,
        ahead.slots, ahead.others⟩, rfl⟩

end Reading

/-- A pass in progress reads the next block of its first region. -/
theorem Sums.reading (h : Sums s) (hd : s.dev ≠ .configuring) (hp : s.sgu.pass = some p) :
    ∃ k rest i r, Reading s p k rest i r := by
  obtain ⟨i, r, hr, slot, covers, -⟩ := (h.signing p hp).head
  cases hs : p.slots with
  | nil =>
    rw [hs] at slot
    cases slot
  | cons k rest =>
    rw [hs, List.head?_cons, Option.some.injEq] at slot
    exact ⟨k, rest, i, r, h, hd, hp, hs, hr, slot.symm, covers⟩

end

end Sys2Proof.Machine
end

section
/-! PROOFS. The signed entries of the queue under the transfers at the port and under the end of a step (R20, R21, R24, R27). -/

namespace Sys2Proof.Machine

open Sys2Proof

section
variable {s t : State}

/-- A write that passes the check into a signed region finds CONFIGURING or an open cycle (R4, R20). -/
theorem open_of_passes {x : Transfer} {i : Nat} {r : Region} (hw : x.write = true)
    (region : regionOf t (blockOf x.word) = some (i, r)) (passes : accessCheck t x = none) (hs : r.desc.signed = true) :
    t.dev = .configuring ∨ cycleOpen t = true := by
  have permitted : phaseRefusal t r.desc.kind = none := by
    unfold accessCheck at passes
    simp only [region, hw, if_true] at passes
    split at passes
    · cases passes
    · split at passes
      · exact Option.map_eq_none_iff.1 passes
      · cases passes
  have signed : r.desc.kind.signed = true := hs
  unfold phaseRefusal at permitted
  rw [if_pos signed] at permitted
  split at permitted
  · cases permitted
  · cases permitted
  · split at permitted
    · exact .inl ‹_›
    · cases permitted
    · split at permitted
      · rename_i h
        exact .inr (by simp [cycleOpen, h.1])
      · cases permitted

theorem signedQueueLaw_acceptWrite {x : Transfer} (hq : signedQueueLaw t = true) (hw : x.write = true)
    (passes : accessCheck t x = none) : signedQueueLaw (acceptWrite x t) = true := by
  unfold acceptWrite
  split
  · exact hq
  · split
    · rename_i i r region
      rw [signedQueueLaw_congr (s := { t with pwq.entries :=
        t.pwq.entries ++ [⟨x.word, x.data, x.be, x.ini, i, r.desc.signed⟩] }) (tableOf_of_rgt (by simp)) (by simp) (by simp)
        (by simp)]
      rw [signedQueueLaw_iff] at hq ⊢
      obtain ⟨flags, place⟩ := hq
      have here : signedBlock t (blockOf x.word) = r.desc.signed := by
        unfold signedBlock
        rw [region]
      refine ⟨fun e he => ?_, ?_⟩
      · rcases List.mem_append.1 he with he | he
        · exact flags e he
        · rw [List.mem_singleton.1 he]
          exact here.symm
      · cases hs : r.desc.signed with
        | true => exact (open_of_passes hw region passes hs).imp id .inl
        | false =>
          refine place.imp id (Or.imp id fun none e he => ?_)
          rcases List.mem_append.1 he with he | he
          · exact none e he
          · rw [List.mem_singleton.1 he]
    · exact hq

theorem signedQueueLaw_judge (w : Bool) (x : Transfer) (hq : signedQueueLaw t = true) :
    signedQueueLaw (judge w x t).1 = true := by
  unfold judge
  split
  · rw [signedQueueLaw_congr (s := t) (tableOf_of_rgt (by simp)) (by simp) (by simp) (by simp)]
    exact hq
  · split
    · split
      · exact hq
      · have accepted := signedQueueLaw_acceptWrite hq ‹_› ‹_›
        exact accepted
    · (repeat' split) <;> exact hq

theorem signedQueueLaw_arrive (x : Transfer) (hq : signedQueueLaw t = true) : signedQueueLaw (arrive x t) = true := by
  have judged := signedQueueLaw_judge false x hq
  unfold arrive
  split
  · exact hq
  · split
    · exact hq
    · split
      · exact judged
      · exact judged

theorem signedQueueLaw_releaseOne (g : Held) (hq : signedQueueLaw t = true) : signedQueueLaw (releaseOne g t) = true := by
  have judged := signedQueueLaw_judge g.hold.isHazard g.transfer hq
  unfold releaseOne
  split
  · split
    · exact judged
    · exact judged
  · exact hq

theorem signedQueueLaw_settle (hq : signedQueueLaw t = true) : signedQueueLaw (settle t) = true := by
  have fold : ∀ (gs : List Held) (u : State), signedQueueLaw u = true →
      signedQueueLaw (gs.foldl (fun s h => releaseOne h s) u) = true := by
    intro gs
    induction gs with
    | nil => exact fun _ hu => hu
    | cons g gs ih => exact fun u hu => ih _ (signedQueueLaw_releaseOne g hu)
  have released : signedQueueLaw (releaseHeld t) = true := by
    unfold releaseHeld
    split
    · exact hq
    · exact fold _ t hq
  rw [signedQueueLaw_congr (s := releaseHeld t) (tableOf_of_rgt (by simp)) (by simp) (by simp [settle]) (by simp)]
  exact released

/-! ### Steps outside CONFIGURING's table and the join -/

/-- A step in which the device state stands: what it keeps of the queue's law and of the sums. -/
structure Walk (s t : State) : Prop where
  dev : t.dev = s.dev
  initOp : t.mpu.initOp = s.mpu.initOp
  queue : signedQueueLaw s = true → signedQueueLaw t = true
  sums : Sums s → signedQueueLaw s = true → initLaw s = true → Sums t

/-- The laws of a step. -/
structure Lawful (s t : State) : Prop where
  init : initLaw s = true → initLaw t = true
  queue : signedQueueLaw s = true → signedQueueLaw t = true
  sums : Sums s → signedQueueLaw s = true → initLaw s = true → storedLaw t = true ∧ passSumLaw t = true

theorem initLaw_iff (s : State) : initLaw s = true ↔
    s.mpu.initOp = none ∨ s.dev = .configuring ∧ ∀ f, s.cmu.buffer = some f → f.cmd = .reset := by
  unfold initLaw
  cases s.cmu.buffer <;> simp

namespace Walk

variable {u : State}

theorem refl (s : State) : Walk s s := ⟨rfl, rfl, id, fun h _ _ => h⟩

theorem of_calm (h : Calm s t) : Walk s t := ⟨h.dev, h.initOp, h.signedQueue, fun hs _ _ => h.sums hs⟩

theorem calm (h : Walk s t) (c : Calm t u) : Walk s u where
  dev := c.dev.trans h.dev
  initOp := c.initOp.trans h.initOp
  queue hq := c.signedQueue (h.queue hq)
  sums hs hq hi := c.sums (h.sums hs hq hi)

theorem of_view (h : Walk s t) (view : sumView u = sumView t) (mem : u.mpu.mem = t.mpu.mem)
    (initOp : u.mpu.initOp = t.mpu.initOp) (queue : signedQueueLaw t = true → signedQueueLaw u = true) : Walk s u where
  dev := (congrArg (fun v => v.1) view).trans h.dev
  initOp := initOp.trans h.initOp
  queue hq := queue (h.queue hq)
  sums hs hq hi := (h.sums hs hq hi).of_view view mem

theorem settle (h : Walk s t) : Walk s (settle t) :=
  h.of_view (by simp [sumView]) (by simp) (by simp) signedQueueLaw_settle

theorem arrive (h : Walk s t) (x : Transfer) : Walk s (arrive x t) :=
  h.of_view (by simp [sumView]) (by simp) (by simp) (signedQueueLaw_arrive x)

/-- INIT_MEMORY runs on where the command buffer stands or takes no command but the reset. -/
theorem lawful (h : Walk s t)
    (buffer : s.mpu.initOp ≠ none → ∀ f, t.cmu.buffer = some f → s.cmu.buffer = some f ∨ f.cmd = .reset) : Lawful s t where
  init hi := by
    by_cases off : s.mpu.initOp = none
    · exact (initLaw_iff t).2 (.inl (h.initOp.trans off))
    · obtain ⟨dev, cmd⟩ := ((initLaw_iff s).1 hi).resolve_left off
      exact (initLaw_iff t).2 (.inr ⟨h.dev.trans dev, fun f hf => (buffer off f hf).elim (cmd f) id⟩)
  queue := h.queue
  sums hs hq hi := (h.sums hs hq hi).laws

theorem quiet (h : Walk s t) (view : commandView t = commandView s) : Lawful s t := by
  simp only [commandView, Prod.mk.injEq] at view
  obtain ⟨-, buffer, -⟩ := view
  exact h.lawful fun _ f hf => .inl (buffer ▸ hf)

end Walk

end

end Sys2Proof.Machine
end

section
/-! PROOFS. The laws of the signatures over the grants of the memory port (R25, R32, R45, R51, R62, R80, R84, R97, R146, R153). -/

namespace Sys2Proof.Machine

open Sys2Proof

section
variable {s t : State}

/-! ### No pass in a cycle, and none while a pull receives -/

theorem Stands.no_pass_in_cycle (h : Stands s t) {c : ChannelState} (hc : t.cju.chan = some c) (h1 : c ≠ .catchup)
    (h2 : c ≠ .restoring) : t.sgu.pass = none := by
  have idle : t.rse.pull.phase = .idle := h.not_pulling (by simp [hc, h1]) (by simp [hc, h2])
  exact h.no_pass (h.running hc) (by rw [idle]; nofun)

theorem Stands.no_pass_configuring (h : Stands s t) (hd : t.dev = .configuring) : t.sgu.pass = none := by
  obtain ⟨-, -, -, idle⟩ := h.off (by rw [hd]; nofun)
  by_contra pass
  rcases h.pass pass with signing | completing
  · rw [hd] at signing
    cases signing
  · rw [idle] at completing
    cases completing

theorem Stands.no_pass_receiving (h : Stands s t) (hp : t.rse.pull.phase = .receiving) : t.sgu.pass = none := by
  have running : t.dev = .running := by
    by_contra hd
    obtain ⟨-, -, -, idle⟩ := h.off hd
    rw [hp] at idle
    cases idle
  exact h.no_pass running (by rw [hp]; nofun)

/-- A signed entry that is queued finds no pass (R27). -/
theorem Stands.no_pass_of_signed (h : Stands s t) (hq : signedQueueLaw t = true) {e : PwqEntry} (he : e ∈ t.pwq.entries)
    (hs : e.signed = true) : t.sgu.pass = none := by
  obtain ⟨-, place⟩ := (signedQueueLaw_iff t).1 hq
  rcases place with configuring | opened | unsigned
  · exact h.no_pass_configuring configuring
  · rcases (by simpa [cycleOpen] using opened : t.cju.chan = some .opened ∨ t.cju.chan = some .closing) with hc | hc
    · exact h.no_pass_in_cycle hc nofun nofun
    · exact h.no_pass_in_cycle hc nofun nofun
  · rw [unsigned e he] at hs
    cases hs

namespace Walk

/-! ### Block-read grants -/

theorem scrubBlock (h : Walk s t) (i : Option Initiator) (b : Nat) : Walk s (scrubBlock (findUncorrectable i) b t) where
  dev := (scrub_keep (fun u => u.dev) (fun _ => rfl) i b t).trans h.dev
  initOp := (scrub_keep (fun u => u.mpu.initOp) (fun _ => rfl) i b t).trans h.initOp
  queue hq := by
    rw [signedQueueLaw_congr (tableOf_scrubBlock i b t) (scrub_keep (fun u => u.dev) (fun _ => rfl) i b t)
      (scrub_keep (fun u => u.pwq.entries) (fun _ => rfl) i b t) (scrub_keep (fun u => u.cju.chan) (fun _ => rfl) i b t)]
    exact h.queue hq
  sums hs hq hi := (h.sums hs hq hi).scrubBlock _ (Calm.findUncorrectable i) b

theorem captureHead (s : State) : Walk s (captureHead s) := by
  unfold Machine.captureHead
  split
  · rename_i e _ _
    have read := (refl s).scrubBlock (some e.ini) (blockOf e.word)
    dsimp only
    generalize Machine.scrubBlock (Machine.findUncorrectable (some e.ini)) (blockOf e.word) s = u at read
    have captured : Walk s (forgetTried { u with cju :=
        { u.cju with
          journal := u.cju.journal ++ [preImage s (blockOf e.word)], wCur := setInsert u.cju.wCur (blockOf e.word) } }) :=
      read.calm (.of (by simp [calmView]))
    split
    · exact (captured.calm (Calm.abandonFor _ _)).settle
    · exact captured.settle
  · exact refl s

theorem patrolBlock (s : State) : Walk s (patrolBlock s) := by
  unfold Machine.patrolBlock
  split
  · rename_i b _
    split
    · rename_i e _
      have entered : Walk s (enterRegion e.2 b s) := of_calm (.of (by simp [calmView]))
      have read := entered.scrubBlock none b
      dsimp only
      generalize Machine.scrubBlock (Machine.findUncorrectable none) b (enterRegion e.2 b s) = u at read
      have added := read.calm (u := accumulate e.2.desc b (readBlock s b) u) (.of (by simp [calmView]))
      generalize accumulate e.2.desc b (readBlock s b) u = v at added
      have ended : Calm v (endOfRegion e.1 b v) := by
        unfold endOfRegion
        split
        · split
          · exact Calm.marked e.1 false _ (Calm.recordEvent _) v
          · exact .refl v
        · exact .refl v
      exact (added.calm ended).calm (.of (by rfl))
    · exact of_calm (.of (by rfl))
  · exact of_calm (.of (by rfl))

theorem serveBlock (s : State) : Walk s (serveBlock s) := by
  unfold Machine.serveBlock
  split
  · rename_i b _
    have read := (refl s).scrubBlock none b
    dsimp only
    generalize Machine.scrubBlock (Machine.findUncorrectable none) b s = u at read
    split
    · exact read.calm (.of (by simp [calmView]))
    · split
      · exact read.calm (Calm.endService _ _ _)
      · exact read.calm (.of (by simp [calmView]))
    · exact read.calm (.of (by simp [calmView]))
  · exact refl s

/-! ### The processor port's grants -/

theorem procRead (s : State) : Walk s (procRead s) := by
  unfold Machine.procRead
  split
  · refine settle ?_
    unfold readForPort
    dsimp only
    split
    · exact of_calm (.of (by rfl))
    · split
      · exact of_calm (Calm.trans (.of (by rfl)) (Calm.countCorrected _ _))
      · exact of_calm (.of (by rfl))
    · exact of_calm ((Calm.trans (.of (by rfl)) (Calm.findUncorrectable _ _ _)).trans (Calm.abandonFor _ _))
  · exact refl s

theorem writeBack (s : State) : Walk s (writeBack s) := by
  unfold Machine.writeBack
  split
  · rename_i a _
    have done : Walk s { s with mpu.writeBack := none } := of_calm (.of (by rfl))
    dsimp only
    split
    · rename_i hc
      exact
        { dev := rfl
          initOp := rfl
          queue := id
          sums := fun hs hq hi => (done.sums hs hq hi).correct (a := a)
            (by rw [show (readWord { s with mpu.writeBack := none } a).cond = .correctable from hc]; nofun) }
    · exact done
  · exact refl s


end Walk

/-- Entries leave the queue. -/
theorem Calm.leaveQueue (gone stay : List PwqEntry) (t : State) (h : ∀ e ∈ stay, e ∈ t.pwq.entries) :
    Calm t (leaveQueue gone stay t) where
  dev := by simp
  mem := by simp
  initOp := by simp
  sgu := by simp
  table := tableOf_of_rgt (by simp)
  region i r hr := ⟨r, by simpa using hr, rfl, id, fun hs _ => .inl hs⟩
  clean k hk := by simpa [Unclean] using hk
  pull := .inl (by simp)
  queue e he := h e (by simpa [Machine.leaveQueue] using he)
  opened ho := .inl (by simpa [cycleOpen] using ho)

theorem Calm.beforeWrite (e : PwqEntry) (s : State) : Calm s (beforeWrite e s) := by
  have marked : Calm s (overflow e s) := .of (by simp [calmView])
  unfold Machine.beforeWrite
  split
  · exact marked
  · exact marked.trans (Calm.countCorrected _ _)
  · exact marked.trans (Calm.findUncorrectable _ _ _)

/-- A finding makes a signed region SUSPECT (R12, R34). -/
theorem suspect_findUncorrectable {ini : Option Initiator} {a i : Nat} {q : Region} (h : tableLaw t = true)
    (hd : t.dev ≠ .configuring) (hq : regionOf (findUncorrectable ini a t) (blockOf a) = some (i, q))
    (hs : q.desc.signed = true) : q.suspect = true := by
  have table := tableOf_findUncorrectable ini a t
  have law : tableLaw (findUncorrectable ini a t) = true := by rwa [tableLaw_congr table]
  obtain ⟨r, hr, desc⟩ := regionOf_congr table.symm hq
  have signed : r.desc.signed = true := by rwa [desc]
  obtain ⟨hf, -⟩ := (regionOf_iff t h _ i r).1 hr
  obtain ⟨found, -⟩ := (regionOf_iff _ law _ i q).1 hq
  obtain ⟨⟨⟨x, hx, -, state⟩, -⟩, -⟩ := findUncorrectable_marks ini hd hr rfl hf signed
  rw [found] at hx
  cases hx
  simp [Region.suspect, state, foundState_suspect t signed hd]

theorem suspect_beforeWrite {e : PwqEntry} {i : Nat} {q : Region} (h : tableLaw s = true)
    (hc : (readWord s e.word).cond = .uncorrectable) (hd : s.dev ≠ .configuring)
    (hq : regionOf (beforeWrite e s) (blockOf e.word) = some (i, q)) (hs : q.desc.signed = true) : q.suspect = true := by
  unfold beforeWrite at hq
  rw [hc] at hq
  dsimp only at hq
  refine suspect_findUncorrectable ?_ (by simpa using hd) hq hs
  rwa [tableLaw_congr (tableOf_of_rgt (s := s) (t := overflow e s) (by simp))]

namespace Walk

/-- The head's write: a signed entry finds no pass (R25, R27). -/
theorem performHead (stands : Stands s s) {e : PwqEntry} (he : e ∈ s.pwq.entries) :
    Walk s (performEntry e (overflow e s)) := by
  have before := Calm.beforeWrite e s
  rw [performEntry_eq]
  split
  · exact of_calm (before.trans (Calm.recordRefusal _ _ _ _ _))
  · have read : readWord (beforeWrite e s) e.word = readWord s e.word := readWord_of_mem (by rw [before.mem])
    have suspect (i : Nat) (q : Region) (h : tableLaw s = true) (hc : (readWord s e.word).cond = .uncorrectable)
        (hd : s.dev ≠ .configuring) (hq : regionOf (beforeWrite e s) (blockOf e.word) = some (i, q))
        (hs : q.desc.signed = true) : q.suspect = true := suspect_beforeWrite h hc hd hq hs
    rw [← read] at suspect ⊢
    generalize beforeWrite e s = v at before read suspect
    exact
      { dev := by simpa using before.dev
        initOp := by simpa using before.initOp
        queue := fun hq => by
          rw [signedQueueLaw_congr (tableOf_writeWord _ _ _ v) (by simp) (by simp) (by simp)]
          exact before.signedQueue hq
        sums := fun hs hq _ => by
          refine (before.sums hs).write _ (fun hb => ?_) fun i q hc hd hr signed => ?_
          · obtain ⟨flags, -⟩ := (signedQueueLaw_iff s).1 hq
            rw [signedBlock_congr before.table, ← flags e he] at hb
            rw [before.sgu]
            exact stands.no_pass_of_signed hq he hb
          · rw [before.dev] at hd
            exact suspect i q hs.table hc (by rw [hd]; nofun) hr signed }

theorem headWrite (stands : Stands s s) : Walk s (headWrite s) := by
  unfold Machine.headWrite
  split
  · rename_i e rest hs
    have performed := performHead stands (e := e) (by rw [hs]; simp)
    have left := performed.calm (Calm.leaveQueue [e] rest _ fun x hx => by
      rw [show (performEntry e (overflow e s)).pwq = s.pwq by simp, hs]
      exact List.mem_cons_of_mem e hx)
    dsimp only
    split
    · exact (left.calm (Calm.abandonFor _ _)).settle
    · exact left.settle
  · exact refl s

/-! ### Block-write grants -/

theorem overwriteAll (h : Walk s t) (pass : Sums s → initLaw s = true → t.sgu.pass = none) (ws : List (Nat × Word)) :
    Walk s (overwriteAll ws t) where
  dev := by simpa using h.dev
  initOp := by simpa using h.initOp
  queue hq := by
    rw [signedQueueLaw_congr (tableOf_overwriteAll ws t) (by simp) (by simp) (by simp)]
    exact h.queue hq
  sums hs hq hi := (h.sums hs hq hi).overwriteAll (pass hs hi) ws

theorem rollbackNewest (stands : Stands s s) (hc : s.cju.chan = some .rollingBack) : Walk s (rollbackNewest s) := by
  unfold Machine.rollbackNewest
  split
  · rename_i e _
    have put := (refl s).overwriteAll (fun _ _ => stands.no_pass_in_cycle hc nofun nofun) (knownWrites e)
    have cju : (Machine.overwriteAll (knownWrites e) s).cju = s.cju := by simp
    dsimp only
    generalize Machine.overwriteAll (knownWrites e) s = u at put cju
    have back := put.calm (u := reconsiderMarks
        { u with cju := { u.cju with journal := u.cju.journal.dropLast, wCur := setErase u.cju.wCur e.block } }) (.of (by rfl))
    split
    · refine (back.calm (Calm.finishRollback _ (.of_chan (c := .rollingBack) ?_ nofun nofun))).settle
      exact (congrArg Cju.chan cju).trans hc
    · exact back.settle
  · exact refl s

end Walk

/-- INIT_MEMORY writes in CONFIGURING (R51). -/
theorem Lawful.initBlock (stands : Stands s s) : Lawful s (initBlock s) := by
  cases hop : s.mpu.initOp with
  | none =>
    rw [show Machine.initBlock s = s by unfold Machine.initBlock; rw [hop]]
    exact (Walk.refl s).quiet rfl
  | some op =>
    have configuring : initLaw s = true → s.dev = .configuring ∧ ∀ f, s.cmu.buffer = some f → f.cmd = .reset := fun hi =>
      ((initLaw_iff s).1 hi).resolve_left (by rw [hop]; nofun)
    have zeroed := (Walk.refl s).overwriteAll (fun _ hi => stands.no_pass_configuring (configuring hi).1)
      ((blockWords op.next).map fun a => (a, 0))
    have view := commandView_initBlock s
    simp only [commandView, Prod.mk.injEq] at view
    obtain ⟨-, buffer, dev⟩ := view
    have view : sumView (Machine.initBlock s) = sumView (Machine.overwriteAll ((blockWords op.next).map fun a => (a, 0)) s) ∧
        (Machine.initBlock s).mpu.mem = (Machine.overwriteAll ((blockWords op.next).map fun a => (a, 0)) s).mpu.mem ∧
        signedQueueLaw (Machine.initBlock s) =
          signedQueueLaw (Machine.overwriteAll ((blockWords op.next).map fun a => (a, 0)) s) := by
      rw [initBlock_eq op s hop]
      dsimp only
      split
      · exact ⟨rfl, rfl, rfl⟩
      · exact ⟨by simp [sumView], by simp, signedQueueLaw_congr (tableOf_of_rgt (by simp)) (by simp) (by simp) (by simp)⟩
    obtain ⟨sums, mem, queue⟩ := view
    exact
      { init := fun hi => (initLaw_iff _).2 (.inr (by rw [dev, buffer]; exact configuring hi))
        queue := fun hq => by rw [queue]; exact zeroed.queue hq
        sums := fun hs hq hi => ((zeroed.sums hs hq hi).of_view sums mem).laws }

end

end Sys2Proof.Machine
end

section
/-! PROOFS. The laws of the signatures over the writes of a pull, the end of a pass and the join (R62, R63, R146 to R150, R165). -/

namespace Sys2Proof.Machine

open Sys2Proof

section
variable {s t : State}

/-! ### The table through the end of a pull -/

theorem tableOf_of_bare (h : bare t.rgt.entries = bare s.rgt.entries) : tableOf t = tableOf s := by
  have through : ∀ u : State, tableOf u = (bare u.rgt.entries).map fun e => (e.1, e.2.desc) := fun u => by
    unfold tableOf bare
    rw [List.map_map]
    rfl
  rw [through, through, h]

theorem tableOf_completionCheck (t : State) : tableOf (completionCheck t) = tableOf t :=
  tableOf_of_bare (follow_completionCheck t).counts

theorem tableOf_pullProgress (t : State) : tableOf (pullProgress t) = tableOf t := by
  have failed : ∀ c r, tableOf (failPull c r t) = tableOf t := fun c r => tableOf_of_rgt (by simp)
  unfold pullProgress
  split
  · split
    · split
      · exact failed _ _
      · split
        · exact failed _ _
        · split
          · exact tableOf_completionCheck t
          · exact tableOf_of_rgt (by simp)
    · rfl
  · rfl

/-! ### The queue while a pull completes -/

theorem signedQueueLaw_of_unsigned (table : tableOf t = tableOf s) (queue : t.pwq.entries = s.pwq.entries)
    (hq : signedQueueLaw s = true) (unsigned : Unsigned s) : signedQueueLaw t = true := by
  obtain ⟨flags, -⟩ := (signedQueueLaw_iff s).1 hq
  rw [signedQueueLaw_iff, Unsigned, queue]
  exact ⟨fun e he => by rw [signedBlock_congr table]; exact flags e he, .inr (.inr unsigned)⟩

theorem PullStands.unsigned (h : PullStands t) (hq : signedQueueLaw t = true) : Unsigned t := by
  cases ho : cycleOpen t with
  | true => exact h.sealed ho
  | false => exact unsigned_of_signedQueueLaw hq (by rw [h.dev]; nofun) ho

theorem PullStands.congr (h : PullStands s) (dev : t.dev = s.dev) (server : t.rse.pull.server = s.rse.pull.server)
    (chan : t.cju.chan = s.cju.chan) (queue : t.pwq.entries = s.pwq.entries) : PullStands t where
  dev := dev.trans h.dev
  server := by rw [server]; exact h.server
  sealed := h.sealed.congr chan queue

theorem pullProgress_of_phase (h : t.rse.pull.phase ≠ .completing) : pullProgress t = t := by
  unfold pullProgress
  rw [if_neg fun due => h due.1]

/-- A buffer leaves the pull. -/
theorem Sums.dropBuffer (h : Sums t) (pass : t.sgu.pass = none) (hp : t.rse.pull.phase ≠ .idle) (rest : List Buffer) :
    Sums { t with rse.pull.buffers := rest } where
  table := h.table
  sigs := h.sigs
  truthful := h.truthful
  stored := h.stored
  buffers := .inr ⟨hp, pass⟩
  ending := h.ending
  outside := h.outside
  signing p hp := by
    rw [show t.sgu.pass = some p from hp] at pass
    cases pass
  unsigned := h.unsigned

namespace Walk

theorem pullProgress (h : Walk s t) (hp : t.rse.pull.phase = .completing → PullStands t) : Walk s (pullProgress t) where
  dev := by simpa using h.dev
  initOp := by simpa using h.initOp
  queue hq := by
    by_cases completing : t.rse.pull.phase = .completing
    · exact signedQueueLaw_of_unsigned (tableOf_pullProgress t) (by simp) (h.queue hq) ((hp completing).unsigned (h.queue hq))
    · rw [pullProgress_of_phase completing]
      exact h.queue hq
  sums hs hq hi := (h.sums hs hq hi).pullProgress hp

/-- A grant of a pull writes a received block and frees its buffer (R146). -/
theorem writeBuffer (stands : Stands s s) : Walk s (writeBuffer s) := by
  by_cases hw : ∃ b rest l, s.rse.pull.buffers = b :: rest ∧ s.rse.pull.server = some l
  · obtain ⟨b, rest, l, hb, hl⟩ := hw
    have receives : Sums s → s.rse.pull.phase ≠ .idle ∧ s.sgu.pass = none := fun hs =>
      hs.buffers.resolve_left (by rw [hb]; nofun)
    have put := (refl s).overwriteAll (fun hs _ => (receives hs).2) (blockWrites b.block b.words)
    have completes : (writtenOut b rest l s).rse.pull.phase = s.rse.pull.phase := by simp [writtenOut]
    have same : PullStands s → PullStands (writtenOut b rest l s) := fun h =>
      h.congr (by simp [writtenOut]) (by simp [writtenOut]) (by simp [writtenOut]) (by simp [writtenOut])
    rw [writeBuffer_eq hb hl]
    refine pullProgress ?_ fun completing => same (.of_stands stands (by rw [← completes, completing]; nofun))
    clear completes same
    unfold writtenOut
    obtain ⟨phase, pass, chan⟩ : (Machine.overwriteAll (blockWrites b.block b.words) s).rse.pull.phase = s.rse.pull.phase ∧
        (Machine.overwriteAll (blockWrites b.block b.words) s).sgu.pass = s.sgu.pass ∧
        (Machine.overwriteAll (blockWrites b.block b.words) s).cju.chan = s.cju.chan := by simp
    generalize Machine.overwriteAll (blockWrites b.block b.words) s = t at *
    have freed : Walk s { t with rse.pull.buffers := rest } :=
      { dev := put.dev
        initOp := put.initOp
        queue := put.queue
        sums := fun hs hq hi =>
          (put.sums hs hq hi).dropBuffer (pass.trans (receives hs).2) (by rw [phase]; exact (receives hs).1) rest }
    have noted : Calm { t with rse.pull.buffers := rest }
        { t with cju := { s.cju with wPrev := wPrevWith b s }, rse.pull.buffers := rest } :=
      .of (by simp [calmView, chan])
    exact (freed.calm noted).calm (Calm.sendCtrl _ _ _)
  · rw [writeBuffer_of_none hw]
    exact refl s

end Walk

/-! ### The grants of a pass (R62, R63) -/

theorem tableOf_signBlock (s : State) : tableOf (signBlock s) = tableOf s := by
  by_cases hs : ∃ p k rest e, s.sgu.pass = some p ∧ p.slots = k :: rest ∧ slotRegion s k = some e
  · obtain ⟨p, k, rest, ⟨i, r⟩, hp, hk, hr⟩ := hs
    have read := passRead_table p.block s
    rw [signBlock_eq hp hk hr]
    generalize passRead p.block s = u at read
    split
    · exact read
    · exact (tableOf_of_rgt (by simp)).trans read
  · rw [signBlock_of_no_pass hs]

/-- What a grant of a pass leaves. -/
theorem signBlock_leaves (s : State) :
    (signBlock s).mpu.initOp = s.mpu.initOp ∧ (signBlock s).pwq = s.pwq ∧ (signBlock s).cju.chan = s.cju.chan ∧
      (signBlock s).rse.pull.server = s.rse.pull.server ∧ (signBlock s).rse.pull.phase = s.rse.pull.phase := by
  by_cases hs : ∃ p k rest e, s.sgu.pass = some p ∧ p.slots = k :: rest ∧ slotRegion s k = some e
  · obtain ⟨p, k, rest, ⟨i, r⟩, hp, hk, hr⟩ := hs
    have read : (passRead p.block s).mpu.initOp = s.mpu.initOp ∧ (passRead p.block s).pwq = s.pwq ∧
        (passRead p.block s).cju.chan = s.cju.chan ∧
        (passRead p.block s).rse.pull.server = s.rse.pull.server ∧
        (passRead p.block s).rse.pull.phase = s.rse.pull.phase := by
      rw [passRead_frame]
      exact ⟨rfl, rfl, rfl, rfl, rfl⟩
    rw [signBlock_eq hp hk hr]
    generalize passRead p.block s = u at read
    split
    · exact read
    · simpa using read
  · rw [signBlock_of_no_pass hs]
    exact ⟨rfl, rfl, rfl, rfl, rfl⟩

/-- A pass while a pull completes: the next block, and after the last one the completion check (R63, R149). -/
theorem Walk.reSigningRead (stands : Stands s s) (hp : s.sgu.pass ≠ none) (hd : s.dev ≠ .signing) :
    Walk s (reSigningRead s) := by
  have completing : s.rse.pull.phase = .completing := (stands.pass hp).resolve_left hd
  have pulls : PullStands s := .of_stands stands (by rw [completing]; nofun)
  have table := tableOf_signBlock s
  have dev := signBlock_dev s
  obtain ⟨initOp, queue, chan, server, phase⟩ := signBlock_leaves s
  have read : Sums s → Sums (signBlock s) ∧ (signBlock s).sgu.pass ≠ none ∨
      Ahead (signBlock s) [] ∧ (signBlock s).sgu.pass = none := fun hs => by
    obtain ⟨p, hp⟩ := Option.ne_none_iff_exists'.1 hp
    obtain ⟨_, _, _, _, reading⟩ := hs.reading (by rw [pulls.dev]; nofun) hp
    exact reading.signBlock
  have pulls' : PullStands (signBlock s) := pulls.congr dev server chan (by rw [queue])
  unfold Machine.reSigningRead
  dsimp only
  generalize signBlock s = t at *
  have law : signedQueueLaw s = true → signedQueueLaw t = true := fun hq => by
    rwa [signedQueueLaw_congr table dev (by rw [queue]) chan]
  split
  · rename_i pass
    refine Walk.settle
      { dev := by simpa using dev
        initOp := by simpa using initOp
        queue := fun hq => signedQueueLaw_of_unsigned (tableOf_completionCheck t) (by simp) (law hq) (pulls'.unsigned (law hq))
        sums := fun hs _ _ => ?_ }
    rcases read hs with ⟨-, going⟩ | ⟨ahead, -⟩
    · exact absurd pass going
    · obtain ⟨l, hl⟩ := pulls'.server
      exact ahead.completionCheck pass (by rw [pulls'.dev]; nofun) hl (phase.trans completing) pulls'.sealed
  · rename_i pass
    exact
      { dev, initOp
        queue := law
        sums := fun hs _ _ => ((read hs).resolve_right fun done => pass done.2).1 }

/-! ### The join (R165) -/

theorem joining_leaves (bad : Nat) (s : State) :
    (joining bad s).pwq = s.pwq ∧ (joining bad s).rse = s.rse ∧ (joining bad s).cju.chan = s.cju.chan := by
  have walks : ∀ u : State, (walkIfEnabled u).pwq = u.pwq ∧ (walkIfEnabled u).rse = u.rse ∧
      (walkIfEnabled u).cju.chan = u.cju.chan := fun u => by
    unfold walkIfEnabled
    split
    · simp
    · exact ⟨rfl, rfl, rfl⟩
  unfold joining
  simp [walks]

/-- Every region has been signed: the part is RUNNING, and each region that the pass did not doubt has its sum. -/
theorem Ahead.joining (h : Ahead t []) (pass : t.sgu.pass = none) (hd : t.dev = .signing) (idle : t.rse.pull.phase = .idle)
    (bad : Nat) : Sums (joining bad t) := by
  obtain ⟨dev, -, rgt, mpu, sgu, -⟩ := joining_fields bad t
  obtain ⟨-, rse, -⟩ := joining_leaves bad t
  generalize Machine.joining bad t = u at *
  have notCompleting : u.rse.pull.phase ≠ .completing := by rw [rse, idle]; nofun
  exact
    { table := by rw [tableLaw_congr (tableOf_of_rgt rgt)]; exact h.table
      sigs := by rw [sgu]; exact h.sigs
      truthful := fun a hc => by
        rw [readWord_of_mem (s := t) (by rw [mpu])] at hc ⊢
        rw [mpu]
        exact h.truthful a hc
      stored := fun _ i r hr normal => by
        have before : SignedAt t i r := by rwa [SignedAt, ← rgt]
        rcases h.others i r before with ahead | doubts | sum
        · cases ahead
        · rw [doubted, if_pos hd, normal] at doubts
          cases doubts
        · rw [sigOf, sgu]
          exact sum.of_words fun _ _ => by rw [regionWord, regionWord, mpu]
      buffers := .inl (by rw [rse]; exact h.buffers)
      ending := fun completing => absurd completing notCompleting
      outside := fun _ => by rw [dev]; nofun
      signing := fun p hp => by
        rw [sgu, pass] at hp
        cases hp
      unsigned := fun _ completing => absurd completing notCompleting }

/-- The channel has its first state. -/
theorem Calm.join (bad : Nat) (t : State) (hc : t.cju.chan = none) : Calm (joining bad t) (join bad t) := by
  obtain ⟨-, -, chan⟩ := joining_leaves bad t
  have closed : cycleOpen (joining bad t) = false := by simp [cycleOpen, chan, hc]
  rw [join_eq]
  generalize joining bad t = u at closed
  split
  · exact (setChan _ u fun ho => by simp [closed] at ho).trans (testFull _)
  · have agreed : Calm u (Machine.setAgreed true { u with vtu := { u.vtu with closedSet := ownEntries u } }) :=
      .of (by simp [calmView])
    have emptied : Calm u (emptyJournal (Machine.setAgreed true { u with vtu := { u.vtu with closedSet := ownEntries u } })) :=
      agreed.trans (.of (by rfl))
    have ready := emptied.trans (setChan (some .ready) _ fun ho => by
      simp [cycleOpen, emptyJournal] at ho closed
      simp [closed] at ho)
    exact ready.trans (.of (by rfl))

/-- A grant of the signing pass; after the last one the part joins. -/
theorem Lawful.signingRead (stands : Stands s s) (hp : s.sgu.pass ≠ none) (hd : s.dev = .signing) :
    Lawful s (signingRead s) := by
  obtain ⟨none, -, -, idle⟩ := stands.off (by rw [hd]; nofun)
  have table := tableOf_signBlock s
  have dev := signBlock_dev s
  obtain ⟨initOp, queue, chan, -, phase⟩ := signBlock_leaves s
  have read : Sums s → Sums (signBlock s) ∧ (signBlock s).sgu.pass ≠ .none ∨
      Ahead (signBlock s) [] ∧ (signBlock s).sgu.pass = .none := fun hs => by
    obtain ⟨p, hp⟩ := Option.ne_none_iff_exists'.1 hp
    obtain ⟨_, _, _, _, reading⟩ := hs.reading (by rw [hd]; nofun) hp
    exact reading.signBlock
  have noInit : initLaw s = true → s.mpu.initOp = .none := fun hi =>
    ((initLaw_iff s).1 hi).resolve_right fun ⟨configuring, _⟩ => by rw [hd] at configuring; cases configuring
  have unsigned : signedQueueLaw s = true → Unsigned s := fun hq =>
    unsigned_of_signedQueueLaw hq (by rw [hd]; nofun) (by simp [cycleOpen, none])
  unfold Machine.signingRead
  dsimp only
  generalize signBlock s = t at *
  split
  · rename_i pass
    have joined := Calm.join (passBad s) t (chan.trans none)
    obtain ⟨running, -, rgt, mpu, -⟩ := joining_fields (passBad s) t
    obtain ⟨queue', -⟩ := joining_leaves (passBad s) t
    have law : signedQueueLaw s = true → signedQueueLaw (Machine.joining (passBad s) t) = true := fun hq =>
      signedQueueLaw_of_unsigned ((tableOf_of_rgt rgt).trans table) (by rw [queue', queue]) hq (unsigned hq)
    have settled := (Walk.of_calm joined).settle
    exact
      { init := fun hi => (initLaw_iff _).2 (.inl (by rw [settled.initOp, mpu, initOp]; exact noInit hi))
        queue := fun hq => settled.queue (law hq)
        sums := fun hs hq hi => by
          rcases read hs with ⟨-, going⟩ | ⟨ahead, -⟩
          · exact absurd pass going
          · refine (settled.sums (ahead.joining pass (dev.trans hd) (phase.trans idle) _) (law hq) ?_).laws
            exact (initLaw_iff _).2 (.inl (by rw [mpu, initOp]; exact noInit hi)) }
  · rename_i pass
    exact
      { init := fun hi => (initLaw_iff t).2 (.inl (initOp.trans (noInit hi)))
        queue := fun hq => by rwa [signedQueueLaw_congr table dev (by rw [queue]) chan]
        sums := fun hs _ _ => ((read hs).resolve_right fun done => pass done.2).1.laws }

end

end Sys2Proof.Machine
end

section
/-! PROOFS. The laws of the signatures over the received frames and the timers (R118 to R123, R145, R148). -/

namespace Sys2Proof.Machine

open Sys2Proof

section
variable {s t : State}

theorem tableOf_takePullEnd (l : Link) (f : PullEndFrame) (t : State) : tableOf (takePullEnd l f t) = tableOf t := by
  unfold takePullEnd
  split
  · split
    · exact (tableOf_pullProgress _).trans rfl
    · exact tableOf_of_rgt (by simp)
  · rfl

/-! ### Frames -/

namespace Walk

theorem takeBlock (h : Walk s t) (hp : t.rse.pull.phase = .receiving → t.sgu.pass = none) (l : Link) (f : BlockFrame) :
    Walk s (takeBlock l f t) where
  dev := by simpa using h.dev
  initOp := by simpa using h.initOp
  queue hq := by
    rw [signedQueueLaw_congr (s := t) (tableOf_of_rgt (by simp)) (by simp) (by simp) (by simp)]
    exact h.queue hq
  sums hs hq hi := (h.sums hs hq hi).takeBlock hp l f

theorem takePullEnd (h : Walk s t) (hp : t.rse.pull.phase ≠ .idle → PullStands t)
    (pass : t.rse.pull.phase = .receiving → t.sgu.pass = none) (l : Link) (f : PullEndFrame) : Walk s (takePullEnd l f t) where
  dev := by simpa using h.dev
  initOp := by simpa using h.initOp
  queue hq := by
    by_cases idle : t.rse.pull.phase = .idle
    · have same : Machine.takePullEnd l f t = t := by
        unfold Machine.takePullEnd
        rw [if_neg (by rw [idle]; nofun)]
      rw [same]
      exact h.queue hq
    · exact signedQueueLaw_of_unsigned (tableOf_takePullEnd l f t) (by simp) (h.queue hq) ((hp idle).unsigned (h.queue hq))
  sums hs hq hi := (h.sums hs hq hi).takePullEnd hp pass l f

/-- A frame other than a HELLO refreshes its link before it is taken (R119). -/
theorem receiveOther (stands : Stands s s) (l : Link) (fp : BitVec 16) (consumer : State → State)
    (hc : ∀ u, Stands s u → Walk s u → Walk s (consumer u)) : Walk s (receiveOther l fp consumer s) := by
  have refreshed : Walk s (refresh l s) := of_calm (Calm.refresh l s)
  unfold Machine.receiveOther
  dsimp only
  split
  · exact hc _ (stands.refresh l) refreshed
  · exact refreshed

theorem receive (stands : Stands s s) (l : Link) (f : SentFrame) : Walk s (receive l f s) := by
  unfold Machine.receive listening
  split
  · exact refl s
  · refine settle ?_
    unfold receiveFrame
    split
    · exact of_calm (Calm.receiveHello _ _ _ s)
    · exact receiveOther stands _ _ _ fun u _ hw => hw.calm (Calm.takeVote _ _ u)
    · exact receiveOther stands _ _ _ fun u _ hw => hw.calm (Calm.takePull _ _ u)
    · exact receiveOther stands _ _ _ fun _ hu hw => hw.takeBlock hu.no_pass_receiving _ _
    · exact receiveOther stands _ _ _ fun u _ hw => hw.calm (Calm.takeCredit _ _ u)
    · exact receiveOther stands _ _ _ fun _ hu hw => hw.takePullEnd (.of_stands hu) hu.no_pass_receiving _ _

theorem receiveBytes (stands : Stands s s) (l : Link) (bs : List Byte) : Walk s (receiveBytes l bs s) := by
  unfold Machine.receiveBytes
  split
  · exact receive stands _ _
  · unfold listening badFrame
    split
    · exact refl s
    · exact of_calm (.of (by simp [calmView]))

theorem transmitEnd (l : Link) (s : State) : Walk s (transmitEnd l s) := by
  unfold Machine.transmitEnd
  split
  · exact (of_calm (.of (by rfl))).settle
  · exact refl s

/-! ### Timers -/

/-- A closed cycle whose signed entries have been performed (R70). -/
theorem closeDrained (s : State) : Walk s (closeDrained s) := by
  unfold Machine.closeDrained
  split
  · rename_i closing
    refine (of_calm (Calm.endDrain s fun e he => ?_)).settle
    simpa using List.all_eq_true.1 closing.2 e he
  · exact refl s

theorem cycleLimit (s : State) : Walk s (cycleLimit s) := by
  unfold Machine.cycleLimit
  split
  · exact (of_calm (Calm.abandon _ s)).settle
  · exact refl s

theorem voteTimeout (s : State) : Walk s (voteTimeout s) := by
  unfold Machine.voteTimeout
  split
  · rename_i voting
    exact (of_calm (Calm.takeDecision s voting.2)).settle
  · exact refl s

theorem peerSilence (l : Link) (s : State) : Walk s (peerSilence l s) := by
  unfold Machine.peerSilence
  split
  · exact (of_calm (Calm.silenceCheck l s)).settle
  · exact refl s

theorem helloExpiry (s : State) : Walk s (helloExpiry s) := by
  unfold Machine.helloExpiry
  split
  · exact of_calm (.of (by simp [calmView]))
  · exact refl s

theorem patrolExpiry (s : State) : Walk s (patrolExpiry s) := by
  unfold Machine.patrolExpiry
  split
  · exact of_calm (.of (by rfl))
  · exact refl s

theorem pullTimeout (stands : Stands s s) : Walk s (pullTimeout s) := by
  unfold Machine.pullTimeout
  split
  · rename_i receiving
    exact (of_calm (Calm.failPull _ _ s (PullStands.of_stands stands (by rw [receiving.1]; nofun)).sealed)).settle
  · exact refl s

theorem creditTimeout (s : State) : Walk s (creditTimeout s) := by
  unfold Machine.creditTimeout
  split
  · exact (of_calm (Calm.endService _ _ s)).settle
  · exact refl s

theorem togglePermit (s : State) : Walk s (togglePermit s) := by
  unfold Machine.togglePermit
  split
  · exact of_calm (.of (by rfl))
  · exact refl s

theorem releaseReset (p : BitVec 2) (s : State) : Walk s (releaseReset p s) := by
  unfold Machine.releaseReset
  split
  · exact of_calm (.of (by rfl))
  · exact refl s

end Walk

end

end Sys2Proof.Machine
end

section
/-! PROOFS. The laws of the signatures over the commands as they are taken, and over the transfers at the port (R161, R169). -/

namespace Sys2Proof.Machine

open Sys2Proof

section
variable {s t : State}

theorem Calm.respond (st : Status) (d : Nat) (tag : Byte) (ws : List Word) (t : State) : Calm t (respond st d tag ws t) :=
  .of (by simp [calmView])

theorem Calm.giveAnswer (i : Initiator) (r : Resp) (d : Word) (t : State) : Calm t (giveAnswer i r d t) := .of (by rfl)

/-- RESTORE finds no cycle open (R161). -/
theorem sealed_of_restore (permits : whileRunning t (restoreRefusal t.cju.chan t.vtu.agreedBase) = none) : Sealed t := by
  have refusal : restoreRefusal t.cju.chan t.vtu.agreedBase = none := by
    unfold whileRunning at permits
    split at permits
    · exact permits
    · cases permits
  unfold restoreRefusal at refusal
  split at refusal
  · rename_i hc
    exact .of_chan hc nofun nofun
  · rename_i hc
    exact .of_chan hc nofun nofun
  all_goals cases refusal

namespace Walk

theorem respond (h : Walk s t) (st : Status) (d : Nat) (tag : Byte) (ws : List Word) : Walk s (respond st d tag ws t) :=
  h.calm (Calm.respond st d tag ws t)

theorem takeOpenCycle (h : Walk s t) (tag : Byte) : Walk s (takeOpenCycle tag t) := by
  have timed : Walk s { t with cju.timer := some t.times.cycleLimit } := h.calm (.of (by rfl))
  unfold Machine.takeOpenCycle
  split
  · exact ((timed.calm (Calm.setChan _ _ fun _ => .inl rfl)).respond _ _ _ _).settle
  · exact h.respond _ _ _ _

theorem takeCloseCycle (h : Walk s t) (tag : Byte) : Walk s (takeCloseCycle tag t) := by
  have timed : Walk s { t with cju.timer := none } := h.calm (.of (by rfl))
  unfold Machine.takeCloseCycle
  split
  · exact ((timed.calm (Calm.setChan _ _ fun _ => .inr (.inl rfl))).respond _ _ _ _).settle
  · exact h.respond _ _ _ _

theorem takeRestore (h : Walk s t) (tag : Byte) (ps : List Word)
    (permits : whileRunning t (restoreRefusal t.cju.chan t.vtu.agreedBase) = none) : Walk s (takeRestore tag ps t) := by
  have retried : Walk s { t with rse.pull.attempts := 0 } := h.calm (.of (by rfl))
  have started := fun l => retried.calm (Calm.startFull l _ (sealed_of_restore permits))
  unfold Machine.takeRestore
  split
  · exact h.respond _ _ _ _
  · split
    · exact ((started _).respond _ _ _ _).settle
    · exact h.respond _ _ _ _

theorem takeSetPatrol (h : Walk s t) (tag : Byte) (ps : List Word) : Walk s (takeSetPatrol tag ps t) := by
  have set : ∀ p : Ptu, Walk s { t with ptu := p } := fun _ => h.calm (.of (by rfl))
  unfold Machine.takeSetPatrol
  split
  · exact h.respond _ _ _ _
  · refine Walk.respond ?_ _ _ _ _
    split
    · split
      · exact set _
      · exact set _
    · exact set _

theorem effectOf (h : Walk s t) (cmd : Command) (tag : Byte) (ps : List Word) (permits : stateRefusal cmd t = none) :
    Walk s (effectOf cmd tag ps t) := by
  have cmu : ∀ c : Cmu, Walk s { t with cmu := c } := fun _ => h.calm (.of (by rfl))
  cases cmd with
  | clearTable =>
    dsimp only [Machine.effectOf, takeClearTable]
    split
    · exact h.respond _ _ _ _
    · exact h
  | loadSlots =>
    dsimp only [Machine.effectOf, takeLoadSlots]
    split
    · exact h.respond _ _ _ _
    · exact (h.calm (u := { t with mpu :=
        { t.mpu with slots := ps.filterMap (fun w => portClassOf w.toNat), pointer := 0 } }) (.of (by rfl))).respond _ _ _ _
  | setTiming =>
    have timed : Walk s { t with times := clampedTimes ps } := h.calm (.of (by rfl))
    have checked : Walk s (silenceBoth { t with times := clampedTimes ps }) :=
      (timed.calm (Calm.silenceCheck .one _)).calm (Calm.silenceCheck .two _)
    dsimp only [Machine.effectOf]
    rw [takeSetTiming_eq]
    exact (checked.respond _ _ _ _).settle
  | setQueue =>
    have set : Walk s (Machine.lowerHold (Machine.raiseHold
        { t with pwq := { t.pwq with upper := clampedUpper ps, lower := clampedLower ps } })) :=
      h.calm (.of (by simp [calmView]))
    dsimp only [Machine.effectOf, takeSetQueue]
    exact (set.respond _ _ _ _).settle
  | initMemory =>
    dsimp only [Machine.effectOf, takeInitMemory]
    split
    · exact h.respond _ _ _ _
    · split
      · exact h.respond _ _ _ _
      · exact h
  | openCycle => exact h.takeOpenCycle tag
  | closeCycle => exact h.takeCloseCycle tag
  | abandonCycle =>
    dsimp only [Machine.effectOf, takeAbandonCycle]
    exact ((h.calm (Calm.abandon _ t)).respond _ _ _ _).settle
  | restore => exact h.takeRestore tag ps permits
  | setPatrol => exact h.takeSetPatrol tag ps
  | setAlertMask =>
    dsimp only [Machine.effectOf, takeSetAlertMask]
    split
    · exact h.respond _ _ _ _
    · exact (cmu _).respond _ _ _ _
  | readRegion =>
    dsimp only [Machine.effectOf, takeReadRegion]
    split
    · exact h.respond _ _ _ _
    · exact h.respond _ _ _ _
  | readEvents =>
    dsimp only [Machine.effectOf, takeReadEvents]
    split
    · exact h.respond _ _ _ _
    · exact (cmu _).respond _ _ _ _
  | loadRegion | endConfig | reset => exact h
  | readState | readPeers => exact h.respond _ _ _ _

end Walk

/-! ### The command interface -/

namespace Lawful

/-- During INIT_MEMORY only the reset is taken and waits (R52). -/
theorem takeCommand (h : Walk s t) (cmd : Command) (tag : Byte) (ps : List Word) : Lawful s (takeCommand cmd tag ps t) := by
  have taken : Walk s { pend t with cmu.buffer := some ⟨cmd, tag, ps⟩ } := h.calm (.of (by rfl))
  have answered : ∀ st d, Lawful s (respond st d tag [] { pend t with cmu.buffer := some ⟨cmd, tag, ps⟩ }) := fun st d =>
    (taken.respond st d tag []).lawful fun _ f hf => nomatch hf
  unfold Machine.takeCommand
  dsimp only
  split
  · exact answered _ _
  · split
    · exact answered _ _
    · split
      · exact answered _ _
      · rename_i free _ permits
        have done := taken.effectOf cmd tag ps (Eq.trans (by cases cmd <;> rfl) permits)
        refine done.lawful fun busy f hf => .inr ?_
        have running : t.mpu.initOp.isSome = true := by
          rw [h.initOp]
          exact Option.isSome_iff_ne_none.2 busy
        have takes : takenInInit cmd ≠ false := fun refused => free ⟨running, refused⟩
        rcases effectOf_answers cmd tag ps { pend t with cmu.buffer := some ⟨cmd, tag, ps⟩ } with answers | ⟨waits, same⟩
        · rw [answers.buffer] at hf
          cases hf
        · rw [same] at hf
          cases hf
          cases cmd with
          | reset => rfl
          | clearTable | loadRegion | initMemory | endConfig => exact absurd rfl takes
          | loadSlots | setTiming | setQueue | openCycle | closeCycle | abandonCycle | restore | setPatrol | setAlertMask
          | readState | readRegion | readPeers | readEvents => cases waits

theorem submit (h : Walk s t) (same : t.cmu.buffer = s.cmu.buffer) : Lawful s (submit t) := by
  have pended : Walk s (pend t) := h.calm (.of (by rfl))
  have answered : ∀ st tag, Lawful s (respond st 0 tag [] (pend t)) := fun st tag =>
    (pended.respond st 0 tag []).lawful fun _ f hf => nomatch hf
  unfold Machine.submit
  split
  · exact (h.calm (Calm.recordEvent _ t)).lawful fun _ f hf => .inl (by simpa [same] using hf)
  · split
    · exact answered _ _
    · exact answered _ _
    · exact takeCommand h _ _ _

theorem presentCommand (cmd : Command) (tag : Byte) (ps : List Word) (s : State) : Lawful s (presentCommand cmd tag ps s) := by
  have written : ∀ q, Walk s (Machine.giveAnswer .data .okay 0 { s with cmu.request := q }) := fun q =>
    Walk.of_calm (.of (by rfl))
  unfold Machine.presentCommand
  split
  · exact (Walk.of_calm (Calm.giveAnswer _ _ _ s)).quiet rfl
  · dsimp only
    split
    · exact ((written _).calm (Calm.recordEvent _ _)).quiet (by simp [commandView])
    · split
      · exact takeCommand (written _) _ _ _
      · have pended : ∀ q, Walk s (pend (Machine.giveAnswer .data .okay 0 { s with cmu.request := q })) := fun q =>
          (written q).calm (.of (by rfl))
        exact ((pended _).respond _ _ _ _).lawful fun _ f hf => nomatch hf

theorem transfer (i : Initiator) (w : Bool) (a : BitVec 26) (be : BitVec 4) (d : Word) (s : State) :
    Lawful s (transfer i w a be d s) := by
  have refused : ∀ i a, Lawful s (refuseAddress i a s) := fun i a =>
    (Walk.of_calm (t := refuseAddress i a s) (.of (by simp [calmView, refuseAddress]))).quiet
      (by simp [commandView, refuseAddress])
  have answer : ∀ i r d, Walk s (Machine.giveAnswer i r d s) := fun i r d => Walk.of_calm (Calm.giveAnswer i r d s)
  have answered : ∀ i r d, Lawful s (Machine.giveAnswer i r d s) := fun i r d => (answer i r d).quiet rfl
  have aperture : ∀ n k, Lawful s (apertureTransfer w n k be d s) := by
    intro n k
    unfold apertureTransfer
    split
    · split
      · exact (Walk.of_calm (.of (by rfl))).quiet rfl
      · exact answered _ _ _
    · split
      · split
        · exact submit (answer _ _ _) rfl
        · exact answered _ _ _
      · split
        · exact refused _ _
        · exact answered _ _ _
  unfold Machine.transfer
  dsimp only
  split
  · exact answered _ _ _
  · split
    · exact ((Walk.refl s).arrive _).quiet (by simp [commandView])
    · split
      · exact aperture _ _
      · exact refused _ _

end Lawful

end

end Sys2Proof.Machine
end

section
/-! PROOFS. The laws of the signatures over the draining commands, the resets and a disturbance of the array (R8, R15, R36, R40,
R51, R164, R167). -/

namespace Sys2Proof.Machine

open Sys2Proof

/-- CONFIGURING, with no pass and no pull. -/
structure Dormant (t : State) : Prop where
  dev : t.dev = .configuring
  pass : t.sgu.pass = none
  phase : t.rse.pull.phase = .idle
  buffers : t.rse.pull.buffers = []

section
variable {s t : State}

theorem Dormant.laws (h : Dormant t) : storedLaw t = true ∧ passSumLaw t = true := by
  constructor
  · simp [storedLaw, h.dev]
  · simp [passSumLaw, h.dev, h.pass, h.phase, h.buffers]

theorem Dormant.of_sums (stands : Stands s s) (hd : s.dev = .configuring) (h : Sums s) : Dormant s := by
  obtain ⟨-, -, -, idle⟩ := stands.off (by rw [hd]; nofun)
  exact ⟨hd, stands.no_pass_configuring hd, idle, h.buffers.resolve_right fun ⟨active, _⟩ => active idle⟩

theorem Dormant.congr (h : Dormant s) (dev : t.dev = s.dev) (pass : t.sgu.pass = s.sgu.pass) (rse : t.rse = s.rse) :
    Dormant t :=
  ⟨dev.trans h.dev, pass.trans h.pass, by rw [rse]; exact h.phase, by rw [rse]; exact h.buffers⟩

theorem Dormant.settle (h : Dormant t) : Dormant (settle t) :=
  ⟨by simp [h.dev], by simp [h.pass], by simp [h.phase], by simp [h.buffers]⟩

namespace Lawful

/-- The end of a step that leaves the queue empty and the part dormant. -/
theorem of_dormant (init : initLaw s = true → initLaw t = true) (queue : t.pwq.entries = []) (h : Sums s → Dormant t) :
    Lawful s (settle t) where
  init hi := by
    have law := (initLaw_iff t).1 (init hi)
    rw [initLaw_iff]
    simpa using law
  queue _ := signedQueueLaw_settle (signedQueueLaw_of_empty queue)
  sums hs _ _ := (h hs).settle.laws

/-- A draining command's effect leaves INIT_MEMORY, the queue and the pulls. -/
theorem of_reload (stands : Stands s s) (hd : s.dev = .configuring) (queue : s.pwq.entries = []) {u : State}
    (dev : u.dev = s.dev) (pass : u.sgu.pass = s.sgu.pass) (rse : u.rse = s.rse) (mpu : u.mpu = s.mpu) (pwq : u.pwq = s.pwq)
    (st : Status) (d : Nat) (tag : Byte) : Lawful s (settle (respond st d tag [] u)) :=
  of_dormant
    (fun hi => by
      rw [initLaw_iff] at *
      refine hi.imp (fun off => by simp [mpu, off]) fun _ => ⟨by simp [dev, hd], fun _ hf => nomatch hf⟩)
    (by simp [pwq, queue])
    fun hs => (Dormant.of_sums stands hd hs).congr (by simp [dev]) (by simp [pass]) (by simp [rse])

theorem clearTableNow (stands : Stands s s) (hd : s.dev = .configuring) (queue : s.pwq.entries = []) (f : CmdFrame) :
    Lawful s (clearTableNow f s) := by
  have all : ∀ {α : Type} (g : State → α), (∀ k u, g (unloadRegion k u) = g u) →
      g ((List.range Config.regions).foldl (fun s k => unloadRegion k s) s) = g s := fun g hg =>
    foldl_keep _ g (fun u k => hg k u) _ s
  unfold Machine.clearTableNow
  split
  · refine of_reload stands hd queue ?_ ?_ ?_ ?_ ?_ _ _ _
    · simpa using all State.dev (by simp)
    · simpa using all (fun u => u.sgu.pass) (by simp)
    · simpa using all State.rse (by simp)
    · simpa using all State.mpu (by simp)
    · simpa using all State.pwq (by simp)
  · exact of_reload stands hd queue (by simp) (by simp) (by simp) (by simp) (by simp) _ _ _

theorem loadRegionNow (stands : Stands s s) (hd : s.dev = .configuring) (queue : s.pwq.entries = []) (f : CmdFrame) :
    Lawful s (loadRegionNow f s) := by
  unfold Machine.loadRegionNow
  split
  · exact of_reload stands hd queue rfl rfl rfl rfl rfl _ _ _
  · exact of_reload stands hd queue (by simp) (by simp) (by simp) (by simp) (by simp) _ _ _

/-- INIT_MEMORY begins (R51). -/
theorem initMemoryNow (stands : Stands s s) (hd : s.dev = .configuring) (queue : s.pwq.entries = []) (f : CmdFrame) :
    Lawful s (initMemoryNow f s) :=
  of_dormant (fun _ => (initLaw_iff _).2 (.inr ⟨hd, fun _ hf => nomatch hf⟩)) queue fun hs =>
    (Dormant.of_sums stands hd hs).congr rfl rfl rfl

end Lawful

/-! ### The entry into SIGNING (R164) -/

/-- Every slot in use lies ahead of the pass. -/
theorem Dormant.ahead (h : Dormant s) (hs : Sums s) (u : State) (dev : u.dev = .signing) (entries : u.rgt.entries = s.rgt.entries)
    (mpu : u.mpu = s.mpu) (sgu : u.sgu = s.sgu) (rse : u.rse = s.rse) : Ahead u (slotsWith u fun _ => true) := by
  have table : tableLaw u = true := by
    rw [tableLaw_congr (s := s) (t := u) (congrArg (List.map fun e => (e.1, e.2.desc)) entries)]
    exact hs.table
  exact
    { table
      sigs := by rw [sgu]; exact hs.sigs
      truthful := fun a hc => by
        rw [readWord_of_mem (s := s) (by rw [mpu])] at hc ⊢
        rw [mpu]
        exact hs.truthful a hc
      stored := fun running => by
        rw [dev] at running
        cases running
      buffers := by rw [rse]; exact h.buffers
      ending := fun completing => by
        rw [rse, h.phase] at completing
        cases completing
      nodup := (slotsWith_pairwise u _).imp fun hlt heq => by omega
      slots := fun k hk => by
        obtain ⟨-, used⟩ := (mem_slotsWith_all u k).1 hk
        obtain ⟨⟨i, r⟩, hr⟩ := Option.ne_none_iff_exists'.1 used
        obtain ⟨hf, signed, slot⟩ := (slotRegion_iff u table k i r).1 hr
        exact ⟨i, r, ⟨hf, signed⟩, slot, .inl dev⟩
      others := fun i r hr => by
        obtain ⟨small, -⟩ := hr.fits table
        refine .inl ((mem_slotsWith_all u _).2 ⟨small, ?_⟩)
        rw [(slotRegion_iff u table _ i r).2 ⟨hr.1, hr.2, rfl⟩]
        nofun }

theorem Sums.enterSigning (stands : Stands s s) (hd : s.dev = .configuring) (h : Sums s) (vital : vitalLoaded s = true) :
    Sums (enterSigning s) := by
  obtain ⟨v, hv, kind⟩ := List.any_eq_true.1 vital
  obtain ⟨small, used⟩ := slot_of_vital s h.table v hv (by simpa using kind)
  unfold Machine.enterSigning
  dsimp only
  have ahead := (Dormant.of_sums stands hd h).ahead h (setDev .signing { s with rgt.fingerprint := fingerprintOf s.rgt.entries })
    (by simp) (by simp) (by simp) (by simp) (by simp)
  have listed : v.2.desc.slot ∈ slotsWith (setDev .signing { s with rgt.fingerprint := fingerprintOf s.rgt.entries })
      fun _ => true := by
    refine (mem_slotsWith_all _ _).2 ⟨small, ?_⟩
    rw [slotRegion_congr (s := s) (by simp), used]
    nofun
  generalize setDev .signing { s with rgt.fingerprint := fingerprintOf s.rgt.entries } = u at ahead listed
  cases hk : slotsWith u fun _ => true with
  | nil =>
    rw [hk] at listed
    cases listed
  | cons k rest =>
    rw [hk] at ahead
    exact (ahead.begin 0).1

namespace Lawful

theorem endConfigNow (stands : Stands s s) (hd : s.dev = .configuring) (queue : s.pwq.entries = []) {f : CmdFrame}
    (hf : s.cmu.buffer = some f) (cmd : f.cmd = .endConfig) : Lawful s (endConfigNow f s) := by
  unfold Machine.endConfigNow
  split
  · exact of_reload stands hd queue rfl rfl rfl rfl rfl _ _ _
  · split
    · exact of_reload stands hd queue rfl rfl rfl rfl rfl _ _ _
    · rename_i vital
      have off : initLaw s = true → s.mpu.initOp = none := fun hi =>
        ((initLaw_iff s).1 hi).resolve_right fun ⟨_, only⟩ => by
          have reset := only f hf
          rw [cmd] at reset
          cases reset
      have settled : Walk (enterSigning s) (settle (accepted f.tag (enterSigning s))) :=
        (Walk.of_calm (Calm.respond .accepted 0 f.tag [] _)).settle
      have empty : signedQueueLaw (enterSigning s) = true := signedQueueLaw_of_empty (by simpa using queue)
      have init : initLaw s = true → (enterSigning s).mpu.initOp = none := fun hi => by simpa using off hi
      exact
        { init := fun hi => (initLaw_iff _).2 (.inl (settled.initOp.trans (init hi)))
          queue := fun _ => settled.queue empty
          sums := fun hs _ hi =>
            (settled.sums (hs.enterSigning stands hd (by simpa using vital)) empty ((initLaw_iff _).2 (.inl (init hi)))).laws }

/-! ### Resets -/

theorem resetNow (f : CmdFrame) (s : State) : Lawful s (resetNow f s) := by
  have cleared := cleared_resetDone s
  have buffers : (resetDone s).rse.pull.buffers = [] := by simp [resetDone, resetBlocks, resetPull, Pull.initial]
  have initOp : (resetDone s).mpu.initOp = none := by simp [resetDone, resetBlocks]
  have queue : (resetDone s).pwq.entries = [] := by simp [resetDone, resetBlocks]
  rw [resetNow_eq]
  generalize resetDone s = u at *
  exact of_dormant (fun _ => (initLaw_iff _).2 (.inl initOp)) queue fun _ =>
    ⟨cleared.dev, cleared.pass, cleared.pull, buffers⟩

/-- Power and the reset pin leave the part as after power-on. -/
theorem of_reset (init : t.mpu.initOp = none) (queue : t.pwq.entries = []) (dormant : Dormant t) : Lawful s t where
  init _ := (initLaw_iff t).2 (.inl init)
  queue _ := signedQueueLaw_of_empty queue
  sums _ _ _ := dormant.laws

/-! ### A disturbance -/

/-- The laws look at the stored values and the data last written, not at the disturbed bits (R57). -/
theorem of_words {m : List (Nat × StoredWord)}
    (same : ∀ a, (memGet m a).stored = (memGet s.mpu.mem a).stored ∧ (memGet m a).written = (memGet s.mpu.mem a).written) :
    Lawful s { s with mpu.mem := m } := by
  have sum : ∀ d n, storedSum { s with mpu.mem := m } d n = storedSum s d n := fun d n => by
    simp only [storedSum, regionWord, (same _).1]
  have kept : ∀ d n, keptWords { s with mpu.mem := m } d n = keptWords s d n := fun d n => by
    simp only [keptWords, regionWord, (same _).1, (same _).2]
  have right : ∀ d, signedRight { s with mpu.mem := m } d = signedRight s d := fun d => by
    simp only [signedRight, sum, kept]
    rfl
  have stored : storedLaw { s with mpu.mem := m } = storedLaw s := by
    simp only [storedLaw, right]
  have pass : passSumLaw { s with mpu.mem := m } = passSumLaw s := by
    simp only [passSumLaw, right, sum, kept]
    rfl
  exact
    { init := id
      queue := id
      sums := fun hs _ _ => by
        rw [stored, pass]
        exact hs.laws }

theorem arrayDisturbance (a : Nat) (flips : BitVec 40) (verdict : Verdict) (s : State) :
    Lawful s { s with mpu.mem := memPut s.mpu.mem a (disturb (memGet s.mpu.mem a) flips verdict) } := by
  refine of_words fun b => ?_
  rw [memGet_memPut]
  split
  · rename_i here
    obtain ⟨rfl, -⟩ := here
    obtain ⟨stored, written, -⟩ := normalWord_fields (disturb (memGet s.mpu.mem a) flips verdict)
    obtain ⟨stored', written', -⟩ := disturb_fields (memGet s.mpu.mem a) flips verdict
    exact ⟨stored.trans stored', written.trans written'⟩
  · exact ⟨rfl, rfl⟩

end Lawful

end

end Sys2Proof.Machine
end

section
/-! PROOFS. Every command keeps the laws of the signatures. -/

namespace Sys2Proof.Machine

open Sys2Proof

namespace Lawful

variable {s t : State}

theorem refl (s : State) : Lawful s s := (Walk.refl s).quiet rfl

theorem of_calm (h : Calm s t) (view : commandView t = commandView s) : Lawful s t := (Walk.of_calm h).quiet view

theorem of_whenReady (f : State → State) (hf : Lawful s (f s)) : Lawful s (whenReady f s) := by
  unfold Machine.whenReady
  split
  · exact refl s
  · exact hf

/-- A grant works on the state with the arbiter's new pointer. -/
theorem of_granted (hp : permitInvariant s = true) (g : Grant) (work : State → State)
    (hw : ∀ u, Stands u u → g.asked u → Lawful u (work u)) : Lawful s (granted g work s) := by
  rcases granted_cases g work s with same | ⟨p, -, asked, same⟩
  · rw [same]
    exact refl s
  · rw [same]
    have done := hw { s with mpu.pointer := p } (stands_of_permitInvariant (s := { s with mpu.pointer := p }) hp).1 asked
    exact
      { init := done.init
        queue := done.queue
        sums := fun hs hq hi => done.sums (hs.of_view rfl rfl) hq hi }

/-- A draining command waits for the empty queue; but for the reset it waits in CONFIGURING (R8, R36). -/
theorem of_drained (config : configLaw s = true) (cmd : Command) (work : CmdFrame → State → State)
    (hw : ∀ f, s.cmu.buffer = some f → f.cmd = cmd → s.pwq.entries = [] → cmd = .reset ∨ s.dev = .configuring →
      Lawful s (work f s)) : Lawful s (drained cmd work s) := by
  unfold Machine.drained
  split
  · rename_i f hf
    split
    · rename_i hc
      obtain ⟨same, empty⟩ := hc
      refine hw f hf same empty ?_
      unfold configLaw at config
      rw [hf] at config
      simpa [same] using config
    · exact refl s
  · exact refl s

end Lawful

open Lawful in
/-- Every command keeps the laws of the signatures. -/
theorem lawful_exec (i : Instr) (s t : State) (hp : permitInvariant s = true) (h : exec i s = .next t) : Lawful s t := by
  obtain ⟨r, config⟩ := stands_of_permitInvariant hp
  cases i with
  | powerOn p content =>
    cases outcome_inj h
    split
    · exact of_reset rfl rfl ⟨rfl, rfl, rfl, rfl⟩
    · exact of_reset rfl rfl ⟨rfl, rfl, rfl, rfl⟩
  | pinResetAssert cut => cases outcome_inj h; exact of_reset rfl rfl ⟨rfl, rfl, rfl, rfl⟩
  | pinResetRelease p => cases outcome_inj h; exact (Walk.releaseReset p s).quiet (commandView_releaseReset p s)
  | memoryRead i a be => cases outcome_inj h; exact Lawful.transfer _ _ _ _ _ s
  | memoryWrite i a be d => cases outcome_inj h; exact Lawful.transfer _ _ _ _ _ s
  | addressRefused i w a be d => cases outcome_inj h; exact Lawful.transfer _ _ _ _ _ s
  | requestAreaWrite a be d => cases outcome_inj h; exact Lawful.transfer _ _ _ _ _ s
  | commandOverrun be => cases outcome_inj h; exact Lawful.transfer _ _ _ _ _ s
  | unknownCommand be => cases outcome_inj h; exact Lawful.transfer _ _ _ _ _ s
  | procReadGrant =>
    cases outcome_inj h
    exact of_whenReady _ (of_granted hp _ _ fun u _ _ => (Walk.procRead u).quiet (commandView_procRead u))
  | correctionWriteBack =>
    cases outcome_inj h
    exact of_whenReady _ (of_granted hp _ _ fun u _ _ => (Walk.writeBack u).quiet (commandView_writeBack u))
  | pwqHeadWrite =>
    cases outcome_inj h
    exact of_whenReady _ (of_granted hp _ _ fun u hu _ => (Walk.headWrite hu).quiet (commandView_headWrite u))
  | capture =>
    cases outcome_inj h
    exact of_whenReady _ (of_granted hp _ _ fun u _ _ => (Walk.captureHead u).quiet (commandView_captureHead u))
  | rollbackGrant =>
    cases outcome_inj h
    exact of_whenReady _ (of_granted hp _ _ fun u hu ha => (Walk.rollbackNewest hu ha.1).quiet (commandView_rollbackNewest u))
  | patrolRead =>
    cases outcome_inj h
    exact of_whenReady _ (of_granted hp _ _ fun u _ _ => (Walk.patrolBlock u).quiet (commandView_patrolBlock u))
  | serverRead =>
    cases outcome_inj h
    exact of_whenReady _ (of_granted hp _ _ fun u _ _ =>
      (Walk.serveBlock u).settle.quiet ((commandView_settle _).trans (commandView_serveBlock u)))
  | requesterWrite =>
    cases outcome_inj h
    exact of_whenReady _ (of_granted hp _ _ fun u hu _ =>
      (Walk.writeBuffer hu).settle.quiet ((commandView_settle _).trans (commandView_writeBuffer u)))
  | initBlockWrite => cases outcome_inj h; exact of_whenReady _ (of_granted hp _ _ fun _ hu _ => Lawful.initBlock hu)
  | signingRead =>
    cases outcome_inj h
    exact of_whenReady _ (of_granted hp _ _ fun _ hu ⟨_, pass, signing⟩ =>
      Lawful.signingRead hu (Option.isSome_iff_ne_none.1 pass) signing)
  | reSigningRead =>
    cases outcome_inj h
    exact of_whenReady _ (of_granted hp _ _ fun u hu ⟨_, pass, other⟩ =>
      (Walk.reSigningRead hu (Option.isSome_iff_ne_none.1 pass) other).quiet (commandView_reSigningRead u))
  | clearTableDrained =>
    cases outcome_inj h
    exact of_whenReady _ (of_drained config _ _ fun f _ _ empty hc => Lawful.clearTableNow r (hc.resolve_left nofun) empty f)
  | loadRegionDrained =>
    cases outcome_inj h
    exact of_whenReady _ (of_drained config _ _ fun f _ _ empty hc => Lawful.loadRegionNow r (hc.resolve_left nofun) empty f)
  | initMemoryBegin =>
    cases outcome_inj h
    exact of_whenReady _ (of_drained config _ _ fun f _ _ empty hc => Lawful.initMemoryNow r (hc.resolve_left nofun) empty f)
  | endConfigChecks =>
    cases outcome_inj h
    exact of_whenReady _ (of_drained config _ _ fun f hf cmd empty hc =>
      Lawful.endConfigNow r (hc.resolve_left nofun) empty hf cmd)
  | commandReset => cases outcome_inj h; exact of_whenReady _ (of_drained config _ _ fun f _ _ _ _ => Lawful.resetNow f s)
  | closeDrainEnd => cases outcome_inj h; exact of_whenReady _ ((Walk.closeDrained s).quiet (commandView_closeDrained s))
  | clearTable tag ps | loadRegion tag ps | loadSlots tag ps | setTiming tag ps | setQueue tag ps | initMemory tag ps
  | endConfig tag ps | openCycle tag ps | closeCycle tag ps | abandonCycle tag ps | restore tag ps | setPatrol tag ps
  | setAlertMask tag ps | readState tag ps | readRegion tag ps | readPeers tag ps | readEvents tag ps | reset tag ps =>
    cases outcome_inj h
    exact Lawful.presentCommand _ _ _ s
  | cycleLimit => cases outcome_inj h; exact of_whenReady _ ((Walk.cycleLimit s).quiet (commandView_cycleLimit s))
  | voteTimerExpiry => cases outcome_inj h; exact of_whenReady _ ((Walk.voteTimeout s).quiet (commandView_voteTimeout s))
  | peerSilenceExpiry l => cases outcome_inj h; exact of_whenReady _ ((Walk.peerSilence l s).quiet (commandView_peerSilence l s))
  | helloTimer => cases outcome_inj h; exact of_whenReady _ ((Walk.helloExpiry s).quiet (commandView_helloExpiry s))
  | patrolInterval => cases outcome_inj h; exact of_whenReady _ ((Walk.patrolExpiry s).quiet (commandView_patrolExpiry s))
  | pullSilenceExpiry => cases outcome_inj h; exact of_whenReady _ ((Walk.pullTimeout r).quiet (commandView_pullTimeout s))
  | creditSilenceExpiry => cases outcome_inj h; exact of_whenReady _ ((Walk.creditTimeout s).quiet (commandView_creditTimeout s))
  | permitToggle => cases outcome_inj h; exact of_whenReady _ ((Walk.togglePermit s).quiet (commandView_togglePermit s))
  | invalidFrame l bs =>
    cases outcome_inj h
    exact of_whenReady _ ((Walk.receiveBytes r l bs).quiet (commandView_receiveBytes l bs s))
  | helloReceived l fp f | voteReceived l fp f | pullReceived l fp f | blockReceived l fp f | creditReceived l fp f
  | pullEndReceived l fp f =>
    cases outcome_inj h
    exact of_whenReady _ ((Walk.receive r l _).quiet (commandView_receive l _ s))
  | frameTransmitEnd l => cases outcome_inj h; exact of_whenReady _ ((Walk.transmitEnd l s).quiet (commandView_transmitEnd l s))
  | arrayDisturbance w f v => cases outcome_inj h; exact Lawful.arrayDisturbance _ f v s

theorem lawful_step (s t : State) (hp : permitInvariant s = true) (h : step s = .next t) : Lawful s t := by
  unfold step at h
  split at h
  · cases outcome_inj h
    unfold tick
    split
    · exact .refl s
    · exact .of_calm (.of (by rfl)) rfl
  · rename_i c rest _
    have done := lawful_exec c { s with pending := rest } t hp h
    exact
      { init := done.init
        queue := done.queue
        sums := fun hs hq hi => done.sums (hs.of_view rfl rfl) hq hi }

/-- Settles O23: `Lawful` holds of every step, and the laws of the state before give its sums. -/
theorem signaturesAccountForStoredValues : Obligations.SignaturesAccountForStoredValues := by
  intro s t hp h
  have lawful := lawful_step s t hp h
  exact ⟨lawful.init, lawful.queue, fun truthful _ table signature queue init stored pass =>
    lawful.sums (sums_of_laws table truthful signature stored pass) queue init⟩

end Sys2Proof.Machine
end
